-- ==== Sys2Proof/Word.lean ====
section
/-!
DEFINITION. The word types of the block and the sparse table type its state is built from.
-/

namespace Sys2Proof

/-- One byte. -/
abbrev Byte := BitVec 8
/-- A string of bytes, byte 0 first (R7). -/
abbrev Bytes := List Byte
/-- A 32-bit register word. -/
abbrev Word := BitVec 32
/-- A 64-bit address or value. -/
abbrev Addr := BitVec 64
/-- A free-running 16-bit ring index (R51). -/
abbrev Idx := BitVec 16

/-- A sparse table over Nat keys: `ents` lists, in strictly rising key order, the keys whose value
differs from `dflt`. `Machine/Tables.lean` reads and writes it. -/
structure Tab (α : Type) where
  dflt : α
  ents : List (Nat × α) := []
  deriving DecidableEq, Repr

/-- `n` zero bytes. -/
abbrev zeros (n : Nat) : Bytes := List.replicate n 0

end Sys2Proof
end

