-- ==== Sys2Proof/Syntax.lean ====
section
/-!
DEFINITION. The commands of the block, one constructor per row of spec/opcode_table.json, and the types of
their operands. What the surroundings decide at a step (a reading, a test's outcome, whether two takes
agreed) is an operand (assumption 4).
-/

namespace Sys2Proof

/-- Stall number (R29), submission ring (R43), job-table index (R64). -/
abbrev StallId := Fin 512
abbrev RingId := Fin 4
abbrev JobId := Fin 4096
/-- Cipher lane, mailbox pair, chute, mover channel, island of R476. -/
abbrev LaneId := Fin 8
abbrev MboxId := Fin 8
abbrev ChuteId := Fin 8
abbrev ChanId := Fin 16
abbrev IslandId := Fin 24

/-- The ports with tags (R536). -/
inductive Port where
  | dp0 | dp1 | rp
  deriving DecidableEq, Repr

/-- The management ports. -/
inductive MPort where
  | a | b
  deriving DecidableEq, Repr

/-- The identity an access on a management port carries (R380, R541). -/
structure Sender where
  rid : BitVec 16
  priv : Bool
  port : MPort
  deriving DecidableEq, Repr

/-- An engine (R359). -/
inductive Engine where
  | lane (l : Fin 8) | digest (l : Fin 16) | core (c : Fin 8) | unwrap (u : Fin 2) | entropy
  deriving DecidableEq, Repr

/-- An engine class (R362). -/
inductive EngClass where
  | cipher | digest | pk | unwrap | entropy
  deriving DecidableEq, Repr

/-- Whether the two takes of a decision agreed (R489), or the entropy island failed between them (R501). -/
inductive Take where
  | agree | split | cut
  deriving DecidableEq, Repr

/-- How a comparison ended inside the engine: both takes agree, they differ (R489), the internal verdict pair is neither
the match nor the mismatch pair (R97), or the entropy island failed between the takes (R501). -/
inductive Verdict where
  | sound | split | invalid | cut
  deriving DecidableEq, Repr

/-- A verify operation of a core: its job, and whether the core's internal verdict pair is the match or the mismatch pair (R97). -/
structure Verifying where
  job : JobId
  pairSound : Bool := true
  deriving DecidableEq, Repr

/-- How a fuse burn goes: sensed back as written, sensed back otherwise, or `vfz` leaves its range and the burn
pauses (R549). -/
inductive Burn where
  | good | bad | vfzLost
  deriving DecidableEq, Repr

/-- What raised a cold reset (R516). -/
inductive ColdCause where
  | rstN | vdd
  deriving DecidableEq, Repr

/-- One island's six gauge readings (R502): the four canary slacks and the two oscillator frequencies; and the island's `vdd` in mV as
they were read. -/
structure Gauges where
  c0 : Int
  c1 : Int
  c2 : Int
  c3 : Int
  oscLo : Nat
  oscHi : Nat
  vdd : Nat := 750
  deriving DecidableEq, Repr

/-- What an island's clock does over one window (R481): its edges in the time of 4,096 cycles at 100 % of nominal, and the lengths, in
0.01 % of the nominal period, of the cycles that were short; and whether an engine that such a fault resets during start-up passes the test
of its SRAM that follows (R531). -/
structure ClockSeen where
  edges : Nat
  cycles : List Nat := []
  sramOk : Bool := true
  /-- The readings of that engine's gauges when its own step 5 repeats (R531). -/
  gauges : Gauges := { c0 := 100, c1 := 100, c2 := 100, c3 := 100, oscLo := 1000, oscHi := 1000 }
  deriving DecidableEq, Repr

/-- What a tamper mesh pair shows in its last two ticks (R479): its pair, and `tpi` with the latest tick lowest. -/
structure MeshSeen where
  mesh : Fin 2
  tpi : BitVec 2
  deriving DecidableEq, Repr

/-- What a tamper mesh pair shows over the 32 ticks that re-arm it (R479): its pair, and `tpi` with the latest tick lowest. -/
structure MeshRun where
  mesh : Fin 2
  tpi : BitVec 32
  deriving DecidableEq, Repr

/-- A test access instruction (R550), or `tap_trst_n` asserted in its place, which resets the controller (R534). -/
inductive TapIr where
  | bypass | idcode | other (code : BitVec 8) | trst
  deriving DecidableEq, Repr

/-- A use of the open test port (R551). -/
inductive ScanKind where
  | scan | bist
  deriving DecidableEq, Repr

/-- What start-up steps 1 to 8 find (R519, R523). -/
structure StartObs where
  /-- Islands whose clock generator fails to lock at step 3. -/
  lockFails : List (Fin 24) := []
  /-- Islands with unrepairable SRAM at step 4. -/
  sramFails : List (Fin 24) := []
  /-- Whether `vdd` at every island is above its warning level at step 1. -/
  vddOk : Bool := true
  /-- Gauge readings of islands 0 to 21 at step 5. -/
  gauges : Vector Gauges 22 := .replicate 22 { c0 := 100, c1 := 100, c2 := 100, c3 := 100, oscLo := 1000, oscHi := 1000 }
  /-- Whether one of three entropy start-up attempts passed at step 6. -/
  entropyOk : Bool := true
  /-- Whether the two life-cycle decisions of step 7 agreed. -/
  lifecycle : Take := .agree
  /-- Whether the ROM check of step 8 passed. -/
  romOk : Bool := true
  /-- Microseconds from the start of step 1 to the end of step 8. -/
  elapsed : Nat := 7000
  deriving DecidableEq, Repr

/-- A command of the block: one constructor per row of the opcode table, in its order. -/
inductive Instr where
  | coldReset (cause : ColdCause)
  | warmReset
  | startUp (obs : StartObs)
  | ltReset
  | vddRemove
  | wakeIn
  | sleepEnter
  | ymPowerGate
  | tapInstruction (ir : TapIr)
  | scanAccess (kind : ScanKind)
  | scanModeFall
  | sqDoorbellWrite (stall : StallId) (ring : RingId) (value : BitVec 16) (pid : BitVec 20) (priv whole : Bool)
  | cqConsumerWrite (stall : StallId) (value : BitVec 16) (pid : BitVec 20) (priv whole : Bool)
  | dcInvalidate (stall : StallId) (mask : BitVec 4) (pid : BitVec 20) (priv whole : Bool)
  | dcInvalidateDone (stall : StallId)
  | descriptorFetch (stall : StallId) (ring : RingId)
  | descriptorCapture (stall : StallId) (ring : RingId)
  | parameterBlockRead (stall : StallId) (ring : RingId)
  | jobDispatch
  | keyDecision (job : JobId) (take : Take)
  | blobUnwrap (job : JobId)
  | fragmentTableWalk (job : JobId)
  | stateBlobRestore (job : JobId)
  | engineGrant (cls : EngClass)
  | hitch (engine : Engine) (srcDone : Nat)
  | nop (job : JobId)
  | knot (job : JobId)
  | encrypt (job : JobId)
  | decrypt (job : JobId)
  | seal (job : JobId)
  | openAead (job : JobId) (v : Verdict)
  | macGen (job : JobId)
  | macCheck (job : JobId) (v : Verdict)
  | splice (job : JobId) (tag tap : Verdict)
  | digest (job : JobId)
  | hmacGen (job : JobId)
  | hmacCheck (job : JobId) (v : Verdict)
  | kmacGen (job : JobId)
  | kmacCheck (job : JobId) (v : Verdict)
  | xof (job : JobId)
  | keyUnwrap (job : JobId)
  | keyWrap (job : JobId)
  | keyDerive (job : JobId)
  | keyGenerateOp (job : JobId)
  | random (job : JobId)
  | ecKeygen (job : JobId)
  | ecdsaSign (job : JobId) (pass : Bool) (take : Take)
  | ecdsaVerify (check : Verifying)
  | ecdh (job : JobId)
  | eddsaSign (job : JobId) (pass : Bool) (take : Take)
  | eddsaVerify (check : Verifying)
  | xdh (job : JobId)
  | rsaPrivate (job : JobId) (pass : Bool) (take : Take)
  | rsaPublic (job : JobId)
  | modexp (job : JobId)
  | modmul (job : JobId)
  | mlkemKeygen (job : JobId)
  | mlkemEncaps (job : JobId)
  | mlkemDecaps (job : JobId)
  | mldsaKeygen (job : JobId)
  | mldsaSign (job : JobId)
  | mldsaVerify (check : Verifying)
  | lmsKeygen (job : JobId)
  | lmsSign (job : JobId) (take : Take)
  | lmsVerify (check : Verifying)
  | xmssVerify (check : Verifying)
  | slhdsaSign (job : JobId)
  | slhdsaVerify (check : Verifying)
  | dataReadResponse (port : Port) (tag : Nat) (data : Bytes) (err last : Bool)
  | writeDoneResponse (port : Port) (tag : Nat) (err : Bool)
  | engineEndReport (job : JobId) (occupancyNs : Nat)
  | completionWriteAck (tag : Nat) (err : Bool)
  | irqTimerExpiry (stall : StallId)
  | cqWriteRetry (stall : StallId)
  | laneFault (lane : LaneId) (job : JobId) (srcDone : Nat)
  | laneRetry
  | laneSelftestAuto (lane : LaneId) (pass : Bool)
  | laneReseed (lane : LaneId) (late : Bool)
  | groomStep
  | slotIntegritySweep (upsets stuck : List (Fin 528))
  | orphanSweep
  | digestCachePurge (island : Fin 2)
  | digestCacheRemask (island : Fin 2)
  | chuteItemWrite (chute : RingId) (data : Bytes) (ctl : BitVec 16)
  | chuteItemRead (chute : RingId)
  | chuteFlush (chute : ChuteId) (sender : Sender)
  | chuteFlushNow (chute : ChuteId) (sender : Sender)
  | timerTick (timer : RingId)
  | moverStart (chan : ChanId) (sender : Sender)
  | moverEnable (chan : ChanId) (value : BitVec 32) (sender : Sender)
  | moverDisable (chan : ChanId) (sender : Sender)
  | moverWalk (chan : ChanId)
  | copy (chan : ChanId)
  | braid (chan : ChanId)
  | unbraid (chan : ChanId)
  | moverDescriptorEnd (chan : ChanId)
  | inTagWrite (pair : MboxId) (tag : BitVec 32) (sender : Sender) (whole : Bool)
  | noticeReceive (pair : MboxId)
  | noticePost (pair : MboxId)
  | outTagRead (pair : MboxId) (sender : Sender) (whole : Bool)
  | pairReset (pair : MboxId) (sender : Sender) (whole : Bool)
  | hostUnresponsive (pair : MboxId)
  | stallCreate (cmd : Nat)
  | stallBind (cmd : Nat)
  | stallQuiesceSoft (cmd : Nat)
  | stallQuiesceHard (cmd : Nat)
  | stallResume (cmd : Nat)
  | stallReset (cmd : Nat)
  | stallDestroy (cmd : Nat)
  | keyImportClear (cmd : Nat)
  | keyGenerate (cmd : Nat)
  | install (cmd : Nat)
  | destroy (cmd : Nat)
  | tackRoomImageRestore (cmd : Nat)
  | keyAttest (cmd : Nat)
  | keyDestroy (cmd : Nat)
  | custodianEnroll (cmd : Nat)
  | custodianClear (cmd : Nat)
  | curveLoad (cmd : Nat)
  | curveUnload (cmd : Nat)
  | packLoad (cmd : Nat) (take : Take)
  | lifecycleAdvance (cmd : Nat) (burn : Burn)
  | forgeRoots (cmd : Nat) (burn : Burn)
  | gateChallenge (cmd : Nat)
  | gateRespond (cmd : Nat) (take debug : Take)
  | gatePassword (cmd : Nat) (take : Take)
  | gateClose (cmd : Nat)
  | gateSessionExpiry
  | gateChallengeExpiry
  | gateLockoutExpiry
  | gateCellRetry
  | odRead (cmd : Nat)
  | odWrite (cmd : Nat) (burn : Burn)
  | selftest (cmd : Nat) (pass : BitVec 27)
  | wearMeasure (cmd : Nat) (gauges : Vector Gauges 22)
  | wearReport (cmd : Nat)
  | eventlogRead (cmd : Nat)
  | eventlogAck (cmd : Nat)
  | laneFence (cmd : Nat)
  | laneUnfence (cmd : Nat)
  | timeSet (cmd : Nat)
  | alarmAck (cmd : Nat)
  | studbookStatus (cmd : Nat)
  | odCtrlRead (value : BitVec 32) (sender : Sender) (whole : Bool)
  | odCtrlWrite (value : BitVec 32) (sender : Sender) (whole : Bool)
  | dictionaryOperation (port : MPort) (burn : Burn)
  | fzWrite (index sub : BitVec 16) (data : Bytes) (sender : Sender) (burn : Burn)
  | srcRetireBurn (source : Byte) (sender : Sender) (burn : Burn)
  | ltArmSet (value : BitVec 32) (sender : Sender)
  | ltRespSet (value : BitVec 32) (sender : Sender)
  | latchAcquire (latch : Fin 64) (sender : Sender) (whole : Bool)
  | latchFree (latch : Fin 64) (value : BitVec 32) (sender : Sender) (whole : Bool)
  | registerWrite (offset : BitVec 16) (value : BitVec 32) (sender : Sender) (whole : Bool)
  | sbResponse (late err : Bool) (value : BitVec 64)
  | studbookTimeout
  | tamperStatic (input : RingId)
  | tamperMesh (seen : MeshSeen)
  | vbkLow
  | ltClockFault
  | clockFault (island : IslandId) (seen : ClockSeen)
  | supplyWarn (island : IslandId)
  | supplyHoldEnd (island : IslandId)
  | supplyHoldTimeout (island : IslandId)
  | supplyReset (island : IslandId)
  | entropyFail
  | entropyRestartDone (pass : Bool)
  | leanToEventArrival
  | leanToRecord
  | wearScheduledMeasurement (gauges : Vector Gauges 22)
  | clockRatioChange (island : Fin 22)
  | temperatureSample (readings : Vector (Nat × Nat) 22)
  | clkRefWithinRange
  | vbkLoss
  | clkLtInRange
  | tamperInputRearm (input : RingId)
  | meshRearm (seen : MeshRun)
  | vbkLowClear
  | vfzWithinRange (burn : Burn)
  | writeWaitAllowanceExpiry (cmd : Nat)
  | wearMeasurementRerun (island : Fin 22) (gauges : Gauges)
  deriving DecidableEq, Repr

end Sys2Proof
end

