-- ==== Sys2Proof/Config.lean ====
section
/-!
DEFINITION. What an implementation fixes and what the manual leaves open: free values, each an opaque
constant with no body. Cryptographic functions of the external standards the manual names are opaque
too (assumption 3): their bytes are those of the standard, and the model states only how the block uses
them. `Machine/Bits.lean` fits each to the length the manual states.
-/

namespace Sys2Proof.Config

/-- The CTR_DRBG: bytes of draw number `n` of length `len` (R175, R488). -/
opaque drbg : (n len : Nat) → Bytes
/-- AES encryption of one 16-byte block under a key of 16, 24 or 32 bytes (FIPS 197). -/
opaque aesEnc : (key block : Bytes) → Bytes
/-- AES decryption of one block. -/
opaque aesDec : (key block : Bytes) → Bytes
/-- The full 128-bit tag of an authenticated mode or MAC: mode code of R90, key, nonce, AAD, payload. -/
opaque macTag : (mode : Nat) → (key nonce aad payload : Bytes) → Bytes
/-- ChaCha20 keystream block number `n` (RFC 8439). -/
opaque chachaBlock : (key nonce : Bytes) → (n : Nat) → Bytes
/-- GCM-SIV message-encryption key and message-authentication key derivation (RFC 8452). -/
opaque sivEncKey : (key nonce : Bytes) → Bytes
/-- The GHASH, POLYVAL or Poly1305 accumulator of a mode code of R90 after AAD and text (R230). -/
opaque accumulator : (mode : Nat) → (key nonce aad text : Bytes) → Bytes
/-- The check code of a tie-off frame under the state key (R229, R286). -/
opaque frameCheck : (stateKey frame : Bytes) → Bytes
/-- SHA-2 (FIPS 180-4): the initial hash words of an algorithm of R93, and its compression of one block. -/
opaque sha2Init : (alg : Nat) → Bytes
opaque sha2Compress : (alg : Nat) → (state block : Bytes) → Bytes
/-- The permutation Keccak-f[1600] of FIPS 202 over 200 bytes. -/
opaque keccakF : Bytes → Bytes
/-- AES-256-GCM sealing of structures: ciphertext of the same length followed by the tag. -/
opaque gcmSeal : (key nonce aad pt : Bytes) → Bytes
/-- AES-256-GCM opening: the plaintext when the tag verifies. -/
opaque gcmOpen : (key nonce aad ctTag : Bytes) → Option Bytes
/-- AES-256-GCM-SIV sealing and opening of blobs (R176). -/
opaque sivSeal : (key nonce aad pt : Bytes) → Bytes
opaque sivOpen : (key nonce aad ctTag : Bytes) → Option Bytes
/-- SP 800-38F KW and KWP, wrap and unwrap. -/
opaque kwWrap : (padded : Bool) → (key material : Bytes) → Bytes
opaque kwUnwrap : (padded : Bool) → (key wrapped : Bytes) → Option Bytes
/-- ML-KEM by parameter set (FIPS 203): the shared key and then the ciphertext, of a key and the drawn m; and decapsulation from
the seeds d and z, the implicit-rejection key included (R337). -/
opaque mlkemEncaps : (set : Nat) → (ek m : Bytes) → Bytes
opaque mlkemDecaps : (set : Nat) → (seeds c : Bytes) → Bytes
/-- ML-DSA by parameter set (FIPS 204): the signature of a message representative under seed ξ, and the rounds its signing loop
runs, a function of rnd, μ and the key's public values alone (R339, R340). -/
opaque mldsaSign : (set : Nat) → (xi mu rnd : Bytes) → Bytes
opaque mldsaRounds : (set : Nat) → (pk mu rnd : Bytes) → Nat
/-- SLH-DSA signing by variant code (FIPS 205): key, message M′, addrnd. -/
opaque slhSign : (variant : Nat) → (key msg rnd : Bytes) → Bytes
/-- Whether the verification of a lattice or hash-based standard accepts a signature of the right form (R344): opcode, variant,
public key, message, or its representative for ML-DSA, and signature. -/
opaque pkVerify : (op variant : Nat) → (pk msg sig : Bytes) → Bool
/-- The public part of a lattice or hash-based private key, by ALG and SIZE (R333). -/
opaque pkPublic : (alg size : Nat) → (priv : Bytes) → Bytes
/-- One LMS tree of a pair of type codes, SEED and I (RFC 8554, R350): its root; node `r` of it; the `n` lowest nodes of a leaf's path; the one-time signature of a leaf under randomizer `c`; and the root that a leaf's
own one-time public key and a path give (R349). -/
opaque lmsRoot : (types seed ident : Bytes) → Bytes
opaque lmsNode : (types seed ident : Bytes) → (r : Nat) → Bytes
opaque lmsPath : (types seed ident : Bytes) → (leaf n : Nat) → Bytes
opaque otsSign : (types seed ident c msg : Bytes) → (leaf : Nat) → Bytes
opaque lmsRootFrom : (types seed ident path : Bytes) → (leaf : Nat) → Bytes
/-- Correction of a canary reading, of an oscillator reading, and the junction temperature in 0.1 degree that an
oscillator pair gives (R502): the coefficients are not stated. -/
opaque canaryAt105 : (reading : Int) → (tj : Int) → (vdd : Nat) → Int
opaque oscLoAt85 : (reading : Nat) → (tj : Int) → Nat
opaque oscHiAt85 : (reading : Nat) → (tj : Int) → Nat
opaque tjOf : (lo hi : Nat) → Int
/-- Remaining life in 0.1 years where R511's formula has no value: its q_nom is 0, or the temperature is not above 0 K. -/
opaque lifeOutside : (d : Nat) → (m tj : Int) → Nat
/-- The mesh pattern generator (R479): its next state, and the bit it drives. -/
opaque meshNext : BitVec 32 → BitVec 32
opaque meshBit : BitVec 32 → Bool
/-- Fuse cells as they are sensed once REPAIR has put spare ones in the place of some (R519 step 2): REPAIR, the number of a region of
R145, and its cells. -/
opaque repaired : (repair region cells : Nat) → Nat
/-- What an errored or unstated output holds, by a counter (R103 run stage, R468). -/
opaque freeBytes : (n len : Nat) → Bytes
/-- A free natural number, by a counter (values the manual leaves undefined after the machine goes on). -/
opaque freeNat : (n : Nat) → Nat
/-- The Nartia patch level x of 2.1.x (R2). -/
opaque patchLevel : BitVec 8
/-- Zarwick-reserved entries 0xF000 to 0xFFFF (R556): whether an index is one of those defined; its type, access number and last
subindex. -/
opaque reservedIndex : (index : Nat) → Bool
opaque reservedOd : (index : Nat) → Nat × Nat × Nat
/-- The value such an entry reads. -/
opaque reservedOdValue : (index sub : Nat) → Bytes
/-- Bits the yard takes an exponent it has not read to have, by opcode and the bytes it may occupy (R311, R362). -/
opaque unreadExponentBits : (op bytes : Nat) → Nat
/-- The core time it takes an LMS operation to have whose key it has not read (R343, R362). -/
opaque unreadKeyTime : (op variant : Nat) → Nat

end Sys2Proof.Config
end

