-- ==== Sys2Proof/Machine/State.lean ====
section
/-!
DEFINITION. The state of the block as plain data, and `State.reset`. A field's docstring gives its rule;
a field's default is its value in `State.reset`. Numbers a register shows are kept at their width as bit
vectors, or as Nat where software never sees them as a word.
-/

namespace Sys2Proof.Machine

/-! ## Keys -/

/-- A working slot (R161): masked material and mask bank, the record's fields, LRU stamp. -/
structure Slot where
  material : Bytes := zeros 64
  mask : Bytes := zeros 64
  alg : Nat := 0
  size : Nat := 0
  engineMask : Byte := 0
  uses : BitVec 16 := 0
  owner : BitVec 16 := 0
  kflags : BitVec 16 := 0
  useLimit : BitVec 32 := 0
  gen : BitVec 32 := 0
  parent : BitVec 32 := 0
  parentGen : BitVec 32 := 0
  skGen : BitVec 32 := 0
  tenGen : BitVec 32 := 0
  runLen : Nat := 0
  runNext : Nat := 0
  grants : List (BitVec 16) := List.replicate 8 0
  cacheId : Bytes := zeros 8
  lastUse : Nat := 0
  /-- A cached copy unwrapped under a SPLICE_SOURCE grant: it serves as a splice's source key alone (R257). -/
  sourceOnly : Bool := false
  /-- Material length, and that of a key pair's private part, when the key was written: a loaded curve gives them to a key of ALG 0x15
  (R313), and they stay when it is unloaded. -/
  len : Nat := 0
  priv : Nat := 0
  deriving DecidableEq, Repr

/-- A stall-key slot (R163): STATE 0 EMPTY, 1 VALID, 2 BAD. -/
structure StallKey where
  material : Bytes := zeros 32
  fp : Bytes := zeros 8
  keyGen : BitVec 32 := 0
  tenancyGen : BitVec 32 := 0
  state : Nat := 0
  tag : Bytes := zeros 8
  deriving DecidableEq, Repr

/-! ## Jobs -/

/-- A job's status (R99). -/
inductive Status where
  | done | authFailed | signatureInvalid | fixityMismatch
  | opcodeUnknown | variantUnsupported | flagsInvalid | ropeLinkInvalid
  | keyNotFound | keyEngineDenied | keyUseDenied | keyOrphaned | keySlotBad | keysSealed | keyUseLimit
  | lengthMismatch | misaligned | lengthOutOfRange | fragmentTableInvalid
  | inputZero | inputNotReduced | pointNotOnCurve | curveNotLoaded | noProgram | stateExhausted
  | portError | doubleFault | nonceUnavailable | islandReset
  | cancelledRope | abortedQuiesce | abortedManager
  deriving DecidableEq, Repr

/-- A descriptor's fields (R74); `bad` when its read ended in a port error (R542). -/
structure Desc where
  opcode : Byte := 0
  variant : Byte := 0
  flags : BitVec 16 := 0
  tag : BitVec 32 := 0
  src : Addr := 0
  dst : Addr := 0
  srcLen : BitVec 40 := 0
  aadLen : BitVec 24 := 0
  keyRef : Addr := 0
  iv : Bytes := zeros 16
  aux : Addr := 0
  bad : Bool := false
  deriving DecidableEq, Repr

/-- A read being put together: bytes wanted and the pieces that have arrived, by rising offset. -/
structure Buf where
  want : Nat := 0
  parts : List (Nat × Bytes) := []
  err : Bool := false
  deriving DecidableEq, Repr

/-- Where a descriptor's parameter block stands (R252, R274). -/
inductive PBlk where
  | unread | reading (buf : Buf) | got (b : Bytes) | failed
  deriving DecidableEq, Repr

/-- A captured descriptor (R58): its ring index and its parameter block. -/
structure Captured where
  idx : Idx := 0
  desc : Desc := {}
  pblk : PBlk := .unread
  deriving DecidableEq, Repr

/-- One fragment of a chain (R83). -/
structure Frag where
  addr : Addr := 0
  len : Nat := 0
  deriving DecidableEq, Repr

/-- The walk of one fragment chain (R84 to R87). -/
structure Walk where
  /-- The chain is walked to its end or to a breach. -/
  done : Bool := true
  /-- Address of the next entry, and its index in its table. -/
  next : Addr := 0
  index : Nat := 0
  /-- Running sum and the length it must equal (R86). -/
  sum : Nat := 0
  want : Nat := 0
  /-- There is no length to compare with: a KEY_WRAP without a subject. -/
  noSum : Bool := false
  frags : List Frag := []
  /-- A table read is outstanding; its bytes once they have arrived. -/
  reading : Bool := false
  buf : Buf := {}
  /-- The table pieces read, for the second read of R87. -/
  pieces : List (Addr × Bytes) := []
  deriving DecidableEq, Repr

/-- How far a job has come (R20, R28, R100). -/
inductive Stage where
  /-- Dispatched, in preparation or waiting for its engine: not started. -/
  | waiting
  /-- On its engine: started. -/
  | running
  /-- In a tie-off frame (R233), `order` counting hitches for R237. -/
  | hitched (order : Nat)
  /-- In its recovery frame, waiting as a retry (R128). -/
  | retry
  /-- Output issued, waiting for the acknowledgements of its data writes (R27). -/
  | draining
  /-- Status decided; its completion waits for its turn (R109). -/
  | ended
  /-- Completion write issued (R62). -/
  | issued
  deriving DecidableEq, Repr

/-- A key in an engine's key register (R15): its slot, the slot's record at its release, and its material in Boolean
shares, of which it is the exclusive or: two of them in a digest lane, a core and an unwrap unit, three in a cipher lane
(R14, R219, R270). -/
structure KeyCopy where
  /-- Working slot index, or `none` for the stall's own stall key. -/
  slot : Option Nat := none
  alg : Nat := 0
  size : Nat := 0
  kflags : BitVec 16 := 0
  /-- The record of the working slot, or of the stall-key slot, without its material. -/
  attrs : Slot := {}
  sk : StallKey := {}
  shares : List Bytes := []
  deriving DecidableEq, Repr

/-- A tie-off frame (R229, R286). -/
structure Frame where
  job : Nat := 0
  /-- 0 empty, 1 hitch, 2 recovery, 3 digest. -/
  kind : Nat := 0
  variant : Byte := 0
  phase : Nat := 0
  /-- CMP of a digest frame (R286). -/
  cmp : Nat := 0
  srcDone : Nat := 0
  dstDone : Nat := 0
  srcFragPos : Nat := 0
  dstFragPos : Nat := 0
  /-- MODE_STATE of R230, or ABSORBED, PAD_ID and STATE of R286. -/
  modeState : Bytes := []
  check : Bytes := []
  deriving DecidableEq, Repr

/-- The attributes of a new key (R171), with the parent it will have. -/
structure NewKey where
  alg : Nat := 0
  size : Nat := 0
  engineMask : Byte := 0
  uses : BitVec 16 := 0
  useLimit : BitVec 32 := 0
  exportable : Bool := false
  deriving DecidableEq, Repr

/-- A blob read for one key of a job (R178). -/
structure BlobRead where
  addr : Addr := 0
  head : Buf := {}
  rest : Buf := {}
  /-- 0 nothing read, 1 table entry, 2 header, 3 rest outstanding, 4 finished, 5 on an unwrap unit. -/
  phase : Nat := 0
  /-- It names a splice's second key (R252). -/
  second : Bool := false
  /-- The blob address table entry that names it, and that entry's LEN (R159, R177). -/
  bat : Option Nat := none
  batLen : Option Nat := none
  /-- Its read ended in a port error; it fails to unwrap; the working slot of its cached copy. -/
  err : Bool := false
  fails : Bool := false
  slot : Option Nat := none
  /-- GEN of that slot when the copy was found or written (R161). -/
  gen : BitVec 32 := 0
  /-- It failed for want of the SPLICE_SOURCE grant alone (R258). -/
  ungranted : Bool := false
  /-- The unwrap unit its unwrap runs on (R178, R360), and the working slots taken for its cached copy (R197). -/
  unit : Option Nat := none
  room : List Nat := []
  deriving DecidableEq, Repr

/-- A blob under unwrap whose job has gone: its unit finishes it (R360). -/
structure LeftBlob where
  /-- Job-table index, stall and effective class of the job it was asked for. -/
  job : Nat := 0
  stall : Nat := 0
  eff : Nat := 3
  /-- It is a splice's first key, which a grant may let another stall own (R257). -/
  source : Bool := false
  blob : BlobRead := { addr := 0 }
  deriving DecidableEq, Repr

/-- What an engine found for a job. -/
structure RunResult where
  status : Status := .done
  verdict : BitVec 32 := 0
  verdictInv : BitVec 32 := 0
  bytesWritten : Nat := 0
  rounds : BitVec 16 := 0
  deriving DecidableEq, Repr

/-- A job-table entry (R28). -/
structure Job where
  stall : StallId := 0
  ring : RingId := 0
  seq : Idx := 0
  desc : Desc := {}
  /-- Parameter block as read (R252, R274). -/
  pblk : Bytes := []
  /-- Order of dispatch across the block. -/
  ord : Nat := 0
  /-- The rope it is a strand of, by the serial of its first strand. -/
  rope : Option Nat := none
  /-- Effective class 0 to 3 (R355) and whether the entry is one of the 256 reserved (R357). -/
  eff : Nat := 3
  reserved : Bool := false
  stage : Stage := .waiting
  /-- Hardware nonce drawn (R211). -/
  nonce : Bytes := []
  /-- Conditions found in preparation (R101). -/
  found : List Status := []
  keyDone : Bool := true
  attrDone : Bool := true
  attrBlk : Buf := {}
  /-- Material length of a KEY_WRAP's subject, once its decision has found the subject (R86, R174). -/
  subject : Option Nat := none
  newKey : Option NewKey := none
  /-- Working slots kept for the key it will install (R197). -/
  target : List Nat := []
  /-- The key it has installed, by head slot and GEN: it stays only if the job ends with DONE (R104). -/
  installed : Option (Nat × BitVec 32) := none
  restoreDone : Bool := true
  restore : Buf := {}
  /-- The opened state of a restored blob, in two shares (R270), or of a splice's saved tap (R266), and its ABSORBED (R282). -/
  restored : List Bytes := []
  absorbed : Nat := 0
  /-- The states after the key's two pads, in two shares (R270, R277). -/
  padded : List Bytes := []
  /-- The running state of a keyed digest job after the whole blocks of its message so far, in two shares (R270). -/
  running : List Bytes := []
  blobs : List BlobRead := []
  srcWalk : Walk := {}
  dstWalk : Walk := {}
  keys : List KeyCopy := []
  engine : Option Engine := none
  /-- The data port its engine uses, kept for the yard's own zero-fill (R22, R243). -/
  port : Port := .dp0
  started : Bool := false
  wasHitched : Bool := false
  retried : Bool := false
  supplyHold : Bool := false
  byKnot : Bool := false
  /-- SPLICE_SOURCE of its stall when it was admitted (R258, R268). -/
  grant : BitVec 16 := 0
  /-- Has passed step 4a (R24). -/
  passed4a : Bool := false
  /-- Estimated cost charged at the grant (R362). -/
  estCost : Nat := 0
  /-- Estimated cost its dispatch charged to its stall's urgent budget (R364); 0 where it charged none. -/
  charged : Nat := 0
  /-- Source bytes consumed before the last hitch, destination bytes released before it. -/
  seen : Bytes := []
  dstDone : Nat := 0
  src : Buf := {}
  aux : Buf := {}
  exp : Buf := {}
  /-- The second pass over the source (R208, R263): whether it has begun, the payload bytes consumed in it before the last
  hitch, and its reads. -/
  pass2 : Bool := false
  seen2 : Bytes := []
  again : Buf := {}
  /-- A run-stage error found while its engine, or without one the yard, held: it is handled when the hold ends (R13, R243). -/
  errDue : Option Status := none
  /-- The save of its tap state ended in an error response (R268). -/
  portErr : Bool := false
  /-- A tap state whose seal waits for the nonce of a restarting entropy island: the bytes it has taken in, and it (R249, R488). -/
  tapDue : Option (Nat × Bytes) := none
  /-- The tap state a zero-fill began with: the payload bytes it has taken in, and it (R244, R249). -/
  tapState : Option (Nat × Bytes) := none
  /-- The inbound packet broke R453. -/
  chuteErr : Option Status := none
  /-- Chute input taken so far, and whether EOP was taken. -/
  chuteIn : Bytes := []
  chuteEop : Bool := false
  /-- An item of the job's packet has entered its outbound chute (R457). -/
  chuteOut : Bool := false
  /-- Values waited for from a leaf cell (R346), and the value taken. -/
  leafWait : Bool := false
  leafFail : Bool := false
  leaf : Option Nat := none
  /-- In a zero-fill (R224, R244). -/
  zeroFill : Bool := false
  /-- Source bytes it had consumed when its zero-fill began (R229). -/
  fillAt : Nat := 0
  result : RunResult := {}
  /-- The lane whose fault opened its recovery (R131). -/
  faultLane : Option Nat := none
  /-- Its frames while the faulted lane keeps them, until its page is free (R246). -/
  kept : List Frame := []
  /-- Output that waits for room in its outbound chute (R456). -/
  outRest : Bytes := []
  /-- More output of the packet follows what waits. -/
  outMore : Bool := false
  /-- Completion index given at issue (R62). -/
  cqIndex : Idx := 0
  deriving DecidableEq, Repr

/-! ## Stalls and rings -/

/-- A tie-off page (R228), and the job that holds its recovery frame until its end (R235). -/
structure Page where
  hitch : Frame := {}
  recovery : Frame := {}
  holder : Option Nat := none
  deriving DecidableEq, Repr

/-- A submission ring. -/
structure Ring where
  /-- SQn_BASE and SQn_K (R41; reset 0 and 6). -/
  base : Addr := 0
  k : Nat := 6
  /-- SQn_IDX (R44; reset 0). -/
  prod : Idx := 0
  cons : Idx := 0
  /-- SQ_HALT (R47; reset 0). -/
  halted : Bool := false
  /-- The descriptor cache, oldest first, at most 8 (R58; reset empty). -/
  captured : List Captured := []
  /-- Descriptor reads: first index, count, bytes that have arrived, discarded by an invalidation (R60). -/
  fetching : List (Idx × Nat × Buf × Bool) := []
  /-- The open rope: dispatch serial of its first strand, and strands dispatched so far (R81, R125). -/
  rope : Option (Nat × Nat) := none
  /-- A rope cancellation waits for the strands not yet dispatched (R124). -/
  cancel : Bool := false
  /-- The tie-off page (R228; reset zero). -/
  page : Page := {}
  deriving DecidableEq, Repr

/-- The stall states (R29). -/
inductive StallState where
  | free | bound | active | quiescing | quiesced | halted
  deriving DecidableEq, Repr

/-- One stall: its page, its row of the stall table, its counters. -/
structure Stall where
  /-- STALL_STATE (R29; reset FREE). -/
  state : StallState := .free
  /-- STALL_PID (R41; reset none). -/
  pid : Option (BitVec 20) := none
  rings : Tab Ring := { dflt := {} }
  /-- CQ_BASE, CQ_K (R41; reset 0, 8) and CQ_IDX (R45; reset 0). -/
  cqBase : Addr := 0
  cqK : Nat := 8
  cqProd : Idx := 0
  cqCons : Idx := 0
  /-- Next completion index to issue, entries issued and acknowledged beyond `cqProd` (R62). -/
  cqIssue : Idx := 0
  cqAcked : List Idx := []
  cqHalted : Bool := false
  /-- Errored completion writes that wait for their retry (R542): index, entry, and the time of the error. -/
  cqRetry : List (Idx × Bytes × Nat) := []
  /-- HALT_CAUSE (R47; reset 0). -/
  haltCause : BitVec 4 := 0
  held : Nat := 0
  /-- IN_FLIGHT (R47; reset 0). -/
  inFlight : Nat := 0
  /-- Rings an accepted DC_INVALIDATE still has to finish (R60; reset 0). -/
  invMask : BitVec 4 := 0
  /-- INFLIGHT_CAP (R41; reset 64). -/
  cap : Nat := 64
  /-- IRQ_COUNT, IRQ_TIME, IRQ_ADDR, IRQ_DATA, IRQ_CTRL (R41; reset 1, 8, 0, 0, 2). -/
  irqCount : Nat := 1
  irqTime : Nat := 8
  irqAddr : Addr := 0
  irqData : BitVec 32 := 0
  irqCtrl : BitVec 32 := 2
  /-- The pending count and the time its timer started (R70; reset 0, stopped). -/
  irqPending : Nat := 0
  irqSince : Option Nat := none
  /-- RESERVED_SLOTS (R198; reset 8), SPLICE_SOURCE (R259; 0), QOS_WEIGHT (R372; 16), URGENT_SHARE (R372; 25). -/
  reservedSlots : Nat := 8
  spliceSource : BitVec 16 := 0
  qosWeight : Nat := 16
  urgentShare : Nat := 25
  /-- The nonce counter, NONCE_NEXT (R212; reset 0). -/
  nonceCount : Nat := 0
  /-- Urgent budgets of lanes, digest lanes and cores in hundredths of ns (R364; DESIGN CHOICE full at creation), and when last refilled. -/
  tokens : Int × Int × Int := (0, 0, 0)
  tokensAt : Nat := 0
  /-- Has been ACTIVE since its last create or reset, with the completion ring then in force (R31). -/
  wasActive : Option (Addr × Nat) := none
  /-- Statistics (R259, R372, R554, R562; reset 0). -/
  jobsDone : Nat := 0
  jobsFailed : Nat := 0
  demoted : Nat := 0
  tapMismatches : Nat := 0
  irqErrors : Nat := 0
  cqRetries : Nat := 0
  /-- The completion written again whose acknowledgement is still to come (R542). -/
  cqAgain : Option Idx := none
  deriving DecidableEq, Repr

/-! ## Ports -/

/-- The identity sideband of a request (R540). -/
structure Ident where
  pid : BitVec 20 := 0
  stall : BitVec 9 := 0
  priv : Bool := false
  deriving DecidableEq, Repr

/-- Which part of a job, command or channel a request serves. -/
inductive Owner where
  | desc (stall : StallId) (ring : RingId) (first : Idx)
  | pblk (stall : StallId) (ring : RingId) (idx : Idx)
  | table (job : Nat) (dst : Bool)
  | tableAgain (job : Nat) (expect : Bytes)
  | attr (job : Nat)
  | stateBlob (job : Nat)
  | bat (job : Nat) (second : Bool)
  | blobHead (job : Nat) (second : Bool)
  | blobRest (job : Nat) (second : Bool)
  | src (job : Nat)
  | srcAgain (job : Nat)
  | aux (job : Nat)
  | exp (job : Nat)
  | data (job : Nat)
  | zero (job : Nat)
  | tapSave (job : Nat)
  | completion (stall : StallId) (index : Idx)
  | irq (stall : StallId)
  | sheet (cmd : Nat)
  | input (cmd : Nat)
  | image (cmd : Nat)
  | payload (cmd : Nat)
  | header (cmd : Nat)
  | moverDesc (chan : ChanId)
  | moverTable (chan : ChanId)
  | moverData (chan : ChanId)
  | moverStatus (chan : ChanId)
  | discard
  deriving DecidableEq, Repr

/-- A request: a read of `len` bytes, or a write of `data`. `off` is where its bytes lie in what it serves. -/
structure Req where
  write : Bool := false
  addr : Addr := 0
  len : Nat := 0
  data : Bytes := []
  ident : Ident := {}
  owner : Owner := .discard
  off : Nat := 0
  /-- Order class on its port (R368), 0 first, and the engine that takes turns. -/
  prio : Nat := 0
  turn : Nat := 0
  deriving DecidableEq, Repr

/-- A request issued and not yet answered, under its tag, with the bytes received. -/
structure Flight where
  tag : Nat := 0
  req : Req := {}
  got : Bytes := []
  /-- An earlier beat of it carried an error. -/
  bad : Bool := false
  deriving DecidableEq, Repr

/-- A data or ring port: requests that wait, requests outstanding (R536). -/
structure PortSt where
  waiting : List Req := []
  out : List Flight := []
  /-- The engine, or on `rp_` the ring, served last in each order class (R368). -/
  last : Tab Nat := { dflt := 0 }
  deriving DecidableEq, Repr

/-! ## Engines -/

/-- A cipher lane (R135, R136): its fences, the jobs on it, its counters. -/
structure Lane where
  suspect : Bool := false
  fencedFault : Bool := false
  fencedManager : Bool := false
  testing : Bool := false
  jobs : List Nat := []
  /-- Most members of the group it runs: CBC_GROUP_MAX when the group was formed (R239, R245). -/
  groupMax : Nat := 16
  /-- Gives up its jobs as their frames come free (R238). -/
  leaving : Bool := false
  /-- It leaves for a `SELFTEST` (R410). -/
  forTest : Bool := false
  /-- A splice job that has reserved the pair (R361), on the even lane. -/
  reservedBy : Option Nat := none
  /-- The splice retry the pair gives way to (R133, R238), on the even lane. -/
  givesWay : Option Nat := none
  /-- The splice that left and whose tap state is being saved (R249), on the even lane. -/
  tapSaving : Option Nat := none
  /-- LANE_FAULTS, LANE_RESEEDS_LATE, LANE_HITCHES (R135, R245; reset 0). -/
  faults : Nat := 0
  reseedsLate : Nat := 0
  hitches : Nat := 0
  paused : Bool := false
  generator : Bytes := []
  deriving DecidableEq, Repr

/-- An entry of the keyed-digest state cache (R277): slot, GEN, algorithm, states as a share, its mask. -/
structure CacheEnt where
  slot : Nat := 0
  gen : BitVec 32 := 0
  alg : Nat := 0
  share : Bytes := []
  mask : Bytes := []
  deriving DecidableEq, Repr

/-- A digest island (R269, R277, R287, R291). -/
structure DigestIsland where
  inService : Bool := true
  /-- Most recently used first, at most 1,024. -/
  cache : List CacheEnt := []
  /-- Slots whose GEN has risen and whose entries wait to be zeroed (R279). -/
  purge : List Nat := []
  hitchCounter : Nat := 0
  hits : Nat := 0
  misses : Nat := 0
  deriving DecidableEq, Repr

/-- A PK core (R292, R330): state of PK_STATE, its regions, its microcode. -/
structure Core where
  inService : Bool := true
  state : Nat := 0
  regionS : Bytes := []
  regionP : Bytes := []
  regionQ : Bytes := []
  microcode : Bytes := []
  jobs : Nat := 0
  checkFails : Nat := 0
  deriving DecidableEq, Repr

/-- The loaded program pack (R298, R305, R330). -/
structure Pack where
  ready : Bool := false
  version : Nat := 0
  ops : BitVec 32 := 0
  microcode : Bytes := []
  /-- PK dispatch withheld (R300 step 2, R387). -/
  withheld : Bool := false
  deriving DecidableEq, Repr

/-- A curve slot (R324, R327, R330): 0 empty, 1 loaded, 2 unloading. -/
structure Curve where
  state : Nat := 0
  record : Bytes := []
  fp : Bytes := zeros 32
  deriving DecidableEq, Repr

/-! ## Tack room -/

/-- A system slot (R160): content (empty when absent), its TAG, BAD. -/
structure SysSlot where
  content : Bytes := []
  tag : Bytes := []
  bad : Bool := false
  deriving DecidableEq, Repr

/-- The open batch of a leaf cell (R346, R354): value last read, NEXT, END. -/
structure LeafCell where
  value : Nat := 0
  known : Bool := false
  next : Nat := 0
  stop : Nat := 0
  skipped : Nat := 0
  /-- Dispatch serials of the sign jobs at their leaf step, in the order they reached it (R346). -/
  queue : List Nat := []
  /-- LEAVES_LOW raised for keys named by their ROOT (R348). -/
  lowRaised : List Bytes := []
  deriving DecidableEq, Repr

/-- The tack room. -/
structure Tack where
  slots : Tab Slot := { dflt := {} }
  stallKeys : Tab StallKey := { dflt := {} }
  /-- Slots 0 barn, 1 image, 2 state, 3 identity, 4 transport, 5 to 8 custodian fingerprints (R160). -/
  sys : Tab SysSlot := { dflt := {} }
  /-- BAT_BASE, BAT_K (R198; reset 0, 10). -/
  batBase : Addr := 0
  batK : Nat := 10
  /-- GROOM_PERIOD in ms (R198, R510; reset 1,000) and the one that starts with the next sweep; the next slot to groom (R188). -/
  groomPeriod : Nat := 1000
  groomNext : Nat := 1000
  groomPos : Nat := 0
  /-- REPLAY (R187; reset 0) and UPDATE_COUNTER (R198; reset 0), known once read. -/
  replay : Bool := false
  updateCounter : Nat := 0
  counterKnown : Bool := false
  cells : Tab LeafCell := { dflt := {} }
  /-- LRU clock. -/
  clock : Nat := 0
  /-- Installed keys, by head slot and GEN, whose job has ended without DONE in a supply hold: they are zeroed when it ends (R104, R485). -/
  dropsDue : List (Nat × BitVec 32) := []
  deriving DecidableEq, Repr

/-! ## Yardmaster -/

/-- A received command (R390). -/
structure Cmd where
  pair : MboxId := 0
  tag : BitVec 32 := 0
  sender : Sender := { rid := 0, priv := false, port := .a }
  sheetAddr : Addr := 0
  /-- Microseconds at the posting (R391 ELAPSED). -/
  since : Nat := 0
  sheet : Buf := {}
  /-- 0 first 64 bytes outstanding, 1 rest outstanding, 2 sheet read, 3 running, 4 payload write outstanding,
  5 header write outstanding, 6 ended, its notice waiting for an earlier one of its pair (R386). -/
  phase : Nat := 0
  /-- The number its waiting dictionary operation took when it arrived (R423). -/
  turn : Option Nat := none
  /-- The command's own step within phase 3. -/
  step : Nat := 0
  /-- Bytes read from memory for the command (a message, an image, a record, a pack). -/
  input : Buf := {}
  /-- Since when it waits through a supply hold (R398). -/
  waitSince : Option Nat := none
  /-- Its studbook operation: 0 none, 1 waiting, 2 answered, 3 failed; the value. -/
  sb : Nat := 0
  sbVal : Nat := 0
  result : Nat := 0
  detail : Nat := 0
  payload : Bytes := []
  rlen : Nat := 0
  /-- Small scratch the command carries between its steps. -/
  note : Nat := 0
  keep : Bytes := []
  /-- The pair was reset after receipt: no notice (R388). -/
  silent : Bool := false
  /-- Ended by a reset of the yardmaster island (R386). -/
  aborted : Bool := false
  deriving DecidableEq, Repr

/-- A mailbox pair (R376 to R378). `OUT_CTRL.IRQ_EN` resets to 1. -/
structure Mbox where
  inPtr : Addr := 0
  inTag : BitVec 32 := 0
  inSince : Nat := 0
  reqId : BitVec 16 := 0
  inPort : MPort := .a
  inPriv : Bool := false
  dropped : Bool := false
  inFull : Bool := false
  outPtr : Addr := 0
  outTag : BitVec 32 := 0
  wakeEn : Bool := false
  irqEn : Bool := true
  note : Nat := 0
  stale : Bool := false
  outFull : Bool := false
  /-- When the outbound notice was posted (R384), the queued notices: command, address, tag, kind. -/
  outSince : Nat := 0
  queue : List (Nat × Addr × BitVec 32 × Nat) := []
  /-- MBOX_BIND (R381; reset 0). -/
  bind : BitVec 32 := 0
  deriving DecidableEq, Repr

/-- An access window (R418 to R421). -/
structure Window where
  select : BitVec 32 := 0
  data : Bytes := zeros 64
  len : BitVec 8 := 0
  status : BitVec 8 := 0
  info : BitVec 32 := 0
  busy : Bool := false
  isWrite : Bool := false
  sender : Sender := { rid := 0, priv := false, port := .a }
  /-- A fuse burn of the operation has begun, at this time (R549). -/
  burnSince : Option Nat := none
  /-- The number its operation took when it arrived (R423). -/
  turn : Nat := 0
  deriving DecidableEq, Repr

/-- The gate (R432 to R441). -/
structure Gate where
  /-- Holder, SCOPE, end time in µs. -/
  session : Option (Sender × BitVec 32 × Nat) := none
  /-- The result of the command that opened the session is not written yet: its end time is not set (R434). -/
  undated : Bool := false
  /-- Challenge and when it was drawn; spent or absent when `none`; challenges that a later one has replaced (R442). -/
  challenge : Option (Bytes × Nat) := none
  replaced : List Bytes := []
  fails : Nat := 0
  cell : Nat := 0
  /-- Cell 2 has been read since `ready` (R440). -/
  known : Bool := false
  lockoutEnd : Option Nat := none
  /-- The read of cell 2 failed and is tried again at the lockout's end. -/
  retry : Bool := false
  /-- An ADVANCE of cell 2 was given up: it is read before its next use (R545). -/
  reread : Bool := false
  /-- The session holds the test port open (R432, R489). -/
  port : Bool := false
  deriving DecidableEq, Repr

/-- The yardmaster island. -/
structure Ym where
  cmds : List (Nat × Cmd) := []
  /-- Commands whose result could not be written and whose notice is still queued (R386, R393). -/
  unwritten : List (Nat × Cmd) := []
  nextCmd : Nat := 0
  pairs : Tab Mbox := { dflt := {} }
  /-- Dictionary operations that have arrived on the windows and as items of commands (R423). -/
  odNext : Nat := 0
  /-- Changes of the tack room that a restart of Nartia completes once no island holds (R387, R485). -/
  changesDue : List Cmd := []
  winA : Window := {}
  winB : Window := {}
  /-- Latch owners (R426; reset free). -/
  latches : Tab (Option Sender) := { dflt := none }
  gate : Gate := {}
  gated : Bool := false
  /-- YM_IDLE, SLEEP_DELAY (R559, R372; reset 1,000 and 100). -/
  idleTime : Nat := 1000
  sleepDelay : Nat := 100
  /-- IRQ_MGR_MASK (R554; reset 0x1F). -/
  irqMgrMask : BitVec 32 := 0x1F
  /-- CBC_GROUP_MAX (R245; reset 16). -/
  cbcGroupMax : Nat := 16
  /-- Written elements of RESPONSE_MAP (R500; per R492) and SUPPLY_LEVELS (reset 0x0B06). -/
  responseMap : Tab (Option Nat) := { dflt := none }
  supplyLevels : Tab (BitVec 16) := { dflt := 0x0B06 }
  /-- HOLD_LIMIT in µs (R500; reset 1,000). -/
  holdLimit : Nat := 1000
  /-- Read-back of LT_ARM_SET and LT_RESP_SET (R500; reset 0, 0x8000). -/
  ltArmSet : BitVec 32 := 0
  ltRespSet : BitVec 32 := 0x8000
  /-- The last number written to SRC_RETIRE_BURN (R416, R500; reset 0). -/
  retireSet : Nat := 0
  /-- Values written to entries 0xF000 to 0xFFFF, by index × 65,536 + subindex (R416). -/
  zarwick : Tab (Option Nat) := { dflt := none }
  /-- Last answers on the management ports (R539). -/
  rdataA : BitVec 32 := 0
  rdataB : BitVec 32 := 0
  deriving DecidableEq, Repr

/-- Who waits for the studbook's answer (R545). -/
inductive SbUser where
  | boot | afterReady (cell : Nat) | gateRead | cmd (id : Nat) | leaf (cell : Nat)
  deriving DecidableEq, Repr

/-- One studbook operation (R543). -/
structure SbOp where
  user : SbUser
  op : Nat := 0
  cell : Nat := 0
  arg : Nat := 0
  /-- When it was asked for, in µs: its allowance of 50 ms runs from there (R398). -/
  since : Nat := 0
  deriving DecidableEq, Repr

/-! ## Chutes, movers, timers -/

/-- A stream item (R444). -/
structure Item where
  data : Bytes := zeros 32
  ctl : BitVec 16 := 0
  deriving DecidableEq, Repr

/-- A chute (R443 to R460, R471). -/
structure Chute where
  /-- CHUTE_MODE, CHUTE_IDLE, CHUTE_BIND (R471; reset 7, 0, 0). -/
  mode : BitVec 32 := 7
  idle : Bytes := zeros 32
  bind : BitVec 16 := 0
  /-- Items in the two banks, oldest first. -/
  items : List Item := []
  /-- Items the reader has taken from the bank it drains, whose places are free once it has emptied it (R443). -/
  drained : Nat := 0
  /-- The put-back register: the bytes each hitched job has given back (R454). -/
  putBack : List (Nat × Bytes) := []
  /-- Packets at the front that were released when `CHUTE_MODE` was last written, and are not yet wholly taken (R449). -/
  released : Nat := 0
  /-- Abort markers of jobs that failed after their packet's `EOP`, which wait for another job's packet to end (R457). -/
  abortsDue : Nat := 0
  /-- The reader has taken the first item of a packet and not its last (R445). -/
  inPacket : Bool := false
  /-- The job or channel discards items up to the next SOP (R453). -/
  skipping : Bool := false
  holder : Option Nat := none
  mover : Option (Fin 16) := none
  draining : Bool := false
  /-- Items up to and including a pending flush point (R459). -/
  flush : Option Nat := none
  errors : Nat := 0
  /-- Gathering a packet for a staged job (R226). -/
  landing : Bytes := []
  /-- The job whose packet the landing buffer holds (R226). -/
  landingOf : Option Nat := none
  last : Item := {}
  deriving DecidableEq, Repr

/-- A mover descriptor's fields (R462). -/
structure MDesc where
  mop : Byte := 0
  mflags : Byte := 0
  ways : Byte := 0
  grain : Nat := 0
  src : Addr := 0
  dst : Addr := 0
  len : Nat := 0
  next : Addr := 0
  own : Byte := 0
  /-- A reserved bit or byte is not zero. -/
  resv : Bool := false
  deriving DecidableEq, Repr

/-- A mover channel (R461 to R471). -/
structure Mover where
  /-- MOVER_GRANT, MOVER_CTRL, MOVER_HEAD (R471; reset 0). -/
  grant : BitVec 16 := 0
  ctrl : BitVec 32 := 0
  head : Addr := 0
  /-- MOVER_STATE 0 DISABLED, 1 IDLE, 2 RUNNING, 3 HALTED; MOVER_POS, DONE, MISSED. -/
  state : Nat := 0
  pos : Addr := 0
  doneCount : Nat := 0
  missed : Nat := 0
  ident : Ident := {}
  pendingTrig : Bool := false
  /-- Enabled but waiting for its outstanding transactions to return (R468). -/
  waitEnable : Bool := false
  /-- Within a descriptor: 0 at a position, 1 descriptor read, 2 table read, 3 moving, 4 to be ended, 5 status write. -/
  step : Nat := 0
  buf : Buf := {}
  desc : MDesc := {}
  table : List Addr := []
  /-- The move's reads have been issued; its source data. -/
  issued : Bool := false
  data : Buf := {}
  /-- Packet taken from a chute so far, whether its EOP was taken, and how it broke R453. -/
  taken : Bytes := []
  eop : Bool := false
  chuteErr : Option Status := none
  /-- Packet bytes that wait for room in the outbound chute, and whether an item of it was written. -/
  outRest : Bytes := []
  begun : Bool := false
  mstatus : Status := .done
  moved : Nat := 0
  /-- Some descriptor of this walk ran. -/
  ran : Bool := false
  deriving DecidableEq, Repr

/-! ## Lean-to and boot -/

/-- A raised event before the lean-to has recorded it (R494). -/
structure Event where
  code : Nat
  source : Nat := 0xFF
  detail : Bytes := []
  /-- The response it carries (R490), 0 LOG to 3 PURGE. -/
  resp : Nat := 0
  /-- It fired while `vdd` was absent (R495). -/
  backup : Bool := false
  deriving DecidableEq, Repr

/-- A record of the event store (R496). -/
structure EvRecord where
  seq : Nat
  tick : Nat
  code : Nat
  source : Nat
  rflags : BitVec 8
  suppressed : Nat
  detail : Bytes
  deriving DecidableEq, Repr

/-- A mesh pair (R479): seeded, its pattern generator, the bits it has driven, the latest lowest. -/
structure Mesh where
  seeded : Bool := false
  gen : BitVec 32 := 0
  drove : BitVec 34 := 0
  deriving DecidableEq, Repr

/-- The lean-to (R473). Its reset values are those after `lt_por_n` (R480, R493). -/
structure LeanTo where
  tick : Nat := 0
  /-- LT_ARM, LT_RESP: sources 0 to 6 disarmed with LOG, source 7 armed with SEAL. -/
  arm : BitVec 32 := 0x800
  resp : BitVec 32 := 0x8000
  /-- What LT_RESP_SET has written and the end of the tick applies (R480, R501). -/
  respDue : Option (BitVec 32) := none
  /-- Sources 0 to 6 that have fired and not re-armed. -/
  fired : BitVec 8 := 0
  mesh : Tab Mesh := { dflt := {} }
  store : List EvRecord := []
  nextSeq : Nat := 0
  /-- Per code: records stored in the current second, and suppressed since its last record (R497). -/
  second : Nat := 0
  counts : Tab (Nat × Nat) := { dflt := (0, 0) }
  holdMark : Option Nat := none
  sealMark : Option Nat := none
  ackUpto : Option Nat := none
  alarmUpto : Option Nat := none
  lost : Nat := 0
  latchKey : Option Bytes := none
  wallTime : Option (Nat × Nat) := none
  /-- `lt_por_n` asserted since the last boot (R495). -/
  restarted : Bool := true
  resetCount : Nat := 0
  lastReset : BitVec 16 := 0
  /-- The monitor-event FIFO (R12), and the events of the running tick whose responses already apply. -/
  fifo : List Event := []
  tickEvents : List Event := []
  /-- `clk_lt` is out of range; VBK_LOW stands; on backup. -/
  clockBad : Bool := false
  vbkLow : Bool := false
  deriving DecidableEq, Repr

/-- A field of the fuse array that a command burns (R145, R503, R561). -/
inductive FuseField where
  | lcGroup (g : Fin 4) | roots | gateKeyHash | gatePwHash | packKeyHash | serial | srcRetire | tether
  | wearBase (i : Fin 22) | wearCheck
  deriving DecidableEq, Repr

/-- The sensed fuses (R145, R522). A field that reads unburnt is `none`. -/
structure Sensed where
  lc : BitVec 4 := 0
  roots : List (Option Bytes) := [none, none, none, none]
  gateKeyHash : Option Bytes := none
  gatePwHash : Option Bytes := none
  packKeyHash : Option Bytes := none
  serial : Option Bytes := none
  srcRetire : BitVec 128 := 0
  tether : Bool := false
  wearBase : List Bytes := List.replicate 22 (zeros 12)
  wearCheck : Bytes := zeros 24
  /-- The baselines passed their check code at start-up (R505, R561). -/
  wearUsable : Bool := false
  damage : BitVec 15 := 0
  /-- Fields written since the array was sensed, the write that failed included (R148, R561). -/
  spent : List FuseField := []
  deriving DecidableEq, Repr

/-- The controller states of IEEE 1149.1 (R550). -/
inductive TapState where
  | testLogicReset | runTestIdle | selectDr | captureDr | shiftDr | exit1Dr | pauseDr | exit2Dr | updateDr
  | selectIr | captureIr | shiftIr | exit1Ir | pauseIr | exit2Ir | updateIr
  deriving DecidableEq, Repr

/-- Start-up and reset state. -/
structure Boot where
  /-- BOOT_STATUS (R529; reset STEP 1) and its parts. -/
  step : Nat := 1
  cause : Nat := 0
  stopped : Bool := false
  entropyStopped : Bool := false
  /-- It stopped under R523, at step 3 or 6. -/
  entropyLost : Bool := false
  noEpoch : Bool := false
  noBarnKey : Bool := false
  engineLost : Bool := false
  /-- `ready` (R519; reset 0). -/
  ready : Bool := false
  /-- A barn key has been derived and step 8 taken (R528). -/
  sealClear : Bool := false
  /-- Observations held while start-up waits at step 1. -/
  obs : Option StartObs := none
  /-- A warm reset of R152 is due. -/
  warmDue : Bool := false
  bootTime : Nat := 0
  readyAt : Nat := 0
  /-- NONCE_EPOCH, NONCE_STATE (R245; reset 0). -/
  epoch : Nat := 0
  nonceState : Nat := 0
  entropyRestarts : Nat := 0
  entropyPaused : Bool := false
  /-- `rst_n` is asserted no more, `vdd` present, `vbk` present, `vfz` in range, `clk_ref` in range, `scan_mode`. -/
  vdd : Bool := true
  vbk : Bool := true
  vfz : Bool := false
  clkRef : Bool := true
  /-- `vdd` at every island was above its warning level when start-up last looked at step 1 (R519). -/
  vddOk : Bool := true
  scan : Bool := false
  /-- The test port was used since the last reset (R551). -/
  scanUsed : Bool := false
  /-- The test access port: its state, its instruction, what that shifts out (R550). -/
  tapState : TapState := .testLogicReset
  tapIr : TapIr := .idcode
  tapOut : BitVec 32 := 0
  asleep : Bool := false
  /-- A rise of `wake_in` waits for the end of a supply hold of the yard (R373). -/
  wakeDue : Bool := false
  /-- The studbook's answer of step 9, or its absence, waits for the end of a supply hold (R531). -/
  epochDue : Option (Option Nat) := none
  /-- The lean-to is cut off because `vdd` is absent (R474). -/
  backup : Bool := false
  /-- A burn whose command a yardmaster reset ended and which still runs (R387). -/
  burnLeft : Option (FuseField × Bytes) := none
  deriving DecidableEq, Repr

/-- Ageing (R513) of one island. -/
structure Wear where
  margin : Int := 0
  life : Nat := 0xFFFF
  degradation : Nat := 0
  /-- 24-hour average, and the samples behind it with their times in µs, newest first, in 0.1 degree. -/
  tjAvg : Int := 850
  hist : List (Nat × Int) := []
  /-- A measurement was abandoned in a hold, and when it runs again (R514). -/
  rerun : Bool := false
  rerunAt : Option Nat := none
  /-- Its scheduled measurement runs until then (R504, R514). -/
  runsTill : Nat := 0
  lifeLowRaised : Bool := false
  deriving DecidableEq, Repr

/-- The block, all but the fuse cells, the clock generators and the command queue. -/
@[ext] structure Block where
  boot : Boot := {}
  sensed : Sensed := {}
  lt : LeanTo := {}
  /-- Studbook operation outstanding and those that wait (R545). -/
  sb : Option SbOp := none
  sbQueue : List SbOp := []
  /-- Operations given up whose response is to be discarded. -/
  sbDrop : Nat := 0
  stalls : Tab Stall := { dflt := {} }
  /-- The job table (R64; reset empty), dispatch serial and hitch serial. -/
  jobs : Tab (Option Job) := { dflt := none }
  serial : Nat := 0
  hitchSerial : Nat := 0
  /-- Stall served last at dispatch per effective class (R358); deficits and positions of R363. -/
  rrDispatch : Tab Nat := { dflt := 511 }
  deficit : Tab Int := { dflt := 0 }
  rrEngine : Tab Nat := { dflt := 0 }
  lanes : Tab Lane := { dflt := {} }
  digestJobs : Tab (Option Nat) := { dflt := none }
  digestHitches : Tab Nat := { dflt := 0 }
  islands : Tab DigestIsland := { dflt := {} }
  cores : Tab Core := { dflt := {} }
  coreJobs : Tab (Option Nat) := { dflt := none }
  unwrapJobs : Tab (Option Nat) := { dflt := none }
  /-- Blobs on the two unwrap units whose jobs have gone (R360). -/
  unwrapLeft : Tab (Option LeftBlob) := { dflt := none }
  randomJob : Option Nat := none
  unwrapFenced : Bool := false
  /-- The entropy island's engine of RANDOM, and the splice bridges, are out of service for a SELFTEST or since one failed (R410). -/
  entropyFenced : Bool := false
  bridgesFenced : Bool := false
  pack : Pack := {}
  /-- PACK_FLOOR (R330; reset 0). -/
  floor : Nat := 0
  curves : Tab Curve := { dflt := {} }
  tack : Tack := {}
  ym : Ym := {}
  chutes : Tab Chute := { dflt := {} }
  movers : Tab Mover := { dflt := {} }
  /-- TIMER_PERIOD in µs (R471; reset 1,000,000) and the tick due next. -/
  timers : Tab (Nat × Nat) := { dflt := (1000000, 0) }
  dp0 : PortSt := {}
  dp1 : PortSt := {}
  rp : PortSt := {}
  /-- After a warm reset no request is issued until every outstanding response has returned (R548). -/
  portDrain : Bool := false
  /-- Islands in a supply hold, with the time each began (R485; reset none). -/
  holds : Tab (Option Nat) := { dflt := none }
  wear : Tab Wear := { dflt := {} }
  rerates : Nat := 0
  /-- When the next scheduled measurement is due, in µs (R504, R513). -/
  wearDue : Nat := 86400000000
  /-- When the oscillators are next read for temperature, in µs (R504). -/
  tempDue : Nat := 60000000
  /-- Accepted requests that wait in the `db_` port island while the yard or the port islands hold (R13, R73). -/
  dbFifo : List Instr := []
  /-- Acknowledgements of completion writes, tag and error, that wait in the `rp_` port island's FIFO while the yard holds (R13). -/
  rpFifo : List (Nat × Bool) := []
  /-- Credits the integrator holds on `db_`, and the data of the last response there (R539; reset 8, 0). -/
  dbCredits : Nat := 8
  dbRdata : BitVec 32 := 0
  /-- Credits the integrator holds on `mpa_` and `mpb_` (R539; reset 4), and the requests that wait for their port islands while those
  hold. -/
  mpaCredits : Nat := 4
  mpbCredits : Nat := 4
  mpFifo : List Instr := []
  /-- Draws taken from the DRBG, free values taken: the model's own counters (assumption 5). -/
  draws : Nat := 0
  free : Nat := 0
  /-- The yard time base in µs (assumption 2). -/
  now : Nat := 0
  deriving DecidableEq, Repr

/-- Copies of one fuse field: for two-copy fields the two values, bit by bit as burnt. -/
structure FuseArray where
  /-- LC_GROUPS (R145): four groups of eight copies, MAKER lowest. -/
  lcGroups : BitVec 32 := 0
  /-- ROOTS: maker, field, retire, identity, each in two copies of 256 bits, root r copy c at bit 256 × (2 r + c). -/
  roots : BitVec 2048 := 0
  gateKeyHash : BitVec 512 := 0
  gatePwHash : BitVec 512 := 0
  packKeyHash : BitVec 512 := 0
  serial : BitVec 256 := 0
  srcRetire : BitVec 256 := 0
  tether : BitVec 8 := 0
  wearBase : BitVec 2304 := 0
  /-- REPAIR (R145). -/
  repair : BitVec 1752 := 0
  deriving DecidableEq, Repr

/-- The islands' clock generators: ratio in percent now, the ratio a re-rating has decided (R506, R508), and the ratio whose expected count
and limits the island's clock monitors hold (R481, R508). -/
structure Clocks where
  ratio : Tab Nat := { dflt := 100 }
  target : Tab Nat := { dflt := 100 }
  watched : Tab Nat := { dflt := 100 }
  deriving DecidableEq, Repr

/-- The machine: fuse cells, clock generators, the block, and the commands that wait, oldest first. -/
structure State where
  fuse : FuseArray := {}
  clk : Clocks := {}
  blk : Block := {}
  pending : List Instr := []
  deriving DecidableEq, Repr

/-- The faults of the block: there are none. Errors end jobs, commands and operations with codes (INVENTORY, Faults). -/
inductive Fault where
  deriving DecidableEq, Repr

/-- Refusals. -/
inductive Refusal where
  /-- Raised by `exec` for a row of the table that has no meaning in the model. Safe. -/
  | notModelled (mnemonic : String)
  deriving DecidableEq, Repr

/-- The block while `rst_n` is released, `vdd` and `vbk` are present and start-up has not yet begun
(R516 to R519, R529): every register at its reset value, nothing burnt, the lean-to as after `lt_por_n`. -/
def State.reset : State := {}

end Sys2Proof.Machine
end

