-- ==== Sys2Proof/Machine/Bits.lean ====
section
/-!
DEFINITION. Byte strings: little- and big-endian numbers (R7), slices, and the free values of `Config`
fitted to the lengths the manual states.
-/

namespace Sys2Proof.Machine

/-- A little-endian number (R7). -/
def leNat : Bytes → Nat
  | [] => 0
  | x :: l => x.toNat + 256 * leNat l

/-- A big-endian number. -/
def beNat (l : Bytes) : Nat := leNat l.reverse

/-- `n` as `k` little-endian bytes. -/
def toLe : (k n : Nat) → Bytes
  | 0, _ => []
  | k + 1, n => BitVec.ofNat 8 n :: toLe k (n / 256)

/-- `n` as `k` big-endian bytes. -/
def toBe (k n : Nat) : Bytes := (toLe k n).reverse

/-- `len` bytes from `off`. -/
def slice (l : Bytes) (off len : Nat) : Bytes := (l.drop off).take len

/-- The little-endian number in `len` bytes from `off`. -/
def field (l : Bytes) (off len : Nat) : Nat := leNat (slice l off len)

/-- `l` cut or zero-filled to `n` bytes. -/
def fit (n : Nat) (l : Bytes) : Bytes := (l ++ zeros n).take n

/-- Bytewise exclusive or. -/
def xorBytes (a b : Bytes) : Bytes := List.zipWith (· ^^^ ·) a b

/-- The exclusive or of Boolean shares. -/
def unshare : List Bytes → Bytes
  | [] => []
  | x :: l => l.foldl xorBytes x

/-- The material of a key in an engine (R14). -/
def KeyCopy.material (k : KeyCopy) : Bytes := unshare k.shares

/-- Whether every byte is zero. -/
def allZero (l : Bytes) : Bool := l.all (· == 0)

/-- `n` rounded up to a multiple of `m`. -/
def roundUp (n m : Nat) : Nat := (n + m - 1) / m * m

/-- `n` divided by `m`, rounded up. -/
def ceilDiv (n m : Nat) : Nat := (n + m - 1) / m

/-- Whether an address is a multiple of `m`. -/
def alignedTo (a : Addr) (m : Nat) : Bool := a.toNat % m == 0

/-- Whether a piece list ordered by offset covers `want` bytes. -/
def Buf.full (b : Buf) : Bool := decide (b.want ≤ (b.parts.map fun p => p.2.length).sum)

/-- The bytes of a buffer. -/
def Buf.bytes (b : Buf) : Bytes := (b.parts.flatMap Prod.snd).take b.want

/-- A piece placed in offset order. -/
def putPiece (off : Nat) (d : Bytes) : List (Nat × Bytes) → List (Nat × Bytes)
  | [] => [(off, d)]
  | p :: l => if off ≤ p.1 then (off, d) :: p :: l else p :: putPiece off d l

/-- A buffer with a piece that has arrived. -/
def Buf.put (b : Buf) (off : Nat) (d : Bytes) : Buf := { b with parts := putPiece off d b.parts }

/-- Bytes of the next DRBG draw (R175). -/
def drbgNow (b : Block) (len : Nat) : Bytes := fit len (Config.drbg b.draws len)

/-- The block after one DRBG draw. -/
def drew (b : Block) : Block := { b with draws := b.draws + 1 }

/-- A value in two Boolean shares under a fresh mask, as the private key bus carries it (R14). -/
def share2 (b : Block) (x : Bytes) : List Bytes := let m := drbgNow b x.length; [xorBytes x m, m]

/-- A free byte string (R103), and the block after it. -/
def freeNow (b : Block) (len : Nat) : Bytes := fit len (Config.freeBytes b.free len)
def freed (b : Block) : Block := { b with free := b.free + 1 }

/-- Two shares turned into three by a lane, with fresh bits of its generator (R219, R220), whose values are free. -/
def share3 (b : Block) (l : List Bytes) : List Bytes :=
  match l with
  | [x, m] => let g := freeNow b x.length; [xorBytes x g, m, g]
  | l => l

/-- ASCII bytes of a string (R154). -/
def ascii (s : String) : Bytes := s.toList.map fun c => BitVec.ofNat 8 c.toNat

end Sys2Proof.Machine
end

