-- ==== Sys2Proof/Machine/Hash.lean ====
section
/-!
DEFINITION. Hashing as the digest lanes and the tack room do it (08, R172, R189): block by block over a running state. The
compression functions of SHA-2 and the Keccak permutation are the standards' own (`Config`, assumption 3); padding, prefixes,
HMAC and KMAC are built from them as FIPS 180-4, FIPS 198-1, FIPS 202 and SP 800-185 state.
-/

namespace Sys2Proof.Machine

/-! ## Algorithms (R93) -/

/-- Digest length. -/
def digestLen (a : Nat) : Nat :=
  if a == 1 || a == 0x11 then 28 else if a == 2 || a == 5 || a == 0x12 then 32 else if a == 3 || a == 0x13 then 48 else 64
/-- The algorithm's block; of a SHA-3 hash its rate (R271, R280). -/
def digestBlock (a : Nat) : Nat :=
  if a == 1 || a == 2 then 64 else if a ≤ 5 then 128 else if a == 0x11 then 144 else if a == 0x12 then 136
  else if a == 0x13 then 104 else if a == 0x14 then 72 else if a == 0x21 || a == 0x23 || a == 0x31 then 168 else 136
/-- SHA-2, whose state is its hash words; the others hold the 200-byte Keccak state (R282). -/
def isSha2 (a : Nat) : Bool := a ≤ 5
def stateLen (a : Nat) : Nat := if a == 1 || a == 2 then 32 else if isSha2 a then 64 else 200

/-! ## The running state -/

/-- `l` cut into `n`-byte blocks, the last one shorter. -/
def chunksGo (n : Nat) : Nat → Bytes → List Bytes
  | 0, _ => []
  | f + 1, l => if l.length ≤ n then (if l == [] then [] else [l]) else l.take n :: chunksGo n f (l.drop n)
def chunks (n : Nat) (l : Bytes) : List Bytes := chunksGo n (l.length / n + 1) l

/-- The Keccak permutation over 200 bytes. -/
def keccak (st : Bytes) : Bytes := fit 200 (Config.keccakF st)
/-- Initial state: the hash words of the standard, or zero. -/
def hashInit (a : Nat) : Bytes := if isSha2 a then fit (stateLen a) (Config.sha2Init a) else zeros 200
/-- Take in one whole block. -/
def absorbBlock (a : Nat) (st x : Bytes) : Bytes :=
  if isSha2 a then fit (stateLen a) (Config.sha2Compress a st x) else keccak (xorBytes st (fit 200 x))
/-- Take in whole blocks. -/
def absorb (a : Nat) (st msg : Bytes) : Bytes := (chunks (digestBlock a) msg).foldl (absorbBlock a) st
/-- The bytes of a message that fill whole blocks, and those that do not. -/
def wholePart (a : Nat) (msg : Bytes) : Bytes := msg.take (msg.length / digestBlock a * digestBlock a)
def tailPart (a : Nat) (msg : Bytes) : Bytes := msg.drop (msg.length / digestBlock a * digestBlock a)

/-! ## Finalisation (R284) -/

/-- Domain bits and first padding bit of a sponge. -/
def spongeSuffix (a : Nat) : Byte := if a ≤ 0x14 then 0x06 else if a ≤ 0x22 then 0x1F else 0x04
/-- The last block of a sponge. -/
def spongeLast (a : Nat) (suffix : Byte) (tail : Bytes) : Bytes :=
  let x := fit (digestBlock a) (tail ++ [suffix])
  x.take (digestBlock a - 1) ++ [x.getD (digestBlock a - 1) 0 ||| 0x80]
/-- The state before output block `k`, and `n` bytes of output. -/
def squeezeState : Nat → Bytes → Bytes
  | 0, st => st
  | k + 1, st => keccak (squeezeState k st)
def squeezeGo (r : Nat) : Nat → Bytes → Bytes
  | 0, _ => []
  | k + 1, st => st.take r ++ squeezeGo r k (keccak st)
def squeeze (r n : Nat) (st : Bytes) : Bytes := fit n (squeezeGo r (n / r + 1) st)

/-- The bits of SHA-2's length field, and its bytes: 8 × bytes modulo 2^64 or 2^128. -/
def sha2Pad (a : Nat) (total : Nat) (tail : Bytes) : Bytes :=
  let k := if digestBlock a == 64 then 8 else 16
  let body := tail ++ [0x80]
  body ++ zeros (roundUp (body.length + k) (digestBlock a) - k - body.length) ++ toBe k (8 * total % 2 ^ (8 * k))

/-- The state that holds the whole message: `tail` is what of it is not yet in `st`, `total` its length in bytes. -/
def closed (a : Nat) (suffix : Byte) (st tail : Bytes) (total : Nat) : Bytes :=
  let st1 := absorb a st (wholePart a tail)
  if isSha2 a then absorb a st1 (sha2Pad a total (tailPart a tail)) else absorbBlock a st1 (spongeLast a suffix (tailPart a tail))
/-- Output of `n` bytes from a closed state. -/
def outputOf (a n : Nat) (st : Bytes) : Bytes := if isSha2 a then fit n st else squeeze (digestBlock a) n st
/-- A hash of `n` bytes. -/
def hashFrom (a : Nat) (st tail : Bytes) (total n : Nat) : Bytes := outputOf a n (closed a (spongeSuffix a) st tail total)
def hashOf (a : Nat) (msg : Bytes) (n : Nat) : Bytes := hashFrom a (hashInit a) msg msg.length n

/-! ## HMAC (FIPS 198-1, R271, R277) -/

/-- The key as one block: a key longer than the block is hashed first. -/
def hmacKey (a : Nat) (key : Bytes) : Bytes :=
  fit (digestBlock a) (if digestBlock a < key.length then hashOf a key (digestLen a) else key)
/-- The states after K XOR ipad and after K XOR opad. -/
def ipadState (a : Nat) (key : Bytes) : Bytes := absorb a (hashInit a) ((hmacKey a key).map (· ^^^ 0x36))
def opadState (a : Nat) (key : Bytes) : Bytes := absorb a (hashInit a) ((hmacKey a key).map (· ^^^ 0x5C))
/-- The outer hash over the inner digest. -/
def hmacOuter (a : Nat) (opad inner : Bytes) : Bytes := hashFrom a opad inner (digestBlock a + inner.length) (digestLen a)

/-! ## cSHAKE and KMAC (SP 800-185) -/

/-- Least number of bytes a number takes, at least one. -/
def lenBytes (n : Nat) : Nat := max 1 (ceilDiv (n.log2 + 1) 8)
def leftEncode (n : Nat) : Bytes := toLe 1 (lenBytes n) ++ toBe (lenBytes n) n
def rightEncode (n : Nat) : Bytes := toBe (lenBytes n) n ++ toLe 1 (lenBytes n)
def encodeString (x : Bytes) : Bytes := leftEncode (8 * x.length) ++ x
def bytePad (w : Nat) (x : Bytes) : Bytes := let y := leftEncode w ++ x; y ++ zeros (roundUp y.length w - y.length)

/-- The name KMAC gives cSHAKE. -/
def kmacName : Bytes := [0x4B, 0x4D, 0x41, 0x43]
/-- The state after function name and customisation; with both empty cSHAKE is SHAKE (R274). -/
def prefixState (a : Nat) (name cust : Bytes) : Bytes :=
  if name == [] && cust == [] then hashInit a else absorb a (hashInit a) (bytePad (digestBlock a) (encodeString name ++ encodeString cust))
/-- The algorithm a job's output follows: cSHAKE with both strings empty is SHAKE of the same strength. -/
def shakeSuffix (name cust : Bytes) : Byte := if name == [] && cust == [] then 0x1F else 0x04
/-- The state after KMAC's name, customisation and key. -/
def kmacStart (a : Nat) (key cust : Bytes) : Bytes :=
  absorb a (prefixState a kmacName cust) (bytePad (digestBlock a) (encodeString key))
/-- KMAC with an output of `n` bytes. -/
def kmacOf (a : Nat) (key cust msg : Bytes) (n : Nat) : Bytes :=
  outputOf a n (closed a 0x04 (kmacStart a key cust) (msg ++ rightEncode (8 * n)) 0)

/-- KMAC256 of SP 800-185 with a length in bytes. -/
def kmac256 (key msg : Bytes) (len : Nat) (cust : Bytes) : Bytes := fit len (kmacOf 0x32 key cust msg len)

/-- SHA3-256. -/
def sha3 (msg : Bytes) : Bytes := fit 32 (hashOf 0x12 msg 32)

/-! ## The fixity tap (R249, R260, R266): a sponge that takes bytes as they come -/

/-- A sponge state with bytes not yet permuted: whole blocks taken in, the rest joined in place from `pos` on. -/
def spongeTake (a : Nat) (st : Bytes) (pos : Nat) (msg : Bytes) : Bytes :=
  let r := digestBlock a
  if pos + msg.length < r then xorBytes st (fit 200 (zeros pos ++ msg))
  else
    let st1 := absorbBlock a st (zeros pos ++ msg.take (r - pos))
    let rest := msg.drop (r - pos)
    xorBytes (absorb a st1 (wholePart a rest)) (fit 200 (tailPart a rest))
/-- The digest of a sponge at position `pos`. -/
def spongeEnd (a : Nat) (st : Bytes) (pos : Nat) : Bytes :=
  fit (digestLen a) (outputOf a (digestLen a) (absorbBlock a st (spongeLast a (spongeSuffix a) (zeros pos))))

end Sys2Proof.Machine
end

