-- ==== Sys2Proof/Machine/Tables.lean ====
section
/-!
DEFINITION. Reading and writing the sparse tables: `set` keeps the canonical form (keys strictly rising,
no entry equal to the default).
-/

namespace Sys2Proof

/-- The value at key `k`. -/
def Tab.get {α : Type} (t : Tab α) (k : Nat) : α := (t.ents.lookup k).getD t.dflt

/-- `l` without key `k`. -/
def eraseKey {α : Type} (k : Nat) (l : List (Nat × α)) : List (Nat × α) := l.filter fun e => e.1 != k

/-- `l` with `(k, v)` put before the first greater key. -/
def insertKey {α : Type} (k : Nat) (v : α) : List (Nat × α) → List (Nat × α)
  | [] => [(k, v)]
  | e :: l => if k < e.1 then (k, v) :: e :: l else e :: insertKey k v l

/-- The table with `v` at key `k`. -/
def Tab.set {α : Type} [DecidableEq α] (t : Tab α) (k : Nat) (v : α) : Tab α :=
  { t with ents := if v = t.dflt then eraseKey k t.ents else insertKey k v (eraseKey k t.ents) }

/-- The table with key `k`'s value changed by `f`. -/
def Tab.mod {α : Type} [DecidableEq α] (t : Tab α) (k : Nat) (f : α → α) : Tab α := t.set k (f (t.get k))

/-- The canonical form: keys strictly rising, no entry equal to the default. -/
abbrev Tab.Wf {α : Type} [DecidableEq α] (t : Tab α) : Prop :=
  (t.ents.map Prod.fst).Pairwise (· < ·) ∧ ∀ e ∈ t.ents, e.2 ≠ t.dflt

end Sys2Proof
end

