-- ==== Sys2Proof/Machine/Flags.lean ====
section
/-!
DEFINITION. Codes and flags: status codes and their precedence (R99, R101), result codes (R394), event codes
(R492), flag fields of descriptors, completions and key records, and the conditions pins and STATUS show.
-/

namespace Sys2Proof.Machine

/-- STATUS codes (R99). -/
def Status.code : Status → Nat
  | .done => 0x0000 | .authFailed => 0x0001 | .signatureInvalid => 0x0002 | .fixityMismatch => 0x0003
  | .opcodeUnknown => 0x0101 | .variantUnsupported => 0x0102 | .flagsInvalid => 0x0103 | .ropeLinkInvalid => 0x0104
  | .keyNotFound => 0x0201 | .keyEngineDenied => 0x0202 | .keyUseDenied => 0x0203 | .keyOrphaned => 0x0204
  | .keySlotBad => 0x0205 | .keysSealed => 0x0206 | .keyUseLimit => 0x0207
  | .lengthMismatch => 0x0301 | .misaligned => 0x0302 | .lengthOutOfRange => 0x0303 | .fragmentTableInvalid => 0x0304
  | .inputZero => 0x0401 | .inputNotReduced => 0x0402 | .pointNotOnCurve => 0x0403 | .curveNotLoaded => 0x0404
  | .noProgram => 0x0405 | .stateExhausted => 0x0406
  | .portError => 0x0501 | .doubleFault => 0x0502 | .nonceUnavailable => 0x0503 | .islandReset => 0x0504
  | .cancelledRope => 0x0601 | .abortedQuiesce => 0x0602 | .abortedManager => 0x0603

/-- Whether a status is of class 0x00xx. -/
def Status.isResult (st : Status) : Bool := st.code < 0x100

/-- The lowest class, and in it the lowest code, of the conditions of a stage (R101). -/
def lowest : List Status → Option Status
  | [] => none
  | x :: l => match lowest l with
    | none => some x
    | some y => some (if x.code ≤ y.code then x else y)

/-- The condition list with `x` when `c` holds. -/
def cond (c : Bool) (x : Status) : List Status := if c then [x] else []

/-! ## Descriptor flags (R76) -/

def Desc.flag (d : Desc) (n : Nat) : Bool := d.flags.getLsbD n
def Desc.isKnotFlag (d : Desc) : Bool := d.flag 0
def Desc.stallKnot (d : Desc) : Bool := d.flag 1
def Desc.ropeNext (d : Desc) : Bool := d.flag 2
def Desc.inOrder (d : Desc) : Bool := d.flag 3
def Desc.irq (d : Desc) : Bool := d.flag 4
def Desc.nonceHw (d : Desc) : Bool := d.flag 5
def Desc.checkPass (d : Desc) : Bool := d.flag 6
def Desc.haltOnError (d : Desc) : Bool := d.flag 7
def Desc.srcFrag (d : Desc) : Bool := d.flag 8
def Desc.dstFrag (d : Desc) : Bool := d.flag 9
def Desc.srcChute (d : Desc) : Bool := d.flag 10
def Desc.dstChute (d : Desc) : Bool := d.flag 11
def Desc.keyIsBlob (d : Desc) : Bool := d.flag 12
def Desc.op (d : Desc) : Nat := d.opcode.toNat
/-- A knot is a job with opcode KNOT or the KNOT flag, whatever status it reports (R110); a failed
descriptor read gives neither, since no field of it is checked (R542). -/
def Desc.isKnot (d : Desc) : Bool := !d.bad && (d.op == 0x01 || d.isKnotFlag)

/-- Mode code and parameter of a symmetric variant (R90). -/
def Desc.mode (d : Desc) : Nat := d.variant.toNat % 16
def Desc.param (d : Desc) : Nat := d.variant.toNat / 16
/-- Algorithm code and state mode of a digest variant (R93). -/
def Desc.alg (d : Desc) : Nat := d.variant.toNat % 64
def Desc.stateMode (d : Desc) : Nat := d.variant.toNat / 64
def Desc.sLen (d : Desc) : Nat := d.srcLen.toNat
def Desc.aLen (d : Desc) : Nat := d.aadLen.toNat
def Desc.payload (d : Desc) : Nat := d.sLen - d.aLen

/-! ## Key record flags (R161) -/

def kValid : BitVec 16 := 0x01
def kExportable : BitVec 16 := 0x02
def kInside : BitVec 16 := 0x04
def kPinned : BitVec 16 := 0x08
def kRunHead : BitVec 16 := 0x10
def kRunPart : BitVec 16 := 0x20
def kOrphaned : BitVec 16 := 0x40
/-- Whether every bit of `m` is set in `v`. -/
def has {w : Nat} (v m : BitVec w) : Bool := v &&& m == m
def Slot.valid (s : Slot) : Bool := has s.kflags kValid
def Slot.pinned (s : Slot) : Bool := has s.kflags kPinned
def Slot.runPart (s : Slot) : Bool := has s.kflags kRunPart
def Slot.isOrphaned (s : Slot) : Bool := has s.kflags kOrphaned
def Slot.isGlobal (s : Slot) : Bool := s.owner.getLsbD 15
def Slot.ownerStall (s : Slot) : Nat := s.owner.toNat % 512
/-- A slot holds a key or part of one. -/
def Slot.occupied (s : Slot) : Bool := s.valid || s.runPart

/-! ## Verdict pairs (R96) -/

def matchWord : BitVec 32 := 0xA5C33C5A
def matchInv : BitVec 32 := 0x5A3CC3A5
def missWord : BitVec 32 := 0x3C5AA5C3
def missInv : BitVec 32 := 0xC3A55A3C

/-! ## Event codes (R492) -/

def evTamperStatic := 0x0101
def evTamperMesh := 0x0102
def evVbkLow := 0x0103
def evLtClockFault := 0x0104
def evClockFault := 0x0105
def evMonitorSplit := 0x0106
def evSupplyWarn := 0x0107
def evSupplyReset := 0x0108
def evSupplyHoldTimeout := 0x0109
def evEntropyFail := 0x010A
def evMonitorRetired := 0x010B
def evLtRestarted := 0x010C
def evDecisionSplit := 0x0201
def evVerdictInvalid := 0x0202
def evLaneFault := 0x0203
def evLaneUnfenced := 0x0204
def evLanesDegraded := 0x0205
def evPkCheckFailed := 0x0206
def evSlotBad := 0x0207
def evDebugOpened := 0x0208
def evDoorbellRejected := 0x0301
def evRingLapped := 0x0302
def evCqIndexError := 0x0303
def evStallHalted := 0x0304
def evMboxDropped := 0x0305
def evHostUnresponsive := 0x0306
def evLatchBroken := 0x0307
def evChuteOverrun := 0x0308
def evChuteFraming := 0x0309
def evMoverHalted := 0x030A
def evLeavesLow := 0x0401
def evLeavesExhausted := 0x0402
def evRerated := 0x0403
def evLifeLow := 0x0404

/-- Whether a code is one of R492's. -/
def eventKnown (c : Nat) : Bool :=
  (0x0101 ≤ c && c ≤ 0x010C) || (0x0201 ≤ c && c ≤ 0x0208) || (0x0301 ≤ c && c ≤ 0x030A) || (0x0401 ≤ c && c ≤ 0x0404)

/-- Default response of a code: 0 LOG, 1 HOLD, 2 SEAL, 3 PURGE (R492). -/
def eventDefault (c : Nat) : Nat :=
  if c == evClockFault || c == evEntropyFail || c == evDecisionSplit || c == evVerdictInvalid then 2
  else if c == evMonitorSplit || c == evLanesDegraded || c == evPkCheckFailed then 1 else 0

/-- Floor of a code's response (R492). -/
def eventFloor (c : Nat) : Nat :=
  if c == evEntropyFail || c == evDecisionSplit then 2
  else if c == evClockFault || c == evVerdictInvalid || c == evLanesDegraded then 1 else 0

/-! ## Result codes (R394) -/

def rcOk := 0x0000
def rcBadSheet := 0x1001
def rcUnknown := 0x1002
def rcNotPrivileged := 0x1003
def rcGateRequired := 0x1004
def rcResultSpace := 0x1005
def rcBadParameter := 0x1006
def rcSealed := 0x1007
def rcSupplyHeld := 0x1008
def rcWrongState := 0x1009
def rcNoProgram := 0x100A
def rcNoSlot := 0x100B
def rcCheckFailed := 0x100C
def rcKeyRefused := 0x100D
def rcStudbookFailed := 0x100E
def rcAborted := 0x100F
def rcPackRefused := 0x1010
def rcSplit := 0x1017
def rcForgeFailed := 0x1018
def rcFuseFailed := 0x1019
def rcGateLocked := 0x101A
def rcGateDenied := 0x101B
def rcSelftestFailed := 0x101C

/-! ## Conditions of the block -/

/-- The life-cycle state (R149): 0 BLANK, 1 MAKER, 2 FIELD, 3 RETIRED, 4 SCRAP. -/
def lcOf (groups : BitVec 4) : Nat :=
  if groups.getLsbD 3 then 4 else if groups.getLsbD 2 then 3 else if groups.getLsbD 1 then 2
  else if groups.getLsbD 0 then 1 else 0
def Block.lc (b : Block) : Nat := lcOf b.sensed.lc

/-- `lc_state` (R528): 0 until start-up step 2 has ended. -/
def lcPins (b : Block) : Nat := if b.boot.step ≤ 2 then 0 else b.lc

/-- The block holds a barn key (R150). -/
def barnHeld (b : Block) : Bool := (b.tack.sys.get 0).content != []

/-- `mark` exceeds the highest acknowledged `ack` (R493, assumption 13). -/
def unacked (mark ack : Option Nat) : Bool :=
  match mark, ack with
  | none, _ => false
  | some _, none => true
  | some m, some a => decide (a < m)

/-- A HOLD is in effect (R490, R493, R494). -/
def holdNow (b : Block) : Bool :=
  unacked b.lt.holdMark b.lt.ackUpto || b.lt.tickEvents.any fun e => e.resp == 1

/-- A SEAL is in effect (R490, R493, R494). -/
def sealNow (b : Block) : Bool :=
  unacked b.lt.sealMark b.lt.alarmUpto || b.lt.tickEvents.any fun e => 2 ≤ e.resp

/-- `sealed` and STATUS.SEALED (R150, R490, R528). -/
def sealedPin (b : Block) : Bool := !b.boot.sealClear || !barnHeld b || sealNow b

/-- Island `i` is in a supply hold. -/
def holding (b : Block) (i : Nat) : Bool := (b.holds.get i).isSome
/-- Some island is in a supply hold: tack-room writes, burns and ADVANCE are inhibited (R485). -/
def anyHold (b : Block) : Bool := (List.range 24).any (holding b)

/-- The entropy island gives no output: restarting or stopped (R488). -/
def noEntropy (b : Block) : Bool := b.boot.entropyPaused || b.boot.entropyStopped

/-- A monitor source is retired (R477). -/
def retired (b : Block) (src : Nat) : Bool := b.sensed.srcRetire.getLsbD src

/-! ## Lanes, islands -/

/-- LANE_STATE (R135, R136). -/
def Lane.state (l : Lane) : Nat :=
  if l.testing then 4 else if l.fencedManager then 3 else if l.fencedFault then 2 else if l.suspect then 1 else 0
def Lane.inService (l : Lane) : Bool := l.state == 0
/-- LANES_FENCED (R135). -/
def lanesFenced (b : Block) : Nat := ((List.range 8).filter fun i => !(b.lanes.get i).inService).length
/-- SPLICE_PAIRS (R259). -/
def splicePairs (b : Block) : Nat :=
  ((List.range 4).filter fun p => (b.lanes.get (2 * p)).inService && (b.lanes.get (2 * p + 1)).inService).length

/-- Island number of R408 an engine lies in. -/
def engineIsland : Engine → Nat
  | .lane l => 1 + l.val
  | .digest l => 9 + l.val / 8
  | .core c => 11 + c.val
  | .unwrap _ => 19
  | .entropy => 21

/-- The data port of an engine (R22). -/
def enginePort : Engine → Port
  | .lane l => if l.val < 4 then .dp0 else .dp1
  | .digest l => if l.val < 8 then .dp0 else .dp1
  | .core c => if c.val < 4 then .dp0 else .dp1
  | .unwrap u => if u.val = 0 then .dp0 else .dp1
  | .entropy => .dp0

/-- A number that names an engine among those taking turns on a port (R368). -/
def engineTurn : Engine → Nat
  | .lane l => l.val
  | .digest l => 8 + l.val
  | .core c => 24 + c.val
  | .unwrap u => 32 + u.val
  | .entropy => 34

/-- The engine class an engine belongs to. -/
def engineCls : Engine → EngClass
  | .lane _ => .cipher
  | .digest _ => .digest
  | .core _ => .pk
  | .unwrap _ => .unwrap
  | .entropy => .entropy

def classNum : EngClass → Nat
  | .cipher => 0 | .digest => 1 | .pk => 2 | .unwrap => 3 | .entropy => 4

/-- The engine class of an opcode, none for NOP and KNOT (R359, R362, R567). -/
def opClass (op : Nat) : Option EngClass :=
  if 0x10 ≤ op && op ≤ 0x18 then some .cipher
  else if 0x20 ≤ op && op ≤ 0x25 then some .digest
  else if 0x30 ≤ op && op ≤ 0x33 then some .unwrap
  else if op == 0x34 then some .entropy
  else if 0x40 ≤ op && op ≤ 0x5D then some .pk
  else none

end Sys2Proof.Machine
end

