-- ==== Sys2Proof/Machine/Ops.lean ====
section
/-!
DEFINITION. The shared operations on the block: access to its tables, events, the tagged ports, interrupt
messages and ring halts.
-/

namespace Sys2Proof.Machine

/-! ## Access -/

def Block.stall (b : Block) (n : Nat) : Stall := b.stalls.get n
def Block.job (b : Block) (j : Nat) : Option Job := b.jobs.get j
def Block.lane (b : Block) (l : Nat) : Lane := b.lanes.get l
def Block.chute (b : Block) (c : Nat) : Chute := b.chutes.get c
def Block.mover (b : Block) (m : Nat) : Mover := b.movers.get m
def Block.slot (b : Block) (i : Nat) : Slot := b.tack.slots.get i
def Block.sk (b : Block) (n : Nat) : StallKey := b.tack.stallKeys.get n
def Stall.ring (s : Stall) (r : Nat) : Ring := s.rings.get r
def Block.ring (b : Block) (n r : Nat) : Ring := (b.stall n).ring r

def modStall (n : Nat) (f : Stall → Stall) (b : Block) : Block := { b with stalls := b.stalls.mod n f }
def modRing (n r : Nat) (f : Ring → Ring) (b : Block) : Block :=
  modStall n (fun s => { s with rings := s.rings.mod r f }) b
def modJob (j : Nat) (f : Job → Job) (b : Block) : Block := { b with jobs := b.jobs.mod j (Option.map f) }
def modLane (l : Nat) (f : Lane → Lane) (b : Block) : Block := { b with lanes := b.lanes.mod l f }
def modIsland (i : Nat) (f : DigestIsland → DigestIsland) (b : Block) : Block := { b with islands := b.islands.mod i f }
def modCore (c : Nat) (f : Core → Core) (b : Block) : Block := { b with cores := b.cores.mod c f }
def modTack (f : Tack → Tack) (b : Block) : Block := { b with tack := f b.tack }
def modSlot (i : Nat) (f : Slot → Slot) (b : Block) : Block := modTack (fun t => { t with slots := t.slots.mod i f }) b
def modSk (n : Nat) (f : StallKey → StallKey) (b : Block) : Block :=
  modTack (fun t => { t with stallKeys := t.stallKeys.mod n f }) b
def modYm (f : Ym → Ym) (b : Block) : Block := { b with ym := f b.ym }
def modPair (p : Nat) (f : Mbox → Mbox) (b : Block) : Block := modYm (fun y => { y with pairs := y.pairs.mod p f }) b
def modChute (c : Nat) (f : Chute → Chute) (b : Block) : Block := { b with chutes := b.chutes.mod c f }
def modMover (m : Nat) (f : Mover → Mover) (b : Block) : Block := { b with movers := b.movers.mod m f }
def modLt (f : LeanTo → LeanTo) (b : Block) : Block := { b with lt := f b.lt }
def modBoot (f : Boot → Boot) (b : Block) : Block := { b with boot := f b.boot }
def modGate (f : Gate → Gate) (b : Block) : Block := modYm (fun y => { y with gate := f y.gate }) b

def stateKey (b : Block) : Bytes := (b.tack.sys.get 2).content
/-- The live jobs, by job-table index. -/
def Block.live (b : Block) : List (Nat × Job) := b.jobs.ents.filterMap fun e => e.2.map fun j => (e.1, j)
/-- The live jobs of a stall. -/
def jobsOf (b : Block) (n : Nat) : List (Nat × Job) := b.live.filter fun e => e.2.stall.val == n

/-- Run `f` when `c` holds. -/
def when (c : Bool) (f : Block → Block) (b : Block) : Block := if c then f b else b

/-- Run `f` on each of a list in turn. -/
def each {α : Type} (l : List α) (f : α → Block → Block) (b : Block) : Block := l.foldl (fun b x => f x b) b

/-! ## Steps of the machine -/

/-- The outcome of a meaning that changes the block alone. -/
def upd (s : State) (f : Block → Block) : Host.Outcome State Fault Refusal := .next { s with blk := f s.blk }

/-- As `upd`, once `ready` has risen; before that the command has no effect (R395, R527, assumption 6). -/
def updReady (s : State) (f : Block → Block) : Host.Outcome State Fault Refusal := upd s fun b => when b.boot.ready f b

/-- As `updReady`, while island `i` is not in a supply hold (R485); in a hold the step waits. -/
def updOn (s : State) (i : Nat) (f : Block → Block) : Host.Outcome State Fault Refusal :=
  updReady s fun b => when (!holding b i) f b

/-! ## Events (R490 to R494) -/

/-- The response an event takes when it is raised: `LT_RESP` for sources 0 to 7's own events, else
`RESPONSE_MAP`, which the floor and default of R492 fill. -/
def respOf (b : Block) (code source : Nat) : Nat :=
  if 0x0101 ≤ code && code ≤ 0x0104 then (b.lt.resp >>> (2 * source)).toNat % 4
  else (b.ym.responseMap.get code).getD (eventDefault code)

/-- LT_RESTARTED, once, ahead of every other event of a boot that follows `lt_por_n` (R495, R521). -/
def opening (b : Block) : List Event :=
  if b.lt.restarted && b.boot.vdd then [{ code := evLtRestarted, detail := zeros 12, resp := respOf b evLtRestarted 0xFF }] else []
/-- Raise an event with a given response; one that fires while `vdd` is absent carries that (R495). -/
def raiseWith (resp code : Nat) (detail : Bytes) (source : Nat) (b : Block) : Block :=
  modLt (fun l => { l with
    fifo := l.fifo ++ opening b ++ [{ code, source, detail := fit 12 detail, resp, backup := b.boot.backup }]
    restarted := l.restarted && !b.boot.vdd }) b

/-- Raise an event with its mapped response (R492). -/
def raise (code : Nat) (detail : Bytes) (b : Block) : Block := raiseWith (respOf b code 0xFF) code detail 0xFF b

/-- A detector fires: a retired source raises nothing (R477). -/
def raiseSource (code source : Nat) (detail : Bytes) (b : Block) : Block :=
  if retired b source then b else raiseWith (respOf b code source) code detail source b

/-! ## Holds of a job's engine (R243) -/

/-- The lanes a job occupies: both of its pair for a splice (R247). -/
def jobLanes (j : Job) : List Nat :=
  match j.engine with
  | some (.lane l) => if j.desc.op == 0x18 then [l.val / 2 * 2, l.val / 2 * 2 + 1] else [l.val]
  | _ => []
/-- A supply hold of an island the job's engine lies in (R243), and a lane of it that waits for a reseed (R220). -/
def engineHeld (b : Block) (j : Job) : Bool :=
  match j.engine with
  | some (.lane _) => (jobLanes j).any fun l => holding b (1 + l)
  | some e => holding b (engineIsland e)
  | none => false

/-! ## Tagged ports (R368, R536, R537) -/

/-- Bytes of a data lane of a port (R534, R537). -/
def laneWidth : Port → Nat
  | .rp => 16 | _ => 64
/-- The 16-byte boundary at which a request starts, and `req_units` + 1: a read's last unit holds its last byte, a write's start and units
are those its masks mark (R537). -/
def Req.start (r : Req) : Nat := r.addr.toNat / 16 * 16
def Req.units (r : Req) : Nat := (r.addr.toNat + r.len + 15) / 16 - r.addr.toNat / 16
/-- The lanes a request touches, by number, in rising address order: a beat or a data flit for each, the last one marked. -/
def Req.lanes (p : Port) (r : Req) : List Nat :=
  (List.range ((r.addr.toNat + r.len + laneWidth p - 1) / laneWidth p - r.addr.toNat / laneWidth p)).map (· + r.addr.toNat / laneWidth p)
/-- `req_mask` of the flit of lane `k`: exactly the bytes that it writes, one flag a byte, the lowest address first. -/
def Req.mask (p : Port) (r : Req) (k : Nat) : List Bool :=
  (List.range (laneWidth p)).map fun i => let a := k * laneWidth p + i; decide (r.addr.toNat ≤ a) && decide (a < r.addr.toNat + r.len)
/-- Bytes of the first lane of a read that lie before those it needs; they are discarded. -/
def Req.lead (p : Port) (r : Req) : Nat := r.addr.toNat % laneWidth p

def Block.port (b : Block) : Port → PortSt
  | .dp0 => b.dp0 | .dp1 => b.dp1 | .rp => b.rp

def setPort (p : Port) (st : PortSt) (b : Block) : Block :=
  match p with
  | .dp0 => { b with dp0 := st } | .dp1 => { b with dp1 := st } | .rp => { b with rp := st }

/-- Most reads and writes outstanding on a port (R536). -/
def maxReads : Port → Nat
  | .rp => 64 | _ => 512
def maxWrites : Port → Nat
  | .rp => 32 | _ => 512

/-- The lowest tag no outstanding request has. -/
def freeTag (out : List Flight) : Nat :=
  ((List.range (out.length + 1)).find? fun t => out.all fun f => f.tag != t).getD 0

/-- Order of two waiting requests: class first, then turns after the engine served last in that class (R368). -/
def reqKey (last : Tab Nat) (r : Req) : Nat := r.prio * 4096 + (r.turn + 4095 - last.get r.prio) % 4096

/-- The first of the waiting requests with the least key. -/
def bestReq (last : Tab Nat) : List Req → Option Req
  | [] => none
  | r :: l => match bestReq last l with
    | none => some r
    | some q => some (if reqKey last r ≤ reqKey last q then r else q)

/-- Whether a request may be issued now. -/
def mayIssue (p : Port) (st : PortSt) (r : Req) : Bool :=
  if r.write then (st.out.filter fun f => f.req.write).length < maxWrites p
  else (st.out.filter fun f => !f.req.write).length < maxReads p

/-- A job's accesses come from the island of its engine; before its start, and without one, its errors are the yard's. -/
def jobHeld (b : Block) (i : Nat) : Bool :=
  match b.job i with
  | some j => if j.engine.isNone || j.stage == .waiting then holding b 0 else engineHeld b j
  | none => false
/-- The island a request comes from holds, or the port islands do: it issues nothing until the hold ends (R13, R243, R472, R485). A tap
state comes from the pair the splice has left, reads for a key decision from the tack room, a mover's accesses from the yard. -/
def issueHeld (b : Block) (o : Owner) : Bool :=
  holding b 22 || (match o with
    | .src i | .srcAgain i | .aux i | .exp i | .data i | .zero i => jobHeld b i
    | .tapSave i => (List.range 4).any fun p => (b.lane (2 * p)).tapSaving == some i && (holding b (1 + 2 * p) || holding b (2 + 2 * p))
    | .stateBlob i => jobHeld b i
    | .attr _ | .bat _ _ | .blobHead _ _ | .blobRest _ _ => holding b 19
    | .sheet _ | .input _ | .image _ | .payload _ | .header _ => holding b 20
    | .desc _ _ _ | .pblk _ _ _ | .table _ _ | .tableAgain _ _ | .completion _ _ | .irq _ => holding b 0
    | .moverDesc _ | .moverTable _ | .moverData _ | .moverStatus _ => holding b 0
    | .discard => false)

/-- Issue waiting requests while the limits and the holds allow. -/
def pumpGo (p : Port) (held : Owner → Bool) : Nat → PortSt → PortSt
  | 0, st => st
  | n + 1, st =>
    match bestReq st.last (st.waiting.filter fun r => mayIssue p st r && !held r.owner) with
    | none => st
    | some r => pumpGo p held n { waiting := st.waiting.erase r
                                  out := st.out ++ [{ tag := freeTag st.out, req := r }], last := st.last.set r.prio r.turn }

/-- Issue on a port; after a warm reset nothing is issued until every response has returned (R548). -/
def pump (p : Port) (b : Block) : Block :=
  if b.portDrain then b else setPort p (pumpGo p (issueHeld b) (b.port p).waiting.length (b.port p)) b
/-- Issue on every port. -/
def pumpAll (b : Block) : Block := pump .rp (pump .dp1 (pump .dp0 b))

/-- Offer requests to a port. -/
def offer (p : Port) (rs : List Req) (b : Block) : Block :=
  pump p (setPort p { b.port p with waiting := (b.port p).waiting ++ rs } b)

/-- Cut `len` bytes at `addr` into pieces inside aligned 256-byte blocks: address, offset, length (R537). -/
def cut : Nat → (addr off len : Nat) → List (Nat × Nat × Nat)
  | 0, _, _, _ => []
  | n + 1, addr, off, len =>
    if len = 0 then [] else
      let k := min len (256 - addr % 256)
      (addr, off, k) :: cut n (addr + k) (off + k) (len - k)

/-- The pieces of a range. -/
def pieces (addr : Addr) (off len : Nat) : List (Nat × Nat × Nat) := cut (len / 256 + 2) addr.toNat off len

/-- The pieces of a fragment list from byte `skip` of it on. -/
def fragPieces (skip : Nat) : Nat → List Frag → List (Nat × Nat × Nat)
  | _, [] => []
  | off, f :: l =>
    let s := if off < skip then min f.len (skip - off) else 0
    cut ((f.len - s) / 256 + 2) (f.addr.toNat + s) (off + s) (f.len - s) ++ fragPieces skip (off + f.len) l

/-- The first `n` bytes of a fragment list. -/
def clipFrags : Nat → List Frag → List Frag
  | _, [] => []
  | n, f :: l => if n ≤ f.len then [{ f with len := n }] else f :: clipFrags (n - f.len) l

/-- Read requests for pieces. -/
def readReqs (owner : Owner) (id : Ident) (prio turn : Nat) (ps : List (Nat × Nat × Nat)) : List Req :=
  ps.map fun p => { addr := BitVec.ofNat 64 p.1, len := p.2.2, ident := id, owner, off := p.2.1, prio, turn }

/-- Write requests that put `data` (whose byte 0 is at offset `base`) to pieces. -/
def writeReqs (owner : Owner) (id : Ident) (prio turn base : Nat) (data : Bytes) (ps : List (Nat × Nat × Nat)) : List Req :=
  ps.map fun p => { write := true, addr := BitVec.ofNat 64 p.1, len := p.2.2,
                    data := slice data (p.2.1 - base) p.2.2, ident := id, owner, off := p.2.1, prio, turn }

/-- The identity of a stall's accesses, and of the yardmaster's and the manager's (R23, R540). -/
def stallIdent (b : Block) (n : Nat) : Ident := { pid := (b.stall n).pid.getD 0, stall := BitVec.ofNat 9 n, priv := false }
def ymIdent : Ident := { pid := 0, stall := 0, priv := true }

/-- Drop the waiting requests an owner test names, and turn its outstanding ones over to be discarded. -/
def dropReqs (q : Owner → Bool) (b : Block) : Block :=
  let f := fun (st : PortSt) => { st with
    waiting := st.waiting.filter fun r => !q r.owner
    out := st.out.map fun g => if q g.req.owner then { g with req := { g.req with owner := .discard } } else g }
  { b with dp0 := f b.dp0, dp1 := f b.dp1, rp := f b.rp }

/-! ## The studbook port (R543, R545) -/

/-- A request may be issued on `sb_`: none is outstanding there, one given up included (R536), and no reset waits for responses (R548). -/
def sbFree (b : Block) : Bool := b.sb.isNone && b.sbDrop == 0 && !b.portDrain
/-- Issue the next waiting studbook operation, in order of arrival; under a supply hold no new ADVANCE is issued
(R485, R545). -/
def sbPump (b : Block) : Block :=
  match (if sbFree b then b.sbQueue.find? fun o => o.op == 0 || !anyHold b else none) with
  | some o => { b with sb := some o, sbQueue := b.sbQueue.erase o }
  | none => b
/-- After a warm reset requests flow again once every response, `sb_`'s included, has returned (R548). -/
def drained (b : Block) : Block :=
  if b.portDrain && b.dp0.out.isEmpty && b.dp1.out.isEmpty && b.rp.out.isEmpty && b.sbDrop == 0 then
    sbPump (pumpAll { b with portDrain := false })
  else b

/-- Ask the studbook for an operation. -/
def sbAsk (o : SbOp) (b : Block) : Block := sbPump { b with sbQueue := b.sbQueue ++ [{ o with since := b.now }] }

/-! ## Interrupt messages and halts (R35 to R37, R69 to R71) -/

/-- Write the stall's interrupt message, then clear its count and stop its timer (R70). The message counts as written when it is offered
to `rp_`: completions acknowledged while it waits there for room count toward the next one (DESIGN CHOICE, assumption 91). -/
def sendIrq (n : Nat) (b : Block) : Block :=
  let s := b.stall n
  modStall n (fun s => { s with irqPending := 0, irqSince := none })
    (offer .rp [{ write := true, addr := s.irqAddr, len := 4, data := toLe 4 s.irqData.toNat,
                  ident := stallIdent b n, owner := .irq (Fin.ofNat 512 n), prio := 0 }] b)

/-- The interrupt message of a halt, when messages are enabled (R37, R69). -/
def haltIrq (n : Nat) (b : Block) : Block := when ((b.stall n).irqCtrl.getLsbD 0) (sendIrq n) b

/-- The stall's part of a halt: the first cause is recorded, an ACTIVE stall becomes HALTED (R36, R37). -/
def haltStall (cause : BitVec 4) (s : Stall) : Stall :=
  { s with haltCause := if s.haltCause = 0 then cause else s.haltCause
           state := if s.state = .active then .halted else s.state }

/-- Halt submission ring `r` of stall `n` (R35 to R37). -/
def haltRing (n r : Nat) (cause : BitVec 4) (b : Block) : Block :=
  if (b.ring n r).halted then b
  else haltIrq n (raise evStallHalted (toLe 2 n ++ toLe 1 r)
    (modStall n (haltStall cause) (modRing n r (fun g => { g with halted := true }) b)))

/-- Halt the completion ring and with it all four submission rings (R35, R37). -/
def haltCq (n : Nat) (b : Block) : Block :=
  if (b.stall n).cqHalted then b
  else haltIrq n (raise evStallHalted (toLe 2 n ++ toLe 1 4)
    (modStall n (fun s => { haltStall 3 s with cqHalted := true })
      (each [0, 1, 2, 3] (fun r => modRing n r fun g => { g with halted := true }) b)))

/-- Free credits of a stall (R62). -/
def credits (s : Stall) : Int := (2 ^ s.cqK : Nat) - ((s.cqProd - s.cqCons).toNat : Int) - s.held

/-- A ring is fetchable while its stall is ACTIVE or HALTED and it is not halted (R58). -/
def fetchable (b : Block) (n r : Nat) : Bool :=
  ((b.stall n).state == .active || (b.stall n).state == .halted) && !(b.ring n r).halted

end Sys2Proof.Machine
end

