-- ==== Sys2Proof/Machine/Fetch.lean ====
section
/-!
DEFINITION. The descriptor cache (R58 to R61): reads of descriptors and of their parameter blocks, capture.
-/

namespace Sys2Proof.Machine

/-- A descriptor's fields from its 64 bytes (R74). -/
def parseDesc (l : Bytes) : Desc :=
  { opcode := BitVec.ofNat 8 (field l 0 1), variant := BitVec.ofNat 8 (field l 1 1)
    flags := BitVec.ofNat 16 (field l 2 2), tag := BitVec.ofNat 32 (field l 4 4)
    src := BitVec.ofNat 64 (field l 8 8), dst := BitVec.ofNat 64 (field l 16 8)
    srcLen := BitVec.ofNat 40 (field l 24 5), aadLen := BitVec.ofNat 24 (field l 29 3)
    keyRef := BitVec.ofNat 64 (field l 32 8), iv := fit 16 (slice l 40 16)
    aux := BitVec.ofNat 64 (field l 56 8) }

/-- A descriptor whose read failed: TAG 0, nothing else known (R542); its ROPE_NEXT is taken as clear, so that its rope ends with it (DESIGN
CHOICE, assumption 111). -/
def badDesc : Desc := { bad := true }

/-- Descriptors captured or on their way. -/
def cachedCount (g : Ring) : Nat := g.captured.length + (g.fetching.map fun f => f.2.1).sum

/-- Announced and not yet consumed (R52). -/
def announced (g : Ring) : Nat := (g.prod - g.cons).toNat

/-- How many descriptors the next read takes: at most 8 cached, none past the producer, none across the end
of the ring, inside one aligned 256-byte block (R54, R58, R537). Of the lengths R58 allows a read takes the most (DESIGN CHOICE, assumption
107). -/
def fetchCount (g : Ring) : Nat :=
  let i := (g.cons.toNat + cachedCount g) % 2 ^ g.k
  min (min (8 - cachedCount g) (announced g - cachedCount g)) (4 - i % 4)

/-- Order class of a ring's descriptor and parameter-block reads on `rp_` (R368). A ring counts as of effective class SQ0 when it is SQ0
of a stall whose URGENT_SHARE is not 0, and the parameter-block reads of every other ring go with their descriptor reads (DESIGN
CHOICE, assumption 92). -/
def fetchPrio (b : Block) (n r : Nat) : Nat := if r == 0 && (b.stall n).urgentShare != 0 then 1 else 3

/-- Read the next announced descriptors of a ring (R54, R58). -/
def fetchDesc (n r : Nat) (b : Block) : Block :=
  let g := b.ring n r
  let k := fetchCount g
  let first : Idx := g.cons + BitVec.ofNat 16 (cachedCount g)
  if !fetchable b n r || (b.stall n).invMask.getLsbD r || k == 0 then b
  else offer .rp [{ addr := g.base + BitVec.ofNat 64 (64 * (first.toNat % 2 ^ g.k)), len := 64 * k
                    ident := stallIdent b n, owner := .desc (Fin.ofNat 512 n) (Fin.ofNat 4 r) first
                    prio := fetchPrio b n r, turn := 4 * n + r }]
    (modRing n r (fun g => { g with fetching := g.fetching ++ [(first, k, { want := 64 * k }, false)] }) b)

/-- DESCRIPTOR_FETCH. -/
def execDescriptorFetch (n : StallId) (r : RingId) (s : State) := updOn s 0 (fetchDesc n.val r.val)

/-- The descriptors of a finished read, from its bytes (R542: of a failed read, unknown contents). -/
def capturedOf (first : Idx) (k : Nat) (buf : Buf) : List Captured :=
  (List.range k).map fun i =>
    { idx := first + BitVec.ofNat 16 i
      desc := if buf.err then badDesc else parseDesc (slice buf.bytes (64 * i) 64) }

/-- The returned descriptors enter the cache in index order; data of an invalidated read is discarded (R60). -/
def captureDesc (n r : Nat) (b : Block) : Block :=
  modRing n r (fun g =>
    match g.fetching with
    | [] => g
    | (first, k, buf, drop) :: rest =>
      if !(buf.full || buf.err) then g
      else if drop then { g with fetching := rest }
      else { g with fetching := rest, captured := g.captured ++ capturedOf first k buf }) b

/-- DESCRIPTOR_CAPTURE. -/
def execDescriptorCapture (n : StallId) (r : RingId) (s : State) := updOn s 0 (captureDesc n.val r.val)

/-- Bytes of parameter block a descriptor needs: 64 for SPLICE (R252), 256 for KMAC and cSHAKE (R273, R274), else 0. -/
def pblkLen (d : Desc) : Nat :=
  if d.bad || d.aux == 0 || !alignedTo d.aux 16 then 0
  else if d.op == 0x18 then 64
  else if d.op == 0x23 && (d.stateMode == 0 || d.stateMode == 1) && (d.alg == 0x31 || d.alg == 0x32) then 256
  else if d.op == 0x24 && (d.stateMode == 0 || d.stateMode == 3) && (d.alg == 0x31 || d.alg == 0x32) then 256
  else if d.op == 0x25 && (d.stateMode == 0 || d.stateMode == 1) && (d.alg == 0x23 || d.alg == 0x24) then 256
  else 0

/-- Change the captured descriptor of an index. -/
def modCaptured (n r : Nat) (i : Idx) (f : Captured → Captured) (b : Block) : Block :=
  modRing n r (fun g => { g with captured := g.captured.map fun c => if c.idx = i then f c else c }) b

/-- Read the parameter block of the oldest captured descriptor that needs one (R252, R274). -/
def readPblk (n r : Nat) (b : Block) : Block :=
  match (b.ring n r).captured.find? fun c => c.pblk == .unread && pblkLen c.desc != 0 with
  | none => b
  | some c =>
    offer .rp (readReqs (.pblk (Fin.ofNat 512 n) (Fin.ofNat 4 r) c.idx) (stallIdent b n) (fetchPrio b n r) (4 * n + r)
        (pieces c.desc.aux 0 (pblkLen c.desc)))
      (modCaptured n r c.idx (fun c => { c with pblk := .reading { want := pblkLen c.desc } }) b)

/-- PARAMETER_BLOCK_READ. -/
def execParameterBlockRead (n : StallId) (r : RingId) (s : State) := updOn s 0 (readPblk n.val r.val)

end Sys2Proof.Machine
end

