-- ==== Sys2Proof/Machine/Operands.lean ====
section
/-!
DEFINITION. What a descriptor's fields mean for its opcode: which fields are used, lengths, and every
condition of the admission stage (R75 to R93, R100, R170, R250 to R254, R274, R280, R312 to R317, R331 to R335).
-/

namespace Sys2Proof.Machine

/-- The opcodes of R88. -/
def opKnown (op : Nat) : Bool :=
  op ≤ 0x01 || (0x10 ≤ op && op ≤ 0x15) || op == 0x18 || (0x20 ≤ op && op ≤ 0x25) || (0x30 ≤ op && op ≤ 0x34)
    || (0x40 ≤ op && op ≤ 0x46) || (0x48 ≤ op && op ≤ 0x4B) || (0x50 ≤ op && op ≤ 0x52) || (0x54 ≤ op && op ≤ 0x56)
    || (0x58 ≤ op && op ≤ 0x5D)

/-- Whether an opcode, with its variant, takes a key (R88, R170, R315, R334). -/
def takesKey (d : Desc) : Bool :=
  let op := d.op
  (0x10 ≤ op && op ≤ 0x18) || (0x21 ≤ op && op ≤ 0x24) || (0x30 ≤ op && op ≤ 0x33)
    || [0x41, 0x43, 0x44, 0x46, 0x48, 0x52, 0x55, 0x59, 0x5C].contains op || (op == 0x58 && d.variant == 0x04)

/-! ## Modes -/

/-- Whether a mode takes the parameter (R90). -/
def paramOk (mode param : Nat) : Bool :=
  if mode == 3 then param ≤ 2 else if mode == 4 then param ≤ 11 else if mode == 5 || mode == 8 then param ≤ 4
  else if mode == 7 then param ≤ 8 else (mode == 1 || mode == 2 || mode == 6 || mode == 9) && param == 0

/-- Whether a mode is authenticated (R103). -/
def aeadMode (m : Nat) : Bool := m == 5 || m == 6 || m == 9

/-- Tag length in bytes of a mode and parameter (R90). -/
def tagLen (mode param : Nat) : Nat := if mode == 5 || mode == 7 || mode == 8 then 16 - param else 16

/-- Width in bits of the counter field (R90, R203). -/
def ctrBits (param : Nat) : Nat := if param == 0 then 32 else if param == 1 then 64 else 128

/-- Data unit of XTS in bytes (R90). -/
def xtsUnit (param : Nat) : Nat := 512 * 2 ^ param

/-- The starting data-unit number (R202). -/
def xtsStart (iv : Bytes) : Nat := field iv 0 8

/-- The counter field of an initial counter block (R203). -/
def ctrStart (param : Nat) (iv : Bytes) : Nat := beNat (iv.drop (16 - ctrBits param / 8))

/-- The length limits of R92 on `len` bytes of a mode. -/
def lenOk (mode param : Nat) (iv : Bytes) (len : Nat) : Bool :=
  if mode == 1 || mode == 2 then len % 16 == 0 && 16 ≤ len
  else if mode == 3 then 1 ≤ len && ceilDiv len 16 + ctrStart param iv ≤ 2 ^ ctrBits param
  else if mode == 4 then
    16 ≤ len && (len % xtsUnit param == 0 || 16 ≤ len % xtsUnit param)
      && xtsStart iv < 2 ^ 44 && xtsStart iv + ceilDiv len (xtsUnit param) ≤ 2 ^ 44
  else if mode == 5 then len ≤ 2 ^ 36 - 32
  else if mode == 6 then len ≤ 2 ^ 36
  else if mode == 9 then len ≤ 2 ^ 38 - 64
  else true

/-! ## Digest algorithms (R93) -/

def shaAlg (a : Nat) : Bool := (1 ≤ a && a ≤ 5) || (0x11 ≤ a && a ≤ 0x14)
def isXofAlg (a : Nat) : Bool := 0x21 ≤ a && a ≤ 0x24
def isKmacAlg (a : Nat) : Bool := a == 0x31 || a == 0x32
/-- Whether an algorithm goes with an opcode. -/
def digestAlgOk (op a : Nat) : Bool :=
  if 0x20 ≤ op && op ≤ 0x22 then shaAlg a else if op == 0x25 then isXofAlg a else isKmacAlg a

/-! ## Curves and parameter sets -/

/-- A loaded curve's record fields (R324): byte length of p, and of n. -/
def curveL (c : Curve) : Nat := ceilDiv (field c.record 6 2) 8
def natBytes (n : Nat) : Nat := ceilDiv (n.log2 + 1) 8
def curveN (c : Curve) : Nat := natBytes (beNat (slice c.record 376 72))
def curveTag (c : Curve) : Nat := field c.fp 0 2
/-- The loaded-curve slot a variant names. -/
def curveSlot (v : Nat) : Option Nat := if 0x20 ≤ v && v ≤ 0x3F then some (v - 0x20) else none

/-- L and N of a curve variant (R308, R313, R315). -/
def curveLens (b : Block) (v : Nat) : Nat × Nat :=
  match v with
  | 1 => (32, 32) | 2 => (48, 48) | 3 => (66, 66)
  | _ => match curveSlot v with
    | some c => (curveL (b.curves.get c), curveN (b.curves.get c))
    | none => (0, 0)

/-- Public-key length EC_KEYGEN writes (R315). -/
def ecPubLen (b : Block) (v : Nat) : Nat :=
  if v == 0x10 then 32 else if v == 0x11 then 57 else if v == 0x18 then 32 else if v == 0x19 then 56
  else 2 * (curveLens b v).1

/-- Sizes of ML-KEM and ML-DSA (R336). -/
def kemEk (v : Nat) : Nat := if v == 1 then 800 else if v == 2 then 1184 else 1568
def kemC (v : Nat) : Nat := if v == 1 then 768 else if v == 2 then 1088 else 1568
def dsaSet (v : Nat) : Nat := v % 4
def dsaPk (v : Nat) : Nat := if v == 1 then 1312 else if v == 2 then 1952 else 2592
def dsaSig (v : Nat) : Nat := if v == 1 then 2420 else if v == 2 then 3309 else 4627
/-- Sizes of SLH-DSA (R336). -/
def slhPk (v : Nat) : Nat := if v ≤ 4 then 32 else if v ≤ 8 then 48 else 64
def slhSig (v : Nat) : Nat :=
  if v ≤ 2 then 7856 else if v ≤ 4 then 17088 else if v ≤ 6 then 16224 else if v ≤ 8 then 35664
  else if v ≤ 10 then 29792 else 49856
/-- Sizes of XMSS (R336). -/
def xmssN (v : Nat) : Nat := if v ≤ 3 then 32 else 24
def xmssH (v : Nat) : Nat := if v == 1 || v == 4 then 10 else if v == 2 || v == 5 then 16 else 20
def xmssPk (v : Nat) : Nat := 4 + 2 * xmssN v
def xmssSig (v : Nat) : Nat := 4 + xmssN v * ((if v ≤ 3 then 68 else 52) + xmssH v)

/-- The type code at position `i` of four big-endian codes (R331). -/
def lmsType (l : Bytes) (i : Nat) : Nat := beNat (slice l (4 * i) 4)
/-- Hash output length and height of an LMS type; hash output length and chain count of an LM-OTS type. -/
def lmsN (t : Nat) : Nat := if t ≤ 9 then 32 else 24
def lmsH (t : Nat) : Nat := if t ≤ 9 then 5 * (t - 4) else 5 * (t - 9)
def otsN (t : Nat) : Nat := if t ≤ 4 then 32 else 24
def otsP (t : Nat) : Nat :=
  if t == 1 then 265 else if t == 2 then 133 else if t == 3 then 67 else if t == 4 then 34
  else if t == 5 then 200 else if t == 6 then 101 else if t == 7 then 51 else 26
def lmsTypeOk (t : Nat) : Bool := 5 ≤ t && t ≤ 0xE
def otsTypeOk (t : Nat) : Bool := 1 ≤ t && t ≤ 8
/-- One level's pair of codes: accepted, with one hash output length (assumption 15). -/
def lmsLevelOk (l : Bytes) (i : Nat) : Bool :=
  lmsTypeOk (lmsType l (2 * i)) && otsTypeOk (lmsType l (2 * i + 1)) && lmsN (lmsType l (2 * i)) == otsN (lmsType l (2 * i + 1))
/-- The four codes fit the variant (R331). -/
def lmsTypesOk (variant : Nat) (l : Bytes) : Bool :=
  lmsLevelOk l 0 && (if variant == 3 then lmsLevelOk l 1 && lmsN (lmsType l 0) == lmsN (lmsType l 2)
                     else allZero (slice l 8 8))
/-- Public-key and signature lengths of LMS and HSS (R336). -/
def lmsSig1 (l : Bytes) (i : Nat) : Nat :=
  12 + lmsN (lmsType l (2 * i)) * (otsP (lmsType l (2 * i + 1)) + 1 + lmsH (lmsType l (2 * i)))
def lmsPk (variant : Nat) (l : Bytes) : Nat := 24 + lmsN (lmsType l 0) + (if variant == 1 then 0 else 4)
def lmsSig (variant : Nat) (l : Bytes) : Nat :=
  if variant == 1 then lmsSig1 l 0 else if variant == 2 then 4 + lmsSig1 l 0
  else 4 + lmsSig1 l 0 + (24 + lmsN (lmsType l 2)) + lmsSig1 l 1
/-- Lengths of the tree cache (R350). -/
def lmsUpper (l : Bytes) : Nat := 32 * (2 ^ (lmsH (lmsType l 0) - 1) - 1)
def lmsRegion (l : Bytes) : Nat := 64 + 32 * (2 ^ (lmsH (lmsType l 2) - 1) - 1) + roundUp (lmsSig1 l 0) 16
def lmsCache (variant : Nat) (l : Bytes) : Nat := 128 + lmsUpper l + (if variant == 3 then 2 * lmsRegion l else 0)

/-! ## Fields used -/

def usesSrc (op : Nat) : Bool :=
  (0x10 ≤ op && op ≤ 0x18) || (0x20 ≤ op && op ≤ 0x25) || op == 0x30 || op == 0x32
    || (0x41 ≤ op && op ≤ 0x4B) || [0x51, 0x52, 0x55, 0x56].contains op || (0x59 ≤ op && op ≤ 0x5D)
def usesDst (op : Nat) : Bool :=
  (0x10 ≤ op && op ≤ 0x14) || op == 0x18 || [0x20, 0x21, 0x23, 0x25].contains op || (0x30 ≤ op && op ≤ 0x34)
    || [0x40, 0x41, 0x43, 0x44, 0x46, 0x48, 0x49, 0x4A, 0x4B, 0x50, 0x51, 0x52, 0x54, 0x55, 0x58, 0x59, 0x5C].contains op
def usesAux (d : Desc) : Bool :=
  let op := d.op
  [0x12, 0x13, 0x15, 0x18, 0x22, 0x24, 0x31, 0x32, 0x33, 0x40, 0x43, 0x45, 0x46, 0x50, 0x51, 0x52, 0x54, 0x56, 0x59, 0x5A, 0x5B, 0x5D].contains op
    || (op == 0x23 && d.stateMode ≤ 1) || (op == 0x25 && d.stateMode ≤ 1 && (d.alg == 0x23 || d.alg == 0x24))
    || (op == 0x30 && d.variant != 0) || (op == 0x58 && d.variant != 0x04)
/-- An attribute block is read (R171, R318, R333, R338). -/
def attrAddr (d : Desc) : Option Addr :=
  let op := d.op
  if (op == 0x30 && d.variant != 0) || op == 0x31 || op == 0x32 || op == 0x33 || op == 0x40 || op == 0x50 || op == 0x54
    || (op == 0x58 && d.variant != 0x04) then some d.aux
  else if [0x43, 0x46, 0x51, 0x52].contains op && d.aux != 0 then some d.aux else none

/-! ## Parameter blocks -/

/-- Source and destination modes of a splice (R250), and its block's fields (R251). -/
def spSrc (d : Desc) : Nat := d.variant.toNat % 16
def spDst (d : Desc) : Nat := d.variant.toNat / 16
def spTapAlg (p : Bytes) : Nat := field p 2 1
def spDstBlob (p : Bytes) : Bool := field p 3 1 % 2 == 1
def spDstRef (p : Bytes) : Nat := field p 8 8
def spDstIv (p : Bytes) : Bytes := slice p 16 16
def spSrcTag (p : Bytes) : Nat := field p 32 8
def spDstTag (p : Bytes) : Nat := field p 40 8
def spTap (p : Bytes) : Nat := field p 48 8
def spSave (p : Bytes) : Nat := field p 56 8
/-- KMAC and cSHAKE block fields (R273). -/
def kmName (p : Bytes) : Bytes := slice p 16 (field p 0 1)
def kmCust (p : Bytes) : Bytes := slice p 80 (field p 1 1)
def kmExp (p : Bytes) : Nat := field p 8 8

/-- The mode pairing of R253. -/
def pairOk (d : Desc) : Bool := [2, 3, 4, 5, 6, 9].contains (spSrc d) && [3, 4, 5, 6, 9].contains (spDst d)

/-! ## Output length (R88, R280, R315, R334) -/

/-- Length of a key's material an opcode writes or a result record: fixed output lengths where the key does
not decide it; `matLen` is the subject's length for KEY_WRAP. -/
def outLen (b : Block) (d : Desc) (keyTypes : Bytes) (matLen : Nat) : Nat :=
  let v := d.variant.toNat
  match d.op with
  | 0x10 | 0x11 => d.sLen
  | 0x12 | 0x13 | 0x18 => d.payload
  | 0x14 => tagLen d.mode d.param
  | 0x20 | 0x21 => if d.stateMode == 1 || d.stateMode == 2 then 280 else digestLen d.alg
  | 0x23 | 0x25 => if d.stateMode == 1 || d.stateMode == 2 then 280 else d.aLen
  | 0x30 | 0x32 | 0x33 => 16
  | 0x31 => if v == 0 then 80 + roundUp matLen 16 else if v == 1 then matLen + 8 else roundUp matLen 8 + 8
  | 0x34 => d.aLen
  | 0x40 => 16 + ecPubLen b v
  | 0x41 => 2 * (curveLens b v).2
  | 0x43 => if d.aux == 0 then (curveLens b v).1 else 16
  | 0x44 => if v == 0x10 then 64 else 114
  | 0x46 => if d.aux == 0 then (if v == 0x18 then 32 else 56) else 16
  | 0x48 | 0x49 | 0x4A | 0x4B => 8 * v
  | 0x50 => 16 + kemEk v
  | 0x51 => if d.aux == 0 then kemC v + 32 else 16 + kemC v
  | 0x52 => if d.aux == 0 then 32 else 16
  | 0x54 => 16 + dsaPk v
  | 0x55 => dsaSig (dsaSet v)
  | 0x58 => if v == 4 then lmsRegion keyTypes else lmsCache v d.iv
  | 0x59 => lmsSig v keyTypes
  | 0x5C => slhSig v
  | _ => 0

/-! ## Admission -/

/-- VARIANT_UNSUPPORTED (R82, R90, R91, R93, R170, R250, R252, R253, R274, R280, R312, R331). -/
def variantBad (d : Desc) (p : Option Bytes) : Bool :=
  let v := d.variant.toNat
  let curve := 1 ≤ v && v ≤ 3 || (curveSlot v).isSome
  match d.op with
  | 0x00 => false
  | 0x01 => 1 < v
  | 0x10 | 0x11 => !([1, 2, 3, 4].contains d.mode && paramOk d.mode d.param)
  | 0x12 | 0x13 => !([5, 6, 9].contains d.mode && paramOk d.mode d.param)
  | 0x14 | 0x15 => !([7, 8].contains d.mode && paramOk d.mode d.param)
  | 0x18 => d.aux == 0 || !pairOk d || (match p with
      | none => false
      | some p => !(paramOk (spSrc d) (field p 0 1) && paramOk (spDst d) (field p 1 1)
          && [0, 0x12, 0x14].contains (spTapAlg p)))
  | 0x20 | 0x21 | 0x23 | 0x25 => !digestAlgOk d.op d.alg
  | 0x22 => !digestAlgOk d.op d.alg || d.stateMode == 1 || d.stateMode == 2
  | 0x24 => !digestAlgOk d.op d.alg || d.stateMode == 1 || d.stateMode == 2 || d.aux == 0
  | 0x30 | 0x31 => 2 < v
  | 0x32 => v < 1 || 5 < v
  | 0x33 | 0x34 => v != 0
  | 0x40 => !(curve || [0x10, 0x11, 0x18, 0x19].contains v)
  | 0x41 | 0x42 | 0x43 => !curve
  | 0x44 | 0x45 => !(v == 0x10 || v == 0x11)
  | 0x46 => !(v == 0x18 || v == 0x19)
  | 0x48 | 0x49 => v < 32 || 128 < v
  | 0x4A | 0x4B => v < 1 || 128 < v
  | 0x50 | 0x51 | 0x52 | 0x54 => v < 1 || 3 < v
  | 0x55 | 0x56 => dsaSet v == 0 || v % 128 / 4 != 0
  | 0x58 => v < 1 || 4 < v || (v != 4 && !lmsTypesOk v d.iv)
  | 0x59 => v < 1 || 3 < v
  | 0x5A => v < 1 || 3 < v || !lmsTypesOk v d.iv
  | 0x5B => v < 1 || 6 < v
  | 0x5C => !([3, 4, 7, 8, 0xB, 0xC].contains v)
  | 0x5D => v < 1 || 12 < v
  | _ => false

/-- A chute's binding admits a stall's job (R451). -/
def chuteAdmits (b : Block) (c n : Nat) : Bool :=
  let w := (b.chute c).bind
  let kind := w.toNat / 4096 % 4
  kind == 2 || (kind == 1 && w.toNat % 512 == n)

/-- The chutes a descriptor names: inbound 0 to 3, outbound 4 to 7 (R79). -/
def inChute (d : Desc) : Option Nat := if d.srcChute then some (d.src.toNat % 4) else none
def outChute (d : Desc) : Option Nat := if d.dstChute then some (4 + d.dst.toNat % 4) else none

/-- FLAGS_INVALID (R75, R77, R79, R170, R252, R274, R317, R335, R451). -/
def flagsBad (b : Block) (n : Nat) (d : Desc) (p : Option Bytes) : Bool :=
  let op := d.op
  8192 ≤ d.flags.toNat
    || (d.srcFrag && d.srcChute) || (d.dstFrag && d.dstChute)
    || (d.stallKnot && !d.isKnotFlag && op != 0x01)
    || (d.nonceHw && !(op == 0x12 && aeadMode d.mode))
    || (d.checkPass && !([0x41, 0x44, 0x48].contains op))
    || (d.keyIsBlob && !takesKey d)
    || (d.srcChute && !((0x10 ≤ op && op ≤ 0x18) || (0x20 ≤ op && op ≤ 0x25)))
    || (d.dstChute && !([0x10, 0x11, 0x12, 0x13, 0x18].contains op))
    || (d.dstFrag && [0x14, 0x20, 0x21, 0x23].contains op)
    || (op ≤ 0x01 && (d.flags &&& 0x1F64) != 0)
    || (d.srcChute && 4 ≤ d.src.toNat) || (d.dstChute && 4 ≤ d.dst.toNat)
    || (d.dstFrag && 0x30 ≤ op && op ≤ 0x34 && op != 0x31 && op != 0x34)
    || (d.srcFrag && 0x30 ≤ op && op ≤ 0x34 && op != 0x30 && op != 0x32)
    || (d.dstFrag && 0x40 ≤ op)
    || (d.srcFrag && 0x40 ≤ op && op ≤ 0x4B && op != 0x44 && op != 0x45)
    || (d.srcFrag && 0x50 ≤ op && !([0x55, 0x56, 0x59, 0x5A, 0x5B, 0x5C, 0x5D].contains op))
    || ((inChute d).toList ++ (outChute d).toList).any (fun c => !chuteAdmits b c n)
    || (match p with
        | none => false
        | some p =>
          if op == 0x18 then field p 3 1 / 2 != 0 || !allZero (slice p 4 4)
          else !allZero (slice p 2 6) || !allZero (slice p 208 48)
            || ((op == 0x23 || (op == 0x24 && d.stateMode == 0)) && field p 0 1 != 0))

/-- MISALIGNED of descriptor and parameter-block addresses (R78, R252, R274, R281). -/
def misalignedAny (d : Desc) (p : Option Bytes) : Bool :=
  let op := d.op
  let off := fun (a : Nat) => a % 16 != 0
  (usesSrc op && !d.srcChute && off d.src.toNat) || (usesDst op && !d.dstChute && off d.dst.toNat)
    || (usesAux d && off d.aux.toNat) || (takesKey d && d.keyIsBlob && off d.keyRef.toNat)
    || (0x20 ≤ op && op ≤ 0x25 && 2 ≤ d.stateMode && off (field d.iv 0 8))
    || (match p with
        | none => false
        | some p =>
          if op == 0x18 then
            (spDstBlob p && off (spDstRef p)) || (aeadMode (spSrc d) && off (spSrcTag p))
              || (aeadMode (spDst d) && off (spDstTag p)) || (spTapAlg p != 0 && (off (spTap p) || off (spSave p)))
          else op == 0x24 && off (kmExp p))

/-- The length rules of a splice (R254). -/
def spliceLenBad (d : Desc) (p : Option Bytes) : Bool :=
  let pay := d.payload
  d.sLen < d.aLen || (d.aLen != 0 && !aeadMode (spSrc d) && !aeadMode (spDst d))
    || (d.dstChute && 65536 < pay) || (d.srcChute && spDst d == 6 && (65536 < pay || 4096 < d.aLen))
    || (match p with
        | none => false
        | some p => !(lenOk (spSrc d) (field p 0 1) d.iv pay && lenOk (spDst d) (field p 1 1) (spDstIv p) pay))

/-- The lower-tree index of LMS_KEYGEN variant 0x04 lies outside the level-1 tree of the key in the slot KEY_REF names (R335); a key
that comes as a blob is not there yet, and its decision compares the two (assumption 61). -/
def lowerIndexBad (b : Block) (d : Desc) : Bool :=
  let h := d.keyRef.toNat
  let s := b.slot (h % 8192)
  d.variant == 4 && !d.keyIsBlob && h < 2 ^ 20 && h / 8192 == s.gen.toNat % 128 && s.valid && !s.runPart && s.alg == 0x22
    && 2 ^ lmsH (lmsType (slice (xorBytes s.material s.mask) 48 16) 0) ≤ field d.iv 0 8

/-- LENGTH_OUT_OF_RANGE (R92, R93, R170, R226, R254, R274, R280, R315, R335). -/
def lengthBad (b : Block) (d : Desc) (p : Option Bytes) : Bool :=
  let v := d.variant.toNat
  let s := d.sLen
  let ctxBad := 255 < d.aLen || s < d.aLen || 65536 < s - d.aLen
  match d.op with
  | 0x10 | 0x11 => !lenOk d.mode d.param d.iv s
  | 0x12 => s < d.aLen || !lenOk d.mode d.param d.iv d.payload
      || (d.srcChute && d.mode == 6 && (65536 < d.payload || 4096 < d.aLen))
  | 0x13 => s < d.aLen || !lenOk d.mode d.param d.iv d.payload || (d.dstChute && 65536 < d.payload)
      || (d.srcChute && d.payload ≤ 65536 && 4096 < d.aLen)
  | 0x18 => spliceLenBad d p
  | 0x20 | 0x21 | 0x22 => (d.stateMode == 1 || d.stateMode == 2) && s % digestBlock d.alg != 0
  | 0x23 | 0x24 | 0x25 =>
    (if d.stateMode == 1 || d.stateMode == 2 then s % digestBlock d.alg != 0
     else d.aLen < (if d.op == 0x25 then 1 else 4))
      || (match p with
          | none => false
          | some p => !(d.op == 0x24 && d.stateMode == 3) && (64 < field p 0 1 || 128 < field p 1 1))
  | 0x30 => if v == 0 then s % 16 != 0 || s < 96 || 3152 < s else s % 8 != 0 || s < 24 || 3080 < s
  | 0x32 => s < 1 || 4096 < s
  | 0x34 => d.aLen < 1
  | 0x41 => s < 20 || 64 < s
  | 0x42 => let ln := curveLens b v; s < 2 * ln.1 + 2 * ln.2 + 20 || 2 * ln.1 + 2 * ln.2 + 64 < s
  | 0x43 => s != 2 * (curveLens b v).1
  | 0x44 | 0x45 => 65536 < s
  | 0x46 => s != (if v == 0x18 then 32 else 56)
  | 0x48 => s != 8 * v
  | 0x49 => s < 16 * v + 1 || 16 * v + 8 < s
  | 0x4A => s < 16 * v + 1 || 24 * v < s
  | 0x4B => s != 24 * v
  | 0x51 => s != kemEk v
  | 0x52 => s != kemC v
  | 0x55 | 0x56 => if 128 ≤ v then s != 64 || d.aLen != 0 else ctxBad
  | 0x58 => (v != 4 && (d.aLen < 4 || 15 < d.aLen)) || lowerIndexBad b d
  | 0x59 | 0x5A | 0x5B => 65536 < s
  | 0x5C | 0x5D => ctxBad
  | _ => false

/-- The upper bits of a handle (R80), of `DST_KEY_REF` too (R252). -/
def refBad (d : Desc) (p : Option Bytes) : Bool :=
  (takesKey d && !d.keyIsBlob && 2 ^ 24 ≤ d.keyRef.toNat)
    || (match p with
        | none => false
        | some p => d.op == 0x18 && !spDstBlob p && 2 ^ 24 ≤ spDstRef p)

/-- A public-key opcode without a program (R303, R305). -/
def programBad (b : Block) (d : Desc) : Bool :=
  0x40 ≤ d.op && !(b.pack.ready && b.pack.ops.getLsbD (d.op - 0x40))

/-- A hardware nonce cannot be drawn (R212, R213). -/
def nonceBad (b : Block) (n : Nat) (d : Desc) : Bool :=
  d.nonceHw && (b.boot.nonceState != 0 || 2 ^ 54 ≤ (b.stall n).nonceCount)

/-- Breaches of R81 at a ring whose open rope is `rope`. -/
def ropeBad (rope : Option (Nat × Nat)) (d : Desc) : Bool :=
  match rope with
  | none => false
  | some (_, k) => d.isKnot || d.stallKnot || (k == 63 && d.ropeNext)

/-- The curve of a variant is not loaded (R312, R327). -/
def curveBad (b : Block) (d : Desc) : Bool :=
  0x40 ≤ d.op && d.op ≤ 0x43 && (match curveSlot d.variant.toNat with
    | some c => (b.curves.get c).state != 1
    | none => false)

/-- Opcodes whose length rule takes its lengths from the curve: with no curve loaded it has nothing to compare (R315). -/
def curveLength (op : Nat) : Bool := op == 0x42 || op == 0x43

/-- Every admission condition of a descriptor (R100); a failed descriptor read reports PORT_ERROR alone (R542). -/
def admission (b : Block) (n r : Nat) (c : Captured) : List Status :=
  let d := c.desc
  let p := match c.pblk with | .got x => some x | _ => none
  if d.bad then [.portError]
  else if !opKnown d.op then [.opcodeUnknown]
  else
    cond (variantBad d p) .variantUnsupported ++ cond (flagsBad b n d p) .flagsInvalid
      ++ cond (ropeBad (b.ring n r).rope d) .ropeLinkInvalid ++ cond (refBad d p) .keyNotFound
      ++ cond (misalignedAny d p) .misaligned ++ cond (!variantBad d p && !(curveBad b d && curveLength d.op) && lengthBad b d p) .lengthOutOfRange
      ++ cond (curveBad b d) .curveNotLoaded ++ cond (programBad b d) .noProgram
      ++ cond (nonceBad b n d) .nonceUnavailable ++ cond (c.pblk == .failed) .portError

end Sys2Proof.Machine
end

