-- ==== Sys2Proof/Machine/Cipher.lean ====
section
/-!
DEFINITION. The cipher modes (R200 to R209, R218): what a lane computes from key, `IV`, AAD and payload.
AES blocks, tags and the ChaCha20 keystream are the standards' own functions (`Config`, assumption 3).
-/

namespace Sys2Proof.Machine

def encBlock (key x : Bytes) : Bytes := fit 16 (Config.aesEnc key x)
def decBlock (key x : Bytes) : Bytes := fit 16 (Config.aesDec key x)

/-- ECB. -/
def ecb (dec : Bool) (key src : Bytes) : Bytes := (chunks 16 src).flatMap (if dec then decBlock key else encBlock key)

/-- CBC over a list of blocks. -/
def cbcEnc (key : Bytes) : Bytes → List Bytes → Bytes
  | _, [] => []
  | iv, x :: l => let c := encBlock key (xorBytes x iv); c ++ cbcEnc key c l
def cbcDec (key : Bytes) : Bytes → List Bytes → Bytes
  | _, [] => []
  | iv, x :: l => xorBytes (decBlock key x) iv ++ cbcDec key x l

/-- The counter block `i` after the initial one: one is added to the counter field, never beyond it (R203). -/
def ctrBlock (bits : Nat) (iv : Bytes) (i : Nat) : Bytes :=
  let k := bits / 8
  iv.take (16 - k) ++ toBe k ((beNat (iv.drop (16 - k)) + i) % 2 ^ bits)

/-- The last block of `x`, or `iv` before the first. -/
def lastBlockOf (iv x : Bytes) : Bytes := if x == [] then iv else x.drop (x.length - 16)

/-- CTR keystream over a list of blocks. -/
def ctrGo (key : Bytes) (bits : Nat) (iv : Bytes) : Nat → List Bytes → Bytes
  | _, [] => []
  | i, x :: l => xorBytes x (encBlock key (ctrBlock bits iv i)) ++ ctrGo key bits iv (i + 1) l
def ctr (key : Bytes) (bits : Nat) (iv src : Bytes) : Bytes := ctrGo key bits iv 0 (chunks 16 src)

/-- The little-endian 32-bit counter of GCM-SIV (RFC 8452). -/
def sivCtrGo (key : Bytes) (iv : Bytes) : Nat → List Bytes → Bytes
  | _, [] => []
  | i, x :: l =>
    xorBytes x (encBlock key (toLe 4 ((leNat (iv.take 4) + i) % 2 ^ 32) ++ iv.drop 4)) ++ sivCtrGo key iv (i + 1) l

/-- Multiplication of an XTS tweak by alpha (IEEE 1619). -/
def xtsNext (t : Bytes) : Bytes :=
  let n := leNat t * 2
  toLe 16 (if n < 2 ^ 128 then n else (n % 2 ^ 128) ^^^ 0x87)

/-- One XTS block. -/
def xtsBlock (dec : Bool) (key t x : Bytes) : Bytes :=
  xorBytes ((if dec then decBlock key else encBlock key) (xorBytes x t)) t

/-- The blocks of one data unit; a short last block steals ciphertext (R204). -/
def xtsBlocks (dec : Bool) (key : Bytes) : Bytes → List Bytes → Bytes
  | _, [] => []
  | t, [x] => xtsBlock dec key t x
  | t, x :: y :: l =>
    if y.length < 16 then
      let first := xtsBlock dec key (if dec then xtsNext t else t) x
      xtsBlock dec key (if dec then t else xtsNext t) (y ++ first.drop y.length) ++ first.take y.length
    else xtsBlock dec key t x ++ xtsBlocks dec key (xtsNext t) (y :: l)

/-- The data units of a job: unit `k` has number `s + k`, encrypted under the second half of the key (R204, R205). -/
def xtsGo (dec : Bool) (k1 k2 : Bytes) : Nat → List Bytes → Bytes
  | _, [] => []
  | u, x :: l => xtsBlocks dec k1 (encBlock k2 (toLe 16 u)) (chunks 16 x) ++ xtsGo dec k1 k2 (u + 1) l
def xts (dec : Bool) (key : Bytes) (param : Nat) (iv src : Bytes) : Bytes :=
  let h := key.length / 2
  xtsGo dec (key.take h) (key.drop h) (xtsStart iv) (chunks (xtsUnit param) src)

/-- ChaCha20 keystream from block counter 1 (RFC 8439). -/
def chachaGo (key nonce : Bytes) : Nat → List Bytes → Bytes
  | _, [] => []
  | i, x :: l => xorBytes x (fit 64 (Config.chachaBlock key nonce i)) ++ chachaGo key nonce (i + 1) l

/-- The full tag of an authenticated mode: `text` is the ciphertext for GCM and ChaCha20-Poly1305, the
plaintext for GCM-SIV. -/
def fullTag (mode : Nat) (key nonce aad text : Bytes) : Bytes := fit 16 (Config.macTag mode key (nonce.take 12) aad text)
/-- A truncated tag is the leftmost bytes (R207). -/
def tagOf (mode param : Nat) (key nonce aad text : Bytes) : Bytes := (fullTag mode key nonce aad text).take (tagLen mode param)

/-- The keystream mode of an authenticated mode; GCM-SIV takes its counter from the full tag. -/
def aeadStream (mode : Nat) (key nonce tag src : Bytes) : Bytes :=
  if mode == 5 then ctr key 32 (nonce.take 12 ++ [0, 0, 0, 2]) src
  else if mode == 6 then
    sivCtrGo (fit key.length (Config.sivEncKey key (nonce.take 12)))
      (tag.take 15 ++ [(tag.getD 15 0) ||| 0x80]) 0 (chunks 16 src)
  else chachaGo key (nonce.take 12) 1 (chunks 64 src)

/-- ENCRYPT and DECRYPT of a mode. -/
def plainCipher (dec : Bool) (mode param : Nat) (key iv src : Bytes) : Bytes :=
  if mode == 1 then ecb dec key src
  else if mode == 2 then (if dec then cbcDec key iv (chunks 16 src) else cbcEnc key iv (chunks 16 src))
  else if mode == 3 then ctr key (ctrBits param) iv src
  else xts dec key param iv src

/-- Sealing: ciphertext and truncated tag. -/
def sealText (mode param : Nat) (key nonce aad pt : Bytes) : Bytes × Bytes :=
  if mode == 6 then (aeadStream 6 key nonce (fullTag 6 key nonce aad pt) pt, tagOf 6 param key nonce aad pt)
  else let ct := aeadStream mode key nonce [] pt; (ct, tagOf mode param key nonce aad ct)

/-- Opening: plaintext and the tag it should have; GCM-SIV takes its counter from the expected tag (R208). -/
def openText (mode param : Nat) (key nonce aad expected ct : Bytes) : Bytes × Bytes :=
  if mode == 6 then let pt := aeadStream 6 key nonce expected ct; (pt, tagOf 6 param key nonce aad pt)
  else (aeadStream mode key nonce [] ct, tagOf mode param key nonce aad ct)

/-- The tag of CMAC over a message, or of GMAC over it as authenticated data (R88, R206). -/
def macOf (mode param : Nat) (key nonce msg : Bytes) : Bytes :=
  if mode == 8 then tagOf 8 param key nonce msg [] else tagOf 7 param key [] [] msg

end Sys2Proof.Machine
end

