-- ==== Sys2Proof/Machine/CoreTime.lean ====
section
/-!
DEFINITION. Core times of public-key jobs in ns (R306, R308 to R311, R321, R342, R343), as the yard estimates them
from a descriptor and, once it is there, the job's key (R362).
-/

namespace Sys2Proof.Machine

/-- Further blocks of a message longer than 64 bytes (R308, R343; assumption 22). -/
def moreBlocks (len block : Nat) : Nat := ceilDiv (len - 64) block

/-- Times of a curve operation in µs. -/
structure CurveUs where
  keygen : Nat
  sign : Nat
  verify : Nat
  ecdh : Nat
  deriving DecidableEq, Repr

/-- On the built-in curves (R308). -/
def builtInUs (v : Nat) : CurveUs :=
  match v with
  | 0x01 => ⟨20, 21, 34, 24⟩ | 0x02 => ⟨55, 58, 92, 66⟩ | 0x03 => ⟨143, 150, 240, 171⟩ | 0x10 => ⟨17, 19, 40, 0⟩
  | 0x11 => ⟨69, 77, 162, 0⟩ | 0x18 => ⟨17, 0, 0, 17⟩ | _ => ⟨69, 0, 0, 69⟩
/-- On a loaded curve of word size `w` (R309). -/
def loadedUs (w : Nat) : CurveUs :=
  if w ≤ 192 then ⟨10, 11, 17, 12⟩ else if w ≤ 256 then ⟨20, 21, 34, 24⟩ else if w ≤ 320 then ⟨35, 37, 59, 42⟩
  else if w ≤ 384 then ⟨55, 58, 92, 66⟩ else if w ≤ 448 then ⟨81, 86, 136, 97⟩ else if w ≤ 512 then ⟨113, 120, 189, 136⟩
  else ⟨152, 160, 254, 182⟩
def curveUs (b : Block) (v : Nat) : CurveUs :=
  match curveSlot v with
  | none => builtInUs v
  | some c => loadedUs (field (b.curves.get c).record 6 2)
/-- The subgroup check of a loaded curve whose cofactor exceeds 1. -/
def subgroupUs (b : Block) (v : Nat) : Nat :=
  match curveSlot v with
  | none => 0
  | some c => if 1 < field (b.curves.get c).record 8 1 then (curveUs b v).ecdh else 0
/-- What a long message adds to one pass of an EdDSA operation. -/
def eddsaMore (v len : Nat) : Nat := if v == 0x10 then 34 * moreBlocks len 128 else 20 * moreBlocks len 136

/-- The Montgomery multiplication time for `w` bits (R311). -/
def montgomeryNs (bits : Nat) : Nat :=
  [11, 43, 96, 171, 267, 385, 524, 684, 866, 1070, 1290, 1540, 1810, 2100, 2410, 2740].getD (ceilDiv bits 512 - 1) 2740
/-- An exponentiation by an exponent of `n` bits. -/
def powerNs (bits n : Nat) : Nat := (2 * n + 1) * montgomeryNs bits
/-- RSA_PRIVATE (R310). -/
def rsaPrivateNs (bits : Nat) : Nat :=
  if bits ≤ 2048 then 240000 else if bits ≤ 3072 then 790000 else if bits ≤ 4096 then 1700000 else if bits ≤ 6144 then 5300000 else 12500000
def bitLength (n : Nat) : Nat := if n = 0 then 0 else n.log2 + 1

/-- ML-KEM and ML-DSA (R342), in µs: by set, key generation, second and third column; a signing runs five rounds (R362). -/
def latticeUs (op set : Nat) : Nat :=
  let pick := fun l : List Nat => l.getD (set - 1) 0
  match op with
  | 0x50 => pick [6, 9, 13] | 0x51 => pick [7, 11, 16] | 0x52 => pick [9, 13, 19] | 0x54 => pick [24, 38, 60]
  | 0x55 => pick [20 + 5 * 15, 30 + 5 * 22, 46 + 5 * 33] | _ => pick [23, 34, 55]

/-- The leaf time of an LM-OTS type (R343). -/
def leafNs (t : Nat) : Nat := [11900, 17900, 45000, 388000, 9000, 13600, 34300, 297000].getD (t - 1) 0
/-- LMS operations by the four type codes. -/
def lmsNs (op variant : Nat) (codes : Bytes) : Nat :=
  let t1 := leafNs (lmsType codes 1)
  let t2 := leafNs (lmsType codes 3)
  match op with
  | 0x58 => if variant == 4 then 2 ^ lmsH (lmsType codes 2) * t2 + 4 * t1 else 2 ^ lmsH (lmsType codes 0) * t1
  | 0x59 => 4 * (if variant == 3 then t2 else t1)
  | _ => 2 * t1 + (if variant == 3 then 2 * t2 else 0)

/-- SLH-DSA by variant code, in µs (R343). -/
def slhSignUs (v : Nat) : Nat := [0, 0, 9000, 6800, 0, 0, 15000, 11000, 0, 0, 31000, 23000].getD (v - 1) 0
def slhVerifyUs (v : Nat) : Nat := [220, 170, 600, 450, 330, 250, 880, 660, 480, 360, 950, 710].getD (v - 1) 0
/-- A further block time of its message hash. -/
def slhMore (v len : Nat) : Nat :=
  if v % 2 == 0 then 20 * moreBlocks len 136 else if v ≤ 4 then 27 * moreBlocks len 64 else 33 * moreBlocks len 128

/-- The core time of a public-key job. The yard has not read an exponent in the source, and before the key has come it does
not know an exponent or type codes of the key either: those are free (assumption 22). -/
def coreTimeNs (b : Block) (d : Desc) (key : Option Bytes) : Nat :=
  let v := d.variant.toNat
  let c := curveUs b v
  let bits := 64 * v
  let check := fun n => if d.checkPass then n else 0
  let eBits := match key with | some m => bitLength (beNat (m.take 8)) | none => Config.unreadExponentBits d.op 8
  match d.op with
  | 0x40 => 1000 * c.keygen
  | 0x41 => 1000 * (c.sign + check c.verify)
  | 0x42 => 1000 * (c.verify + subgroupUs b v)
  | 0x43 | 0x46 => 1000 * c.ecdh
  | 0x44 => 1000 * c.sign + 2 * eddsaMore v d.sLen + check (1000 * c.verify + eddsaMore v d.sLen)
  | 0x45 => 1000 * c.verify + eddsaMore v d.sLen
  | 0x48 => rsaPrivateNs bits + check (powerNs bits eBits)
  | 0x49 | 0x4A => powerNs bits (Config.unreadExponentBits d.op (d.sLen - 16 * v))
  | 0x4B => 4 * montgomeryNs bits
  | 0x50 | 0x51 | 0x52 | 0x54 => 1000 * latticeUs d.op v
  | 0x55 | 0x56 => 1000 * latticeUs d.op (v % 4) + 20 * moreBlocks d.sLen 136
  | 0x58 => if v == 4 then (match key with | some m => lmsNs 0x58 4 (slice m 48 16) | none => Config.unreadKeyTime 0x58 4) else lmsNs 0x58 v d.iv
  | 0x59 => (match key with | some m => lmsNs 0x59 v (slice m 48 16) | none => Config.unreadKeyTime 0x59 v) + 27 * moreBlocks d.sLen 64
  | 0x5A => lmsNs 0x5A v d.iv + 27 * moreBlocks d.sLen 64
  | 0x5B => (if xmssN v == 32 then 270000 else 206000) + 27 * moreBlocks d.sLen 64
  | 0x5C => 1000 * slhSignUs v + 2 * slhMore v d.sLen
  | 0x5D => 1000 * slhVerifyUs v + slhMore v d.sLen
  | _ => 0

end Sys2Proof.Machine
end

