-- ==== Sys2Proof/Machine/Progress.lean ====
section
/-!
DEFINITION. How far a job on its engine has come: what it has of its source, where it may stop, and what a fixity tap has taken in
(R233, R249, R285).
-/

namespace Sys2Proof.Machine

/-! ## What a job has of its source -/

/-- Bytes that have arrived without a gap from offset `from`. -/
def contigFrom : Nat → List (Nat × Bytes) → Bytes
  | _, [] => []
  | o, p :: l => if p.1 == o then p.2 ++ contigFrom (o + p.2.length) l else []
/-- Source bytes a running job has, from its first byte. -/
def haveSrc (j : Job) : Bytes :=
  if j.desc.srcChute then j.chuteIn else j.seen ++ contigFrom j.seen.length j.src.parts
/-- Payload bytes the second pass has, from its first byte (R208, R263). -/
def have2 (j : Job) : Bytes := j.seen2 ++ contigFrom (j.desc.aLen + j.seen2.length) j.again.parts
/-- Source bytes, AAD included, that a job can have consumed in the pass it is in, and had when it came to its engine. -/
def haveLen (j : Job) : Nat := if j.pass2 then j.desc.aLen + (have2 j).length else (haveSrc j).length
def seenLen (j : Job) : Nat := if j.pass2 then j.desc.aLen + j.seen2.length else j.seen.length
/-- The block of a lane's work: 64 bytes of ChaCha20 keystream, 16 of AES, or a digest's (R233, R285). -/
def blockUnit (d : Desc) : Nat :=
  if d.op == 0x18 then (if spSrc d == 9 || spDst d == 9 then 64 else 16)
  else if 0x20 ≤ d.op then digestBlock d.alg else if d.mode == 9 then 64 else 16
/-- `k` source bytes end at a boundary a lane may leave at (R233, R285): AAD done or not begun in part of a block, a block
boundary, never between the last two blocks of an XTS unit that steals. -/
def boundary (j : Job) (k : Nat) : Bool :=
  let d := j.desc
  let aad := d.op == 0x12 || d.op == 0x13 || d.op == 0x18
  let off := if aad && d.aLen ≤ k then k - d.aLen else k
  let pay := if aad then d.payload else d.sLen
  let xts := if d.op == 0x18 then spSrc d == 4 || spDst d == 4 else d.op ≤ 0x11 && d.mode == 4
  off % blockUnit d == 0 && k < d.sLen && !(xts && pay % 16 != 0 && (!aad || d.aLen ≤ k) && pay < off + 16)
/-- Where a lane that stops short of its job's end has come to: a boundary that no command tells, a free number of blocks past where
the job came to the lane (R229, R233). -/
def blocksIn (b : Block) (j : Job) : Nat :=
  let n := (min (haveLen j) (j.desc.sLen - 1) - seenLen j) / blockUnit j.desc
  seenLen j + blockUnit j.desc * (Config.freeNat b.free % (n + 1))
/-- The source bytes a job has consumed when an error or an abort stops it: only one that runs has gone on since it came. -/
def consumedAt (b : Block) (j : Job) : Nat :=
  if j.stage == .running && boundary j (blocksIn b j) then blocksIn b j else seenLen j

/-! ## Output of a job on its way -/

/-- Material of a job's `k`-th key. -/
def keyAt (j : Job) (k : Nat) : Bytes := (j.keys.getD k {}).material
/-- The plaintext a splice's source lane makes of payload bytes (R247). -/
def splicePt (j : Job) (pay : Bytes) : Bytes :=
  let d := j.desc
  if aeadMode (spSrc d) then aeadStream (spSrc d) (keyAt j 0) d.iv (fit 16 j.aux.bytes) pay
  else plainCipher true (spSrc d) (field j.pblk 0 1) (keyAt j 0) d.iv pay
/-- A job whose output waits in staging until its checks have passed: it leaves by withdrawal (R222, R234, R262). -/
def stagedOut (j : Job) : Bool := (j.desc.op == 0x13 || j.desc.op == 0x18) && j.desc.payload ≤ 65536
/-- A staged job that leaves by withdrawal starts over. A chute's packet is not there again for a splice that does not land it: such a
splice leaves as data and what it has put into staging stays its own (R234, R265, R454; DEDUCED, assumption 27). -/
def withdraws (j : Job) : Bool := stagedOut j && !(j.desc.op == 0x18 && j.desc.srcChute && spDst j.desc != 6)
/-- Bytes 0 to 11 of the nonce a sealing job uses. -/
def jobIv (j : Job) : Bytes := if j.desc.nonceHw then j.nonce ++ zeros 4 else j.desc.iv

/-- Output released once `k` source bytes have been consumed (R201, R223, R263). -/
def outputAt (j : Job) (src : Bytes) (k : Nat) : Bytes :=
  let d := j.desc
  let pre := src.take k
  let pay := (src.take k).drop d.aLen
  match d.op with
  | 0x10 | 0x11 => plainCipher (d.op == 0x11) d.mode d.param (keyAt j 0) d.iv pre
  | 0x12 => if d.mode == 6 then [] else aeadStream d.mode (keyAt j 0) (jobIv j) [] pay
  | 0x13 => if stagedOut j then [] else aeadStream d.mode (keyAt j 0) d.iv (fit 16 j.aux.bytes) pay
  | 0x18 =>
    if stagedOut j || spDst d == 6 then []
    else
      let pt := splicePt j pay
      if aeadMode (spDst d) then aeadStream (spDst d) (keyAt j 1) (spDstIv j.pblk) [] pt
      else plainCipher false (spDst d) (field j.pblk 1 1) (keyAt j 1) (spDstIv j.pblk) pt
  | _ => []

/-- The output a lane releases needs its expected tag, and a tap's expected digest, first (R207, R260). -/
def mayRelease (j : Job) (out : Bytes) : Bool := out.length ≤ j.dstDone || (j.aux.full && j.exp.full)

/-- Output of the pass a job is in, once `k` source bytes of it have been consumed. -/
def passOut (j : Job) (k : Nat) : Bytes :=
  if !j.pass2 then outputAt j (haveSrc j) k
  else
    let d := j.desc
    let aad := (haveSrc j).take d.aLen
    let pay := (have2 j).take (k - d.aLen)
    if d.op == 0x18 then
      aeadStream 6 (keyAt j 1) (spDstIv j.pblk) (fullTag 6 (keyAt j 1) (spDstIv j.pblk) aad (splicePt j ((haveSrc j).drop d.aLen)))
        (splicePt j pay)
    else aeadStream 6 (keyAt j 0) (jobIv j) (fullTag 6 (keyAt j 0) (jobIv j) aad ((haveSrc j).drop d.aLen)) pay

/-! ## The fixity tap (R247, R249, R266) -/

/-- The saved tap state read back, when it opens: its GCM tag alone is asked, no field of its header (R266; DEDUCED, assumption 118). -/
def tapSeal (b : Block) (j : Job) : Option Bytes :=
  if j.restore.want != 0 && j.restore.full then
    Config.gcmOpen (stateKey b) (slice j.restore.bytes 32 12) (j.restore.bytes.take 64) (slice j.restore.bytes 64 216)
  else none
/-- The tap's state and position as its saved area gives them, or at its start (R249, R266). -/
def tapStart (b : Block) (j : Job) : Bytes × Nat :=
  match tapSeal b j with
  | some st => (fit 200 st, field j.restore.bytes 16 8)
  | none => (zeros 200, 0)
/-- The tap's state after the first `n` plaintext bytes of `pt`: from where the saved state stands on. -/
def tapAt (b : Block) (j : Job) (pt : Bytes) : Bytes :=
  let a := spTapAlg j.pblk
  let s := tapStart b j
  spongeTake a s.1 (s.2 % digestBlock a) (pt.drop s.2)
/-- Payload bytes the tap has taken in when a splice leaves at `k`: the whole payload once the second pass has begun (R263). -/
def tapped (j : Job) (k : Nat) : Nat := if j.pass2 then j.desc.payload else k - j.desc.aLen

/-- The tap's state when a splice stops after `n` payload bytes of the pass it is in, and the bytes it covers: no fewer than its saved state
did. Until a saved state that it reads back has come there is none, and once it has left its pair its save area has it (R249, R266). -/
def tapHeld (b : Block) (j : Job) (n : Nat) : Option (Nat × Bytes) :=
  if j.desc.op == 0x18 && spTapAlg j.pblk != 0 && j.restore.full && j.keys != [] then
    some (max n (tapStart b j).2, fit 200 (tapAt b j (splicePt j (((haveSrc j).drop j.desc.aLen).take n))))
  else none

end Sys2Proof.Machine
end

