-- ==== Sys2Proof/Machine/Stream.lean ====
section
/-!
DEFINITION. Stream items and chutes (R443 to R457): release, draining, flushing, taking a job's packet and
writing one.
-/

namespace Sys2Proof.Machine

def Item.valid (i : Item) : Bool := i.ctl.getLsbD 0
def Item.isIdle (i : Item) : Bool := i.ctl.getLsbD 3
/-- The bounds of a packet; an `IDLE` item is discarded and bounds none (R453). -/
def Item.sop (i : Item) : Bool := i.ctl.getLsbD 1 && !i.isIdle
def Item.eop (i : Item) : Bool := i.ctl.getLsbD 2 && !i.isIdle
def Item.isAbort (i : Item) : Bool := i.ctl.getLsbD 4
def Item.count (i : Item) : Nat := i.ctl.toNat / 32 % 32 + 1
def Item.bytes (i : Item) : Bytes := if i.isAbort || i.isIdle then [] else i.data.take i.count

/-- An item's control word (R444). -/
def itemCtl (n : Nat) (eop sop : Bool) : BitVec 16 :=
  BitVec.ofNat 16 (32 * (n - 1) + (if eop then 4 else 0) + (if sop then 2 else 0) + 1)

/-- The abort marker (R457). -/
def abortItem : Item := { data := zeros 32, ctl := 0x15 }

/-- Cut-through threshold in bytes (R449, R471). -/
def cutBytes (c : Chute) : Nat := 64 * (c.mode.toNat % 128 + 1)

/-- Items up to and including the first EOP, and those after it. -/
def splitPacket : List Item → List Item × List Item
  | [] => ([], [])
  | i :: l => if i.eop then ([i], l) else let p := splitPacket l; (i :: p.1, p.2)

/-- The first packet of a list is released under the threshold in force: its `EOP` is there, or its first threshold bytes are. -/
def cutThrough (c : Chute) (l : List Item) : Bool :=
  let p := (splitPacket l).1
  p.any Item.eop || cutBytes c ≤ (p.map fun i => i.bytes.length).sum
/-- The packet at the front is released to its reader (R449): for good, also when the threshold is raised afterwards. -/
def readable (c : Chute) : Bool := c.items != [] && (c.inPacket || 0 < c.released || cutThrough c c.items)
/-- Whole packets in a list of items. -/
def packets (l : List Item) : Nat := (l.filter Item.eop).length
/-- What is released before `CHUTE_MODE` changes: every whole packet, and the one that follows when it is cut through (R449). -/
def keepReleased (c : Chute) : Chute :=
  let n := packets c.items
  let open_ := (c.items.reverse.takeWhile fun i => !i.eop).reverse
  { c with released := max c.released (n + if open_ != [] && ((c.inPacket && n = 0) || cutThrough c open_) then 1 else 0) }

/-- Places of the banks that hold items or wait for their bank to be emptied, of 512 (R443, R446). -/
def placesTaken (c : Chute) : Nat := c.items.length + c.drained

/-- The reader has taken `n` items more (R443). -/
def drainedAfter (c : Chute) (n : Nat) : Nat := (c.drained + n) % 256

/-- Discard the rest of a packet (R455): the drain ends at its EOP. -/
def drainChute (c : Chute) : Chute :=
  if !c.draining then c else
    let p := splitPacket c.items
    { c with items := p.2, drained := drainedAfter c p.1.length, flush := c.flush.map fun k => k - p.1.length, released := c.released - packets p.1
             draining := !p.1.any Item.eop, inPacket := c.inPacket && !p.1.any Item.eop }

/-- A flush takes effect between packets of a chute no job or channel holds (R459). -/
def applyFlush (c : Chute) : Chute :=
  match c.flush with
  | none => c
  | some k =>
    if c.inPacket || c.holder.isSome || c.mover.isSome || c.draining then c
    else { c with items := c.items.drop k, drained := drainedAfter c (min k c.items.length), flush := none, released := c.released - packets (c.items.take k) }

/-- A change of a chute, with what then drains or is flushed; while the chutes' island holds that waits (R455, R459, R472). -/
def changeChute (c : Nat) (f : Chute → Chute) (b : Block) : Block :=
  modChute c (fun x => if holding b 23 then f x else applyFlush (drainChute (f x))) b

/-- An item leaves the front: a pending flush point moves with it. -/
def popItem (c : Chute) : Chute :=
  match c.items with
  | [] => c
  | i :: l => { c with items := l, drained := drainedAfter c 1, inPacket := if i.eop then false else c.inPacket || i.sop
                       released := if i.eop then c.released - 1 else c.released
                       flush := c.flush.map fun k => k - 1 }

/-- An idle item is at the front. -/
def idleNext (c : Chute) : Bool := match c.items with | i :: _ => i.isIdle | [] => false
/-- Idle items at the front are discarded, whether or not what follows them has been released (R453). -/
def skipIdles : Nat → Chute → Chute
  | 0, c => c
  | n + 1, c => if idleNext c then skipIdles n (popItem c) else c
/-- The same for the inbound chute `c` that a job holds; not while the chutes' island holds (R472). -/
def dropIdles (c : Nat) (b : Block) : Block :=
  when (c < 4 && (b.chute c).holder.isSome && !holding b 23) (modChute c fun x => skipIdles x.items.length x) b
/-- A packet that breaks off before its EOP leaves the front: what was released of it does not count for the next one (R449). -/
def breakOff (c : Chute) : Chute := { c with inPacket := false, released := if packets c.items = 0 then 0 else c.released }

/-- A framing event (R453). -/
def framing (c : Nat) (b : Block) : Block :=
  raise evChuteFraming (toLe 1 c) (modChute c (fun x => { x with errors := min (x.errors + 1) 0xFFFFFFFF }) b)

/-- The job takes one item (R453). -/
def takeItem (j c : Nat) (i : Item) (b : Block) : Block :=
  match b.job j with
  | none => b
  | some job =>
    let first := !(b.chute c).inPacket
    let tot := job.chuteIn.length + i.bytes.length
    let want := job.desc.sLen
    if i.isIdle then modChute c popItem b
    else if first && !i.sop then
      when (!(b.chute c).skipping) (framing c) (modChute c (fun x => { popItem x with inPacket := false, skipping := true }) b)
    else if !first && i.sop then
      modJob j (fun x => { x with chuteErr := some .portError, chuteEop := true }) (modChute c breakOff b)
    else
      let bad : Option Status :=
        if i.isAbort then some .portError
        else if i.eop then (if tot < want then some .portError else if want < tot then some .lengthMismatch else none)
        else if want ≤ tot then some .lengthMismatch else none
      modJob j (fun x => { x with chuteIn := x.chuteIn ++ i.bytes, chuteEop := i.eop, chuteErr := bad })
        (modChute c (fun x => { popItem x with inPacket := !i.eop, skipping := false }) b)

/-- A job staged through the landing buffer of its chute (R226, R254). -/
def staged (d : Desc) : Bool :=
  d.srcChute && d.payload ≤ 65536
    && (d.op == 0x13 || (d.op == 0x12 && d.mode == 6) || (d.op == 0x18 && spDst d == 6))

/-- A chute is let go: the abort markers that waited follow the packet, and a pending flush takes effect (R457, R459). -/
def letChute (c : Chute) : Chute :=
  applyFlush { c with holder := none, items := c.items ++ List.replicate c.abortsDue abortItem, abortsDue := 0 }

/-- Move a job's waiting output into its chute while its full flag is low: at least 4 items free (R443, R446, R456). While more may follow the
last item stays in the assembly register, since it may have to carry the EOP (R457). A lane that holds hands over nothing (R243). -/
def pushOut (j c : Nat) : Nat → Block → Block
  | 0, b => b
  | n + 1, b =>
    match b.job j with
    | none => b
    | some job =>
      if job.outRest == [] || 509 ≤ placesTaken (b.chute c) || holding b 23 || engineHeld b job || (job.outMore && job.outRest.length ≤ 32) then b
      else
        let chunk := job.outRest.take 32
        let rest := job.outRest.drop 32
        let it : Item := { data := fit 32 chunk, ctl := itemCtl chunk.length (rest == [] && !job.outMore) (!job.chuteOut) }
        pushOut j c n (modJob j (fun x => { x with outRest := rest, chuteOut := true })
          (modChute c (fun x => { x with items := x.items ++ [it] }) b))

end Sys2Proof.Machine
end

