-- ==== Sys2Proof/Machine/Jobs.lean ====
section
/-!
DEFINITION. The job record (R28): output writes and zero-fills, the end of a job, completions and their
interrupt messages, and the commands that close them.
-/

namespace Sys2Proof.Machine

/-! ## Costs (R362) -/

/-- Bytes per 100 ns of a cipher job, a pair and a digest lane (R241, R267, R288). -/
def cipherRate (d : Desc) : Nat := if d.mode == 9 then 500 else if d.op == 0x12 && d.mode == 6 then 800 else 1600
def pairRate (d : Desc) (p : Bytes) : Nat :=
  if spSrc d == 9 || spDst d == 9 then 500 else if spDst d == 6 then 800 else if spTapAlg p == 0x14 then 840 else 1600
def digestRate (a : Nat) : Nat :=
  if a == 1 || a == 2 then 240 else if a ≤ 5 then 384 else if a == 0x11 then 720 else if a == 0x13 then 520
  else if a == 0x14 then 360 else if a == 0x21 || a == 0x23 || a == 0x31 then 840 else 680

/-- Type codes of an LMS key's material, and a material's length for KEY_WRAP. -/
def keyTypes (keys : List KeyCopy) : Bytes := match keys with | k :: _ => slice k.material 48 16 | [] => []
def matLen (keys : List KeyCopy) : Nat := match keys with | k :: _ => k.material.length | [] => 0

/-- Output length of a job (R88). -/
def jobOutLen (b : Block) (j : Job) : Nat :=
  outLen b j.desc (keyTypes j.keys) (matLen j.keys)

/-- Estimated cost in ns (R362). -/
def estCost (b : Block) (d : Desc) (p : Bytes) (keys : List KeyCopy) : Nat :=
  match opClass d.op with
  | none => 0
  | some .cipher =>
    if d.op == 0x18 then 2 * (64 + ceilDiv (100 * d.sLen) (pairRate d p)) else 64 + ceilDiv (100 * d.sLen) (cipherRate d)
  | some .digest =>
    64 + ceilDiv (100 * (d.sLen + (if d.op == 0x23 || d.op == 0x25 then outLen b d [] 0 else 0))) (digestRate d.alg)
  | some .pk => coreTimeNs b d (keys.head?.map KeyCopy.material)
  | some .unwrap => 600 + ceilDiv ((if usesSrc d.op then d.sLen else 0) + outLen b d (keyTypes keys) (matLen keys)) 8
  | some .entropy => 64 + ceilDiv d.aLen 2

/-- Engines of a budget class in service (R364). -/
def inService (b : Block) (c : Nat) : Nat :=
  if c == 0 then 8 - lanesFenced b
  else if c == 1 then 8 * ((List.range 2).filter fun i => (b.islands.get i).inService).length
  else ((List.range 8).filter fun i => (b.cores.get i).inService).length

/-- One budget of the three. -/
def tokOf (t : Int × Int × Int) (c : Nat) : Int := if c == 0 then t.1 else if c == 1 then t.2.1 else t.2.2
def tokAdd (t : Int × Int × Int) (c : Nat) (x : Int) : Int × Int × Int :=
  if c == 0 then (t.1 + x, t.2) else if c == 1 then (t.1, t.2.1 + x, t.2.2) else (t.1, t.2.1, t.2.2 + x)
/-- The present time to the yard: in a hold of its own island the time the hold began (R373). -/
def yardNow (b : Block) : Nat := (b.holds.get 0).getD b.now
/-- Refill a stall's urgent budgets to the present time, in hundredths of ns (R364). -/
def refill (n : Nat) (b : Block) : Block :=
  let g := fun (s : Stall) (c : Nat) (x : Int) =>
    let rate : Int := s.urgentShare * inService b c
    min (rate * 100000) (x + rate * 1000 * (yardNow b - s.tokensAt : Nat))
  modStall n (fun s => { s with tokens := (g s 0 s.tokens.1, g s 1 s.tokens.2.1, g s 2 s.tokens.2.2), tokensAt := yardNow b }) b

/-- Where a stall's deficit of an engine class and effective class is kept (R362). -/
def deficitKey (e c n : Nat) : Nat := (e * 4 + c) * 512 + n

/-! ## Output (R22, R103) -/

def jobPrio (j : Job) : Nat := if j.eff = 0 then 0 else 1
def jobTurn (j : Job) : Nat := match j.engine with | some e => engineTurn e | none => 63

/-- The pieces of a job's destination from byte `off` of it on (R83, R537). -/
def dstPieces (j : Job) (off len : Nat) : List (Nat × Nat × Nat) :=
  if j.desc.dstFrag then (fragPieces off 0 j.dstWalk.frags).filter fun p => p.2.1 < off + len
  else pieces (j.desc.dst + BitVec.ofNat 64 off) off len

/-- A data write of a job: output, zero-fill, or a splice's tap save (R27, R103, R249). -/
def jobWrite (i : Nat) (o : Owner) : Bool := o == .data i || o == .zero i || o == .tapSave i
/-- Data writes of a job that no port has taken yet, and those that wait or are outstanding. -/
def waitingWrites (b : Block) (i : Nat) : List Req := (b.dp0.waiting ++ b.dp1.waiting).filter fun r => jobWrite i r.owner
def dataWrites (b : Block) (i : Nat) : Nat :=
  (waitingWrites b i).length + ((b.dp0.out ++ b.dp1.out).filter fun g => jobWrite i g.req.owner).length

/-- Write a job's bytes to one address on its port. -/
def writeAt (i : Nat) (addr : Addr) (data : Bytes) (b : Block) : Block :=
  match b.job i with
  | none => b
  | some j => offer j.port (writeReqs (.data i) (stallIdent b j.stall.val) (jobPrio j) (jobTurn j) 0 data
      (pieces addr 0 data.length)) b

/-- The chute lets a job go once its last item is written (R452, R456). -/
def pushJob (i : Nat) (b : Block) : Block :=
  match b.job i with
  | none => b
  | some j => match outChute j.desc with
    | none => b
    | some c =>
      let b1 := pushOut i c (j.outRest.length / 32 + 1) b
      match b1.job i with
      | some j1 => when (j1.outRest == [] && !j1.outMore && j1.chuteOut && (b1.chute c).holder == some i)
          (modChute c letChute) b1
      | none => b1

/-- Write output bytes from `off` on to a job's destination: memory, fragments or chute. -/
def writeOut (i off : Nat) (more : Bool) (data : Bytes) (b : Block) : Block :=
  match b.job i with
  | none => b
  | some j =>
    if (outChute j.desc).isSome then pushJob i (modJob i (fun x => { x with outRest := x.outRest ++ data, outMore := more }) b)
    else offer j.port (writeReqs (.data i) (stallIdent b j.stall.val) (jobPrio j) (jobTurn j) off data
      (dstPieces j off data.length)) b

/-- Whether a run-stage error zero-fills the destination (R103). -/
def zeroed (d : Desc) : Bool := [0x12, 0x13].contains d.op || (d.op == 0x18 && aeadMode (spDst d)) || 0x40 ≤ d.op

/-- Tag locations a job writes: `SEAL`, and `SPLICE` into an authenticated mode (R103, R207, R264). -/
def tagAddr (j : Job) : Option (Addr × Nat) :=
  if j.desc.op == 0x12 then some (j.desc.aux, tagLen j.desc.mode j.desc.param)
  else if j.desc.op == 0x18 && aeadMode (spDst j.desc) then
    some (BitVec.ofNat 64 (spDstTag j.pblk), tagLen (spDst j.desc) (field j.pblk 1 1))
  else none

/-- Zero a job's declared area in memory from byte `off` of it on: the zero-fill is part of the job (R244). -/
def zeroFrom (i off : Nat) (b : Block) : Block :=
  match b.job i with
  | none => b
  | some j => when (!j.desc.dstChute) (fun b =>
      offer j.port (writeReqs (.zero i) (stallIdent b j.stall.val) (jobPrio j) (jobTurn j) off (zeros (jobOutLen b j - off))
        (dstPieces j off (jobOutLen b j - off))) (modJob i (fun x => { x with zeroFill := true }) b)) b

/-- Zero the declared output area after a run-stage error, when R103 asks for it; a zero-fill that is running runs on, and one
that was taken off its lane goes on where it stood (R224, R243, R244). -/
def zeroOut (i : Nat) (b : Block) : Block :=
  match b.job i with
  | none => b
  | some j =>
    if j.zeroFill then when (j.stage != .draining) (zeroFrom i j.dstDone) b
    else when (zeroed j.desc && usesDst j.desc.op) (zeroFrom i 0) b

/-- Zero the tag location (R103). -/
def zeroTag (i : Nat) (b : Block) : Block :=
  match b.job i with
  | none => b
  | some j => match tagAddr j with
    | some (a, n) => writeAt i a (zeros n) b
    | none => b

/-- The requests of a job other than its data writes. -/
def jobRead (i : Nat) (o : Owner) : Bool :=
  match o with
  | .table j _ | .tableAgain j _ | .attr j | .stateBlob j | .bat j _ | .blobHead j _ | .blobRest j _ | .src j | .srcAgain j | .aux j | .exp j => j == i
  | _ => false

/-- Withdraw a job's data writes that no port has taken. -/
def dropWaitingWrites (i : Nat) (b : Block) : Block :=
  let f := fun (st : PortSt) => { st with waiting := st.waiting.filter fun r => !(r.owner == .data i || r.owner == .zero i) }
  { b with dp0 := f b.dp0, dp1 := f b.dp1 }

/-! ## Keys given up (R104, R161, R191) -/

/-- The slots of a run from its head. -/
def runSlots (b : Block) : Nat → Nat → List Nat
  | 0, _ => []
  | n + 1, i => i :: runSlots b n (b.slot i).runNext

/-- A slot with no key: material and attributes zero, GEN one higher. -/
def clearedSlot (s : Slot) : Slot := { gen := s.gen + 1 }

/-- The islands are told of a rise of GEN (R279). -/
def genRose (i : Nat) (b : Block) : Block :=
  { b with islands := (b.islands.mod 0 fun x => { x with purge := x.purge ++ [i] }).mod 1 fun x => { x with purge := x.purge ++ [i] } }

/-- Zero the slots of a key. -/
def dropKey (i : Nat) (b : Block) : Block :=
  each (runSlots b (b.slot i).runLen i) (fun k b => genRose k (modSlot k clearedSlot b)) b

/-- The key that a job has installed is zeroed, if its slot still holds it. -/
def dropInstalled (k : Nat × BitVec 32) (b : Block) : Block := when ((b.slot k.1).gen == k.2) (dropKey k.1) b
/-- A job that does not end with DONE leaves no key behind (R104); while any island holds no slot is written, and the key goes when the hold
ends (R485). -/
def takeBackKey (i : Nat) (b : Block) : Block :=
  match (b.job i).bind fun j => j.installed with
  | some k => modJob i (fun j => { j with installed := none })
      (if anyHold b then modTack (fun t => { t with dropsDue := t.dropsDue ++ [k] }) b else dropInstalled k b)
  | none => b

/-! ## Letting go -/

/-- A saturating counter of `w` bits. -/
def satAdd (w n k : Nat) : Nat := min (2 ^ w - 1) (n + k)

/-! ## Fences (R135 to R138) -/

/-- The engines in service change: every urgent budget is refilled at the rate that was in force until now (R364, R373). -/
def refillAll (b : Block) : Block := each (b.stalls.ents.map Prod.fst) refill b

/-- A change of a lane's fences adds a reason. -/
def addsFence (x y : Lane) : Bool :=
  (!x.suspect && y.suspect) || (!x.fencedFault && y.fencedFault) || (!x.fencedManager && y.fencedManager) || (x.inService && !y.inService)
/-- A pair that loses a lane is reserved to nobody and gives way to nobody (R133, R361). -/
def unpair (l : Nat) (b : Block) : Block :=
  when (!(b.lane l).inService) (modLane (l / 2 * 2) fun x => { x with reservedBy := none, givesWay := none }) b
/-- Change a lane's fences; after READY, LANES_DEGRADED is raised by each fence that leaves five or more lanes out
(R138, R524). -/
def fence (l : Nat) (f : Lane → Lane) (b : Block) : Block :=
  let b1 := unpair l (modLane l f (refillAll b))
  when (b.boot.ready && 5 ≤ lanesFenced b1 && addsFence (b.lane l) (b1.lane l)) (raise evLanesDegraded []) b1

/-- A leaving lane that is empty is fenced, or under test (R238, R410). -/
def leave (l : Nat) (b : Block) : Block :=
  if (b.lane l).leaving && (b.lane l).jobs.isEmpty then
    fence l (fun x => if x.forTest then { x with leaving := false, forTest := false, testing := true }
                      else { x with leaving := false, fencedManager := true }) b
  else b

/-- Lane numbers. -/
def lanes8 : List Nat := List.range 8

/-! ## Letting go of engines -/

/-- A core zeroes S with a job that ends, and P and Q too after an abort or a fault (R296). -/
def wipesOperands (st : Status) : Bool := !(st.isResult || st.code / 256 == 4)

/-- The reservations of a job, and the ways made for it, end (R133, R361). -/
def unreserve (i : Nat) (b : Block) : Block :=
  { b with lanes := lanes8.foldl (fun t l => t.mod l fun x =>
      { x with reservedBy := if x.reservedBy == some i then none else x.reservedBy
               givesWay := if x.givesWay == some i then none else x.givesWay }) b.lanes }

/-- A digest job releases its key's cache entry: the entry of a slot whose GEN has risen is zeroed (R290). -/
def dropEntry (i : Nat) (b : Block) : Block :=
  match b.job i with
  | none => b
  | some j => match j.engine, (j.keys.head?.bind fun k => k.slot) with
    | some (.digest l), some s => when ((b.islands.get (l.val / 8)).purge.contains s)
        (modIsland (l.val / 8) fun x => { x with cache := x.cache.filter fun e => e.slot != s }) b
    | _, _ => b

/-- An unwrap is never interrupted: a blob on a unit when its job goes stays there until the unit has done with it, with the slots of
its copy (R360). -/
def leaveUnit (i : Nat) (j : Job) (x : BlobRead) (b : Block) : Block :=
  match x.unit with
  | none => b
  | some u => { b with unwrapLeft := b.unwrapLeft.set u (some
      { job := i, stall := j.stall.val, eff := j.eff, source := j.desc.op == 0x18 && !x.second, blob := x }) }
/-- The unwrap units finish a job's blobs without it. -/
def freeUnits (i : Nat) (b : Block) : Block :=
  match b.job i with
  | none => b
  | some j => modJob i (fun x => { x with blobs := x.blobs.map fun y => { y with unit := none, room := [] } })
      (each j.blobs (leaveUnit i j) b)

/-- Take a job off its engine; a leaving lane that is then empty is fenced (R238). A core zeroes S, and P and Q too after an abort or a fault (R296). -/
def freeEngine (i : Nat) (b : Block) : Block :=
  match (b.job i).bind fun j => j.engine with
  | none => b
  | some (.lane _) => each lanes8 leave { b with lanes := lanes8.foldl (fun t l => t.mod l fun x => { x with jobs := x.jobs.erase i }) b.lanes }
  | some (.digest l) => { dropEntry i b with digestJobs := b.digestJobs.set l.val none }
  | some (.core c) =>
    let keep := match b.job i with | some j => !wipesOperands j.result.status | none => false
    modCore c.val (fun x => { x with regionS := [], regionP := if keep then x.regionP else [], regionQ := if keep then x.regionQ else []
                                     state := if x.state = 1 then 0 else x.state, jobs := satAdd 32 x.jobs 1 })
      { b with coreJobs := b.coreJobs.set c.val none }
  | some (.unwrap u) => { b with unwrapJobs := b.unwrapJobs.set u.val none }
  | some .entropy => { b with randomJob := none }

/-- A frame, emptied when it is the job's. -/
def dropFrame (i : Nat) (f : Frame) : Frame := if f.kind != 0 && f.job == i then {} else f
/-- Zero a job's frames, those its lane keeps among them; its hold on the recovery frame stands (R231, R232, R235). -/
def zeroFrames (i : Nat) (j : Job) (b : Block) : Block :=
  modJob i (fun x => { x with kept := [] }) (modRing j.stall.val j.ring.val (fun g => { g with page := { g.page with
    hitch := dropFrame i g.page.hitch, recovery := dropFrame i g.page.recovery } }) b)

/-- Zero a job's tie-off frames and give up its recovery frame (R232, R235). -/
def freeFrames (i : Nat) (b : Block) : Block :=
  match b.job i with
  | none => b
  | some j => modRing j.stall.val j.ring.val (fun g => { g with page := { g.page with
      holder := if g.page.holder == some i then none else g.page.holder } }) (zeroFrames i j b)

/-- Let an inbound chute go: what is left of the packet drains (R455), and the landing buffer is cleared (R226). -/
def freeInChute (i : Nat) (j : Job) (b : Block) : Block :=
  match inChute j.desc with
  | none => b
  | some c => when ((b.chute c).holder == some i)
      (changeChute c fun x => { x with holder := none, skipping := false, draining := !j.chuteEop })
      (modChute c (fun x => { x with putBack := x.putBack.filter fun e => e.1 != i
                                     landing := if x.landingOf == some i then [] else x.landing
                                     landingOf := if x.landingOf == some i then none else x.landingOf }) b)

/-- Let an outbound chute go. A job that has written an item of its packet and does not end with DONE writes the abort marker (R457):
at once while the chute is its own or nobody's, else behind the packet of the job that now holds it (DESIGN CHOICE, assumption 84). -/
def freeOutChute (i : Nat) (done : Bool) (j : Job) (b : Block) : Block :=
  match outChute j.desc with
  | none => b
  | some c =>
    let mark := j.chuteOut && !done
    let own := (b.chute c).holder == some i
    modJob i (fun x => { x with chuteOut := x.chuteOut && done }) (modChute c (fun x =>
      if own then letChute { x with items := if mark then x.items ++ [abortItem] else x.items }
      else if !mark then x
      else if x.holder.isNone && x.mover.isNone then { x with items := x.items ++ [abortItem] }
      else { x with abortsDue := x.abortsDue + 1 }) b)

def freeChutes (i : Nat) (done : Bool) (b : Block) : Block :=
  match b.job i with
  | none => b
  | some j => freeOutChute i done j (freeInChute i j b)

/-- Everything an ended or aborted job gives back: reads, engine, units and reservations, frames, chutes, key registers (R15, R232). -/
def letGo (i : Nat) (done : Bool) (b : Block) : Block :=
  modJob i (fun j => { j with keys := [], padded := [], restored := [], running := [], engine := none, outRest := [], outMore := false, tapDue := none })
    (freeChutes i done (freeFrames i (freeUnits i (unreserve i (freeEngine i (dropReqs (jobRead i) b))))))

/-! ## Completion entries (R94 to R98) -/

/-- PHASE at a completion index of a ring of size 2^k (R66). -/
def phaseBit (i : Idx) (k : Nat) : Nat := 1 - (i.toNat >>> k) % 2

/-- CFLAGS (R95). -/
def cflags (j : Job) (phase : Nat) : Nat :=
  j.ring.val * 256 + j.byKnot.toNat * 16 + j.wasHitched.toNat * 8 + j.supplyHold.toNat * 4 + j.retried.toNat * 2 + phase

/-- The 64-byte completion entry (R94). -/
def completionBytes (j : Job) (phase : Nat) : Bytes :=
  let st := j.result.status
  toLe 4 j.desc.tag.toNat ++ toLe 2 st.code ++ toLe 2 (cflags j phase)
    ++ toLe 6 (if st = .done then j.result.bytesWritten else 0) ++ toLe 2 j.stall.val
    ++ fit 12 (if st = .done && j.desc.nonceHw then j.nonce else [])
    ++ toLe 4 j.result.verdict.toNat ++ toLe 4 j.result.verdictInv.toNat ++ toLe 2 j.result.rounds.toNat
    ++ toLe 2 j.seq.toNat ++ zeros 24

/-- Whether a completion waits for every earlier job of its ring (R109, R110, R120). -/
def ringOrdered (j : Job) : Bool := j.desc.inOrder || j.desc.isKnot

/-- Whether job `e` must have completed before job `j`'s completion is written (R109 to R111, R123, R141). -/
def mustPrecede (j e : Job) : Bool :=
  e.ord < j.ord && e.stall == j.stall &&
    ((e.ring == j.ring && (ringOrdered j
        || (j.result.status == .abortedQuiesce && e.result.status == .abortedQuiesce)
        || (j.rope.isSome && e.rope == j.rope)))
      || (j.desc.isKnot && j.desc.stallKnot))

/-- Jobs of a stall whose completions may be issued now. -/
def writable (b : Block) (n : Nat) : List (Nat × Job) :=
  let l := jobsOf b n
  l.filter fun e => e.2.stage == .ended && l.all fun x => !mustPrecede e.2 x.2

/-- The earliest dispatched of a list of jobs. -/
def firstJob : List (Nat × Job) → Option (Nat × Job)
  | [] => none
  | e :: l => match firstJob l with
    | none => some e
    | some x => some (if e.2.ord ≤ x.2.ord then e else x)

/-- Offer the write of a completion entry (R62, R68). -/
def offerEntry (n : Nat) (i : Idx) (data : Bytes) (b : Block) : Block :=
  let s := b.stall n
  offer .rp [{ write := true, addr := s.cqBase + BitVec.ofNat 64 (64 * (i.toNat % 2 ^ s.cqK)), len := 64, data
               ident := stallIdent b n, owner := .completion (Fin.ofNat 512 n) i, prio := 0 }] b

/-- Issue one completion at the next index (R62). -/
def issueOne (n i : Nat) (j : Job) (b : Block) : Block :=
  let s := b.stall n
  offerEntry n s.cqIssue (completionBytes j (phaseBit s.cqIssue s.cqK))
    (modStall n (fun s => { s with cqIssue := s.cqIssue + 1 })
      (modJob i (fun j => { j with stage := .issued, cqIndex := s.cqIssue }) b))

/-- Of completions that may be written together the earliest dispatched goes first; R109 leaves the order of different rings open (DESIGN
CHOICE, assumption 109). -/
def issueGo (n : Nat) : Nat → Block → Block
  | 0, b => b
  | f + 1, b => match firstJob (writable b n) with
    | none => b
    | some (i, j) => issueGo n f (issueOne n i j b)

/-- Issue every completion of a stall that may be issued; behind an errored one that waits for its retry, or for the retry's
acknowledgement, the later ones wait (R121, R542). -/
def tryIssue (n : Nat) (b : Block) : Block :=
  if (b.stall n).cqRetry != [] || (b.stall n).cqAgain.isSome then b else issueGo n (jobsOf b n).length b

/-! ## The end of a job -/

/-- HALT_ON_ERROR of a job that is no knot halts its ring when the job ends (R35, R36); a knot halts it at its
completion (R118). One command that ends such jobs on several rings halts each in turn, each halt with its own message: the spec does
not say that they fall in one yard cycle (DESIGN CHOICE, assumption 85). -/
def haltAtEnd (j : Job) (st : Status) (b : Block) : Block :=
  when (j.desc.haltOnError && !st.isResult && !j.desc.isKnot) (haltRing j.stall.val j.ring.val 2) b

/-- The yard's corrections at a job's end: the deficit by the grant's estimate less the occupancy, the urgent budget by
what its dispatch charged less the occupancy (R362, R364). -/
def chargeEnd (j : Job) (occ : Nat) (b : Block) : Block :=
  match opClass j.desc.op with
  | none => b
  | some e =>
    let b := refill j.stall.val b
    modStall j.stall.val (fun s => if j.eff = 0 && (classNum e) < 3 && j.ring == 0
        then { s with tokens := tokAdd s.tokens (classNum e) (100 * ((j.charged : Int) - occ)) } else s)
      { b with deficit := b.deficit.mod (deficitKey (classNum e) j.eff j.stall.val) (· + ((j.estCost : Int) - occ)) }

/-- A job waits for an engine of its class. -/
def waitsIn (j : Job) : Bool := j.engine.isNone && (match j.stage with | .waiting | .hitched _ => true | _ => false)
/-- Its key request waits for an unwrap unit with a blob (R360). -/
def asksUnwrap (j : Job) : Bool := j.stage == .waiting && j.blobs.any fun x => x.phase == 3 && x.rest.full
/-- A job waits in engine class `e`. -/
def waitsFor (e : Nat) (j : Job) : Bool := (waitsIn j && (opClass j.desc.op).map classNum == some e) || (e == 3 && asksUnwrap j)
/-- The credit of a stall that has no job left waiting for engine class `e` in a job's effective class lapses, its debt stays (R363). -/
def lapseIn (e : Nat) (j : Job) (b : Block) : Block :=
  if b.live.any fun x => waitsFor e x.2 && x.2.stall == j.stall && x.2.eff == j.eff then b
  else { b with deficit := b.deficit.mod (deficitKey e j.eff j.stall.val) fun d => min d 0 }
/-- The classes a job may have waited for: its engine's, and with a blob the unwrap units'. -/
def lapseCredit (j : Job) (b : Block) : Block :=
  each ((opClass j.desc.op).toList.map classNum ++ (if j.blobs == [] then [] else [3])) (fun e => lapseIn e j) b

/-- A job that ends before its engine starts it: with no engine granted it occupied none; one that was granted held
its engine for a time that no command tells, a free value (R362, R364). -/
def chargeUnstarted (j : Job) (b : Block) : Block :=
  when (j.stage == .waiting)
    (if j.engine.isSome then fun b => chargeEnd j (Config.freeNat b.free) (freed b) else chargeEnd j 0) b

/-- End one job with a status: its completion then waits for its turn. -/
def endOne (i : Nat) (st : Status) (b : Block) : Block :=
  match b.job i with
  | none => b
  | some j => haltAtEnd j st
      (lapseCredit j (modJob i (fun j => { j with stage := .ended })
      (letGo i (st == .done) (when (st != .done) (takeBackKey i)
        (modJob i (fun j => { j with result := { j.result with status := st } }) (chargeUnstarted j b))))))

/-- Strands of rope `r` dispatched after `ord` that have not started. -/
def laterStrands (b : Block) (n r ord : Nat) : List Nat :=
  ((jobsOf b n).filter fun e => e.2.rope == some r && ord < e.2.ord && e.2.stage == .waiting).map Prod.fst

/-- A strand that ends with any status but DONE fails its rope (R122 to R124). -/
def failRope (j : Job) (st : Status) (b : Block) : Block :=
  match j.rope with
  | none => b
  | some r => when (st != .done) (fun b =>
      each (laterStrands b j.stall.val r j.ord) (fun i => endOne i .cancelledRope)
        (modRing j.stall.val j.ring.val (fun g => { g with
          cancel := g.cancel || (match g.rope with | some o => o.1 == r | none => false) }) b)) b

/-- End a job: its rope fails with it, and completions that have become writable are issued. -/
def endJob (i : Nat) (st : Status) (b : Block) : Block :=
  match b.job i with
  | none => b
  | some j => tryIssue j.stall.val (failRope j st (endOne i st b))

/-- A job in the loop of MLDSA_SIGN: its inputs are there, so its core time has begun (R306, R340). -/
def inLoop (j : Job) : Bool := j.desc.op == 0x55 && j.stage == .running && j.src.full
/-- An MLDSA_SIGN that ends within its loop reports the rounds completed, which no command tells: a free value from 1 to 1,000
(R341, R353). -/
def keepRounds (i : Nat) (b : Block) : Block :=
  match b.job i with
  | none => b
  | some j => when (inLoop j) (fun b => freed (modJob i (fun j => { j with result := { j.result with
      rounds := BitVec.ofNat 16 (1 + Config.freeNat b.free % 1000) } }) b)) b

/-- The engine's key register is cleared, a core's region S with it (R15, R296). -/
def clearKeys (i : Nat) (st : Status) (b : Block) : Block :=
  let b1 := modJob i (fun x => { x with keys := [], padded := [], restored := [], running := [] }) (dropEntry i b)
  match (b.job i).bind fun j => j.engine with
  | some (.core c) => modCore c.val (fun x => { x with regionS := []
                                                       regionP := if wipesOperands st then [] else x.regionP
                                                       regionQ := if wipesOperands st then [] else x.regionQ }) b1
  | _ => b1

/-- Of two statuses of a job that drains the error stands, and of two errors the lower (R101). -/
def runStatus (old st : Status) : Status := if old.isResult || st.code < old.code then st else old

/-- The source bytes turned into output that its destination has taken, when a job that has done its work is stopped while its last writes
wait (R201, R229). -/
def drainedTo (b : Block) (i : Nat) (j : Job) : Nat :=
  let left := j.outRest.length + (((waitingWrites b i).filter fun r => r.owner == .data i).map Req.len).sum
  if left == 0 then j.desc.sLen else j.desc.aLen + (j.desc.payload - left) / blockUnit j.desc * blockUnit j.desc
/-- Where a job that an error stops stood, and a splice's tap state, as its zero-fill records them in its frames and its tap save area
(R229, R244, R249). -/
def markStop (i : Nat) (j : Job) (b : Block) : Block :=
  let k := if j.stage == .draining then drainedTo b i j else consumedAt b j
  freed (modJob i (fun x => { x with fillAt := k, tapState := tapHeld b j (if j.stage == .draining then j.desc.payload else tapped j k) }) b)

/-- A run-stage error ends a job's work: its frames are zeroed, its hold on the recovery frame stands until its end (R232), the
keys are cleared (R15), and R103's run-stage row decides its destination. One that was hitched no longer waits for an engine (R363). -/
def failRun (i : Nat) (st : Status) (b : Block) : Block :=
  match b.job i with
  | none => b
  | some j =>
    let b1 := freeChutes i false (zeroFrames i j (dropReqs (jobRead i) (keepRounds i (takeBackKey i b))))
    let b2 := zeroOut i (zeroTag i (when (!j.zeroFill) (fun b => dropWaitingWrites i (markStop i j b)) b1))
    when (waitsIn j) (lapseCredit j) (clearKeys i st (modJob i (fun x => { x with
      stage := .draining, outRest := [], outMore := false
      result := { x.result with status := runStatus x.result.status st, verdict := 0, verdictInv := 0 } }) b2))

/-- A lane has nothing more of a draining job to hand over. -/
def laneEmpty (b : Block) (i : Nat) (j : Job) : Bool := j.stage == .draining && j.outRest == [] && (waitingWrites b i).isEmpty

/-- A cipher lane lets its job go when the job's last block, of output or of a zero-fill, has been handed over; not while it holds (R201,
R243, R244). -/
def laneDone (i : Nat) (b : Block) : Block :=
  match b.job i with
  | some j => match j.engine with
    | some (.lane _) => when (laneEmpty b i j && !engineHeld b j) (fun b => modJob i (fun x => { x with keys := [] }) (freeEngine i b)) b
    | _ => b
  | none => b
/-- Every lane lets go what it has done with. -/
def lanesDone (b : Block) : Block := each (lanes8.flatMap fun l => (b.lane l).jobs) laneDone b

/-- A run-stage error: reads given up, output per R103; the job ends once its writes are acknowledged. -/
def runError (i : Nat) (st : Status) (b : Block) : Block := laneDone i (failRun i st b)
/-- An error of a job: one not started ends; a started one meets the run-stage row, once; one that ends by another error, or is in its zero-fill, takes the lower code. -/
def runFails (i : Nat) (st : Status) (b : Block) : Block :=
  match b.job i with
  | none => b
  | some j =>
    match j.stage with
    | .waiting => endJob i st b
    | .running | .hitched _ | .retry | .draining =>
      if !j.zeroFill && (j.stage != .draining || j.result.status.isResult) then runError i st b
      else modJob i (fun x => { x with result := { x.result with status := runStatus x.result.status st, verdict := 0, verdictInv := 0 } }) b
    | _ => b
/-- An error found in a job; while its engine, or without one the yard, holds it waits for the hold's end (R13, R243). -/
def errorIn (i : Nat) (st : Status) (b : Block) : Block :=
  if jobHeld b i then modJob i (fun x => { x with errDue := some (match x.errDue with | some o => runStatus o st | none => st) }) b
  else runFails i st b
/-- The error that a hold kept back. -/
def errorDue (i : Nat) (b : Block) : Block :=
  match (b.job i).bind fun j => j.errDue with
  | some st => if jobHeld b i then b else runFails i st (modJob i (fun x => { x with errDue := none }) b)
  | none => b

/-- ENGINE_END_REPORT: the last data write is acknowledged, and no hold keeps the engine from saying so (R27, R243); occupancy corrects the
charges (R362). -/
def engineEnd (i occ : Nat) (b : Block) : Block :=
  match b.job i with
  | none => b
  | some j => when (j.stage == .draining && j.outRest == [] && j.errDue.isNone && dataWrites b i == 0 && !engineHeld b j)
      (fun b => endJob i j.result.status (chargeEnd j occ b)) b

def execEngineEndReport (job : JobId) (occ : Nat) (s : State) := updOn s 0 (engineEnd job.val occ)

/-! ## Acknowledged completions -/

/-- Count an acknowledged completion toward interrupts (R69, R70). -/
def countIrq (n : Nat) (j : Job) (b : Block) : Block :=
  let s := b.stall n
  if !(j.desc.irq && s.irqCtrl.getLsbD 0) then b
  else
    let b1 := modStall n (fun s => { s with irqPending := s.irqPending + 1,
                                            irqSince := if s.irqPending = 0 then some b.now else s.irqSince }) b
    when (s.irqCount ≤ s.irqPending + 1 || (s.irqCtrl.getLsbD 1 && j.ring == 0)) (sendIrq n) b1

/-- `cq_prod` passes every entry up to the first not acknowledged, and `held` falls with it (R62). -/
def advanceProd : Nat → Stall → Stall
  | 0, s => s
  | f + 1, s => if s.cqAcked.contains s.cqProd
      then advanceProd f { s with cqAcked := s.cqAcked.erase s.cqProd, cqProd := s.cqProd + 1, held := s.held - 1 }
      else s

/-- The stall's part of an acknowledged completion; TAP_MISMATCHES counts results (R259). -/
def ackStall (i : Idx) (st : Status) (s : Stall) : Stall :=
  advanceProd (s.cqAcked.length + 1)
    { s with inFlight := s.inFlight - 1, cqAcked := s.cqAcked ++ [i]
             jobsDone := if st.isResult then satAdd 32 s.jobsDone 1 else s.jobsDone
             jobsFailed := if st.isResult then s.jobsFailed else satAdd 32 s.jobsFailed 1
             tapMismatches := if st = .fixityMismatch then satAdd 32 s.tapMismatches 1 else s.tapMismatches }

/-- QUIESCING becomes QUIESCED when no job is in flight (R30). -/
def quiesceDone (n : Nat) (b : Block) : Block :=
  modStall n (fun s => if s.state = .quiescing && s.inFlight == 0 then { s with state := .quiesced } else s) b

/-- A failing knot with HALT_ON_ERROR halts its ring with its completion, and the halt's one message covers that completion
too (R70, R118); any other completion counts toward the next message. -/
def haltOrCount (n : Nat) (j : Job) (b : Block) : Block :=
  if j.desc.haltOnError && !j.result.status.isResult && j.desc.isKnot && !(b.ring n j.ring.val).halted then haltRing n j.ring.val 2 b
  else countIrq n j b

/-- A job completes: its completion write is acknowledged (R20, R62, R118). -/
def complete (n i : Nat) (j : Job) (b : Block) : Block :=
  quiesceDone n (tryIssue n (haltOrCount n j
    (modStall n (ackStall j.cqIndex j.result.status) { b with jobs := b.jobs.set i none })))

/-- The outstanding request of a port under a tag. -/
def flightOf (b : Block) (p : Port) (tag : Nat) : Option Flight := (b.port p).out.find? fun f => f.tag == tag

/-- Retire a tag and issue what waits. -/
def retire (p : Port) (tag : Nat) (b : Block) : Block :=
  pump p (setPort p { b.port p with out := (b.port p).out.filter fun f => f.tag != tag } b)

/-- The acknowledgement of a completion write is applied (R62, R542). -/
def completionAck (tag : Nat) (err : Bool) (b : Block) : Block :=
  match flightOf b .rp tag with
  | none => b
  | some f => match f.req.owner with
    | .completion n idx =>
      let b1 := retire .rp tag b
      let again := (b1.stall n.val).cqAgain == some idx
      let b2 := modStall n.val (fun s => { s with
        cqAgain := if again then none else s.cqAgain
        cqRetry := if !err then s.cqRetry else if again then (idx, f.req.data, b.now) :: s.cqRetry else s.cqRetry ++ [(idx, f.req.data, b.now)] }) b1
      if err then b2
      else match (jobsOf b2 n.val).find? fun e => e.2.stage == .issued && e.2.cqIndex == idx with
        | none => b2
        | some (i, j) => complete n.val i j b2
    | _ => b

/-- An acknowledgement arrives: while the yard holds it waits in the FIFO of the `rp_` port island (R13). -/
def ackArrives (tag : Nat) (err : Bool) (b : Block) : Block :=
  if !holding b 0 then completionAck tag err b
  else when ((flightOf b .rp tag).any (fun f => f.req.owner matches .completion _ _) && !b.rpFifo.any (fun a => a.1 == tag))
    (fun b => { b with rpFifo := b.rpFifo ++ [(tag, err)] }) b
/-- The waiting acknowledgements are applied in order of arrival once the hold has ended (R13). -/
def drainRp (b : Block) : Block :=
  if holding b 0 then b else each b.rpFifo (fun a => completionAck a.1 a.2) { b with rpFifo := [] }

/-- COMPLETION_WRITE_ACK. -/
def execCompletionWriteAck (tag : Nat) (err : Bool) (s : State) := updReady s (ackArrives tag err)

/-- CQ_WRITE_RETRY: the first errored entry is written again, at least 1 µs after the error; the later ones wait until it has been
acknowledged without one (R542). -/
def cqRetry (n : Nat) (b : Block) : Block :=
  match (b.stall n).cqRetry with
  | [] => b
  | (i, data, t) :: rest =>
    when ((b.stall n).cqAgain.isNone) (fun b => offerEntry n i data (modStall n (fun s => { s with
      cqRetry := rest, cqAgain := some i, cqRetries := satAdd 32 s.cqRetries 1 }) { b with now := max b.now (t + 1) })) b

def execCqWriteRetry (n : StallId) (s : State) := updOn s 0 (cqRetry n.val)

/-- IRQ_TIMER_EXPIRY: the stall's interrupt timer reaches IRQ_TIME (R70). -/
def irqTimer (n : Nat) (b : Block) : Block :=
  match (b.stall n).irqSince with
  | none => b
  | some t => when ((b.stall n).irqPending != 0) (fun b => sendIrq n { b with now := max b.now (t + (b.stall n).irqTime) }) b

/-- A new coalescing threshold: one already reached sends the message (R42, R70); in a hold of the yard, at the hold's end. -/
def irqCheck (n : Nat) (b : Block) : Block :=
  let s := b.stall n
  when (!holding b 0 && s.irqPending != 0
      && (s.irqCount ≤ s.irqPending || (match s.irqSince with | some t => decide (t + s.irqTime ≤ b.now) | none => false)))
    (sendIrq n) b

def execIrqTimerExpiry (n : StallId) (s : State) := updOn s 0 (irqTimer n.val)

/-! ## NOP and KNOT (R89, R110) -/

/-- The jobs a knot waits for have completed (R110, R111). -/
def knotClear (b : Block) (j : Job) : Bool :=
  (jobsOf b j.stall.val).all fun e => !(e.2.ord < j.ord && (e.2.ring == j.ring || j.desc.stallKnot))

/-- A strand may go on: the strands before it have ended with DONE, their writes acknowledged (R112, R122). -/
def strandClear (b : Block) (j : Job) : Bool :=
  j.rope.isNone || (jobsOf b j.stall.val).all fun e =>
    !(e.2.rope == j.rope && e.2.ord < j.ord) || ((e.2.stage == .ended || e.2.stage == .issued) && e.2.result.status == .done)

/-- A waiting job may be prepared and started (R110, R112). -/
def mayProceed (b : Block) (j : Job) : Bool := (!j.desc.isKnot || knotClear b j) && strandClear b j

/-- NOP and KNOT end with DONE without engine or key. -/
def runPlain (op i : Nat) (b : Block) : Block :=
  match b.job i with
  | none => b
  | some j => when (j.desc.op == op && j.stage == .waiting && mayProceed b j) (endJob i .done) b

/-- NOP. -/
def execNop (job : JobId) (s : State) := updOn s 0 (runPlain 0x00 job.val)
/-- KNOT. -/
def execKnot (job : JobId) (s : State) := updOn s 0 (runPlain 0x01 job.val)

end Sys2Proof.Machine
end

