-- ==== Sys2Proof/Machine/JobDispatch.lean ====
section
/-!
DEFINITION. JOB_DISPATCH (R56 to R64, R81, R82, R107 to R125, R210 to R212, R355 to R358, R364): which
captured descriptor is consumed next, its admission, and the job record it takes.
-/

namespace Sys2Proof.Machine

/-- The parameter block a descriptor needs has been read (R252, R274). -/
def pblkReady (c : Captured) : Bool :=
  pblkLen c.desc == 0 || (match c.pblk with | .got _ | .failed => true | _ => false)

/-- No knot holds the ring back (R110, R111). -/
def noKnotAhead (b : Block) (n r : Nat) : Bool :=
  (jobsOf b n).all fun e => !(e.2.desc.isKnot && (e.2.ring.val == r || e.2.desc.stallKnot))

/-- The bytes of a captured parameter block. -/
def pblkBytes (c : Captured) : Bytes := match c.pblk with | .got x => x | _ => []

/-- The effective class a head descriptor takes at its dispatch (R355, R364). -/
def effClass (b : Block) (n r : Nat) (d : Desc) : Nat :=
  if r != 0 then r
  else
    let s := b.stall n
    let long := 0x10 ≤ d.op && d.op ≤ 0x25 && 65536 < d.sLen
    let poor := match opClass d.op with
      | some e => classNum e < 3 && decide (tokOf s.tokens (classNum e) ≤ 0)
      | none => false
    if long || s.urgentShare == 0 || poor then 1 else 0

/-- Job-table entries taken from the 256 reserved ones and from the rest (R357). -/
def usedEntries (b : Block) (res : Bool) : Nat := (b.live.filter fun e => e.2.reserved == res).length

/-- An entry is free for an effective class; `true` when it is a reserved one. -/
def freeEntry (b : Block) (eff : Nat) : Option Bool :=
  if eff == 0 && usedEntries b true < 256 then some true else if usedEntries b false < 3840 then some false else none

/-- The yard keeps a descriptor on its ring: a PK opcode while PK dispatch is withheld (R300), a splice while every pair has a
fenced lane (R268). -/
def withheld (b : Block) (d : Desc) : Bool :=
  (b.pack.withheld && 0x40 ≤ d.op && opKnown d.op) || (d.op == 0x18 && (b.bridgesFenced || splicePairs b == 0))

/-- A ring's head descriptor when every condition of R64 and of the knots holds. -/
def headReady (b : Block) (n r : Nat) : Option Captured :=
  let s := b.stall n
  match (b.ring n r).captured with
  | [] => none
  | c :: _ =>
    if fetchable b n r && !holdNow b && decide (0 < credits s) && decide (s.inFlight < s.cap) && pblkReady c
        && noKnotAhead b n r && ((b.ring n r).cancel || !withheld b c.desc)
        && (freeEntry b (effClass b n r c.desc)).isSome
    then some c else none

/-- Every ring that may dispatch, with its rank: effective class, turn of its stall, ring (R358). -/
def candidates (b : Block) : List (Nat × Nat × Nat) :=
  (b.stalls.ents.map Prod.fst).flatMap fun n => [0, 1, 2, 3].filterMap fun r =>
    (headReady b n r).map fun c =>
      let e := effClass b n r c.desc
      ((e * 512 + (n + 511 - b.rrDispatch.get e) % 512) * 4 + r, n, r)

/-- The least ranked. -/
def leastRank : List (Nat × Nat × Nat) → Option (Nat × Nat × Nat)
  | [] => none
  | x :: l => match leastRank l with
    | none => some x
    | some y => some (if x.1 ≤ y.1 then x else y)

/-- The lowest job-table index that is free. -/
def freeJob (b : Block) : Nat := ((List.range 4096).find? fun i => (b.job i).isNone).getD 0

/-- The 12 bytes of a hardware nonce (R210). -/
def nonceBytes (epoch n count : Nat) : Bytes := toBe 12 ((epoch % 2 ^ 32) * 2 ^ 64 + n * 2 ^ 54 + count)

/-- The ring's rope after its head is dispatched (R81, R123, R125). -/
def nextRope (g : Ring) (d : Desc) (serial : Nat) : Option (Nat × Nat) :=
  if !d.ropeNext then none
  else match g.rope with
    | none => some (serial, 1)
    | some (id, k) => some (id, k + 1)

/-- The rope the dispatched job is a strand of. -/
def ropeOf (g : Ring) (d : Desc) (serial : Nat) : Option Nat :=
  match g.rope with
  | some (id, _) => some id
  | none => if d.ropeNext then some serial else none

/-- Whether an opcode restores a state blob (R280). -/
def restores (d : Desc) : Bool := 0x20 ≤ d.op && d.op ≤ 0x25 && 2 ≤ d.stateMode

/-- The blob a key reference names, by address or by a blob address table entry (R80, R157, R178). -/
def blobRef (isBlob second : Bool) (ref : Nat) : List BlobRead :=
  if isBlob then [{ addr := BitVec.ofNat 64 ref, second }]
  else if ref / 2 ^ 20 == 4 then [{ bat := some (ref % 2 ^ 20), second }] else []

/-- The blobs a job's keys need: the first key, and a splice's second (R252). -/
def blobsOf (d : Desc) (p : Bytes) : List BlobRead :=
  (if takesKey d then blobRef d.keyIsBlob false d.keyRef.toNat else [])
    ++ (if d.op == 0x18 then blobRef (spDstBlob p) true (spDstRef p) else [])

/-- The new job record. -/
def newJob (b : Block) (n r : Nat) (c : Captured) : Job :=
  let d := c.desc
  let e := effClass b n r d
  { stall := Fin.ofNat 512 n, ring := Fin.ofNat 4 r, seq := c.idx, desc := d, pblk := pblkBytes c, ord := b.serial
    rope := ropeOf (b.ring n r) d b.serial, eff := e, reserved := (freeEntry b e).getD false
    keyDone := !takesKey d, attrDone := (attrAddr d).isNone, restoreDone := !restores d
    blobs := blobsOf d (pblkBytes c)
    srcWalk := { done := !(d.srcFrag && usesSrc d.op), next := d.src, want := d.sLen }
    dstWalk := { done := !(d.dstFrag && usesDst d.op), next := d.dst }
    supplyHold := false, grant := (b.stall n).spliceSource }

/-- The descriptor is consumed, the credit and entry taken, the budget charged (R56, R62, R64, R355, R364). -/
def consume (n r i : Nat) (c : Captured) (b : Block) : Block :=
  let d := c.desc
  let j := newJob b n r c
  let urgent := r == 0
  let charge := match opClass d.op with | some e => urgent && j.eff == 0 && classNum e < 3 | none => false
  let cost := estCost b d (pblkBytes c) []
  modRing n r (fun g => { g with captured := g.captured.drop 1, cons := g.cons + 1
                                 cancel := g.cancel && d.ropeNext, rope := nextRope g d b.serial })
    (modStall n (fun s => { s with held := s.held + 1, inFlight := s.inFlight + 1
                                   demoted := if urgent && j.eff == 1 then satAdd 32 s.demoted 1 else s.demoted
                                   tokens := if charge then tokAdd s.tokens ((opClass d.op).elim 0 classNum) (-(100 * (cost : Int))) else s.tokens })
      { b with jobs := b.jobs.set i (some { j with charged := if charge then cost else 0 }), serial := b.serial + 1, rrDispatch := b.rrDispatch.set j.eff n
               boot := { b.boot with asleep := false } })

/-- Draw the hardware nonce of a job that passed admission (R210, R211). -/
def drawNonce (n i : Nat) (b : Block) : Block :=
  match b.job i with
  | none => b
  | some j => when j.desc.nonceHw (fun b =>
      modStall n (fun s => { s with nonceCount := s.nonceCount + 1 })
        (modJob i (fun j => { j with nonce := nonceBytes b.boot.epoch n (b.stall n).nonceCount }) b)) b

/-- A NOP has started when the yard dispatched it, a KNOT when its condition holds, and a strand of either once the strands
before it are done: it only waits for its own row to end it (R20, R112). -/
def plainStarted (b : Block) (j : Job) : Bool := j.desc.op ≤ 0x01 && mayProceed b j

/-- The earlier, not started jobs a cancelling knot cancels (R20, R82, R119). -/
def knotVictims (b : Block) (k : Job) : List (Nat × Job) :=
  (jobsOf b k.stall.val).filter fun e => e.2.ord < k.ord && e.2.stage == .waiting && !plainStarted b e.2
    && (e.2.ring == k.ring || k.desc.stallKnot)

/-- Cancel one job. -/
def cancelByKnot (e : Nat × Job) (b : Block) : Block :=
  endOne e.1 .abortedManager (modJob e.1 (fun j => { j with byKnot := true }) b)

/-- A cancelling knot that passed admission (R82). -/
def cancellingKnot (i : Nat) (b : Block) : Block :=
  match b.job i with
  | none => b
  | some k =>
    if !(k.desc.op == 0x01 && k.desc.variant == 0x01) then b
    else
      let l := knotVictims b k
      tryIssue k.stall.val (each l (fun e => failRope e.2 .abortedManager) (each l cancelByKnot b))

/-- What follows consumption: cancellation, an admission failure, or preparation. -/
def admitJob (n i : Nat) (cancelled : Bool) (sts : List Status) (b : Block) : Block :=
  if cancelled then endJob i .cancelledRope b
  else match lowest sts with
    | some st => endJob i st b
    | none => cancellingKnot i (drawNonce n i b)

/-- Dispatch the head of ring `r` of stall `n` into job-table index `i`. -/
def dispatchHead (n r i : Nat) (c : Captured) (b : Block) : Block :=
  let b1 := refill n b
  admitJob n i (b1.ring n r).cancel (admission b1 n r c) (consume n r i c b1)

/-- JOB_DISPATCH: the head the arbitration of R358 serves, if any may be dispatched. -/
def jobDispatch (b : Block) : Block :=
  let b1 := refillAll b
  match leastRank (candidates b1) with
  | none => b
  | some (_, n, r) => match headReady b1 n r with
    | none => b
    | some c => dispatchHead n r (freeJob b1) c b1

def execJobDispatch (s : State) := updOn s 0 jobDispatch

end Sys2Proof.Machine
end

