-- ==== Sys2Proof/Machine/Keys.lean ====
section
/-!
DEFINITION. The tack room (05): handles, working slots, reservation and eviction, the orphan walk, integrity
tags, and the attributes a key may have.
-/

namespace Sys2Proof.Machine

/-! ## Algorithms (R162, R313, R332) -/

/-- The loaded curve of a curve tag (R313, R324). -/
def curveOfTag (b : Block) (tag : Nat) : Option Curve :=
  ((List.range 32).map fun c => b.curves.get c).find? fun c => c.state != 0 && curveTag c == tag

/-- Material length in bytes of an algorithm and size; none where R162 defines no such key. ALG 0x05, of stall-key slots only, is none for an
attribute block and a blob header (DEDUCED, assumption 112). -/
def materialLen (b : Block) (alg size : Nat) : Option Nat :=
  match alg with
  | 0x01 => if size == 128 || size == 192 || size == 256 then some (size / 8) else none
  | 0x02 => if size == 256 || size == 512 then some (size / 8) else none
  | 0x03 => if size == 256 then some 32 else none
  | 0x04 => if 112 ≤ size && size ≤ 1152 && size % 8 == 0 then some (size / 8) else none
  | 0x10 => if size == 256 then some 96 else if size == 384 then some 144 else if size == 521 then some 198 else none
  | 0x11 => if size == 255 then some 64 else none
  | 0x12 => if size == 448 then some 114 else none
  | 0x13 => if size == 255 then some 64 else none
  | 0x14 => if size == 448 then some 112 else none
  | 0x15 => (curveOfTag b size).map fun c => curveN c + 2 * curveL c
  | 0x18 => if size % 64 == 0 && 2048 ≤ size && size ≤ 8192 then some (8 + 5 * (size / 16)) else none
  | 0x20 => if size == 512 then some 864 else if size == 768 then some 1248 else if size == 1024 then some 1632 else none
  | 0x21 => if size == 44 then some 1344 else if size == 65 then some 1984 else if size == 87 then some 2624 else none
  | 0x22 => if 1 ≤ size && size ≤ 3 then some 112 else none
  | 0x23 => if size == 3 || size == 4 then some 64 else if size == 7 || size == 8 then some 96
            else if size == 11 || size == 12 then some 128 else none
  | _ => none

/-- The two halves of an AES-XTS key are equal (R205). -/
def xtsHalvesEqual (alg : Nat) (m : Bytes) : Bool := alg == 0x02 && m.take (m.length / 2) == m.drop (m.length / 2)

/-- Whether a key fits a symmetric mode (R206). -/
def fitsMode (mode alg size : Nat) : Bool :=
  if mode == 4 then alg == 0x02 else if mode == 9 then alg == 0x03 else if mode == 6 then alg == 0x01 && size != 192
  else alg == 0x01

/-- Whether a key fits a curve variant (R313). -/
def fitsCurve (b : Block) (v alg size : Nat) : Bool :=
  match curveSlot v with
  | some c => alg == 0x15 && size == curveTag (b.curves.get c)
  | none => alg == 0x10 && size == (if v == 1 then 256 else if v == 2 then 384 else 521)

/-- Whether a key fits an opcode's variant (R91, R170, R172, R206, R271, R313, R332). -/
def fitsJob (b : Block) (d : Desc) (second : Bool) (alg size : Nat) : Bool :=
  let v := d.variant.toNat
  match d.op with
  | 0x18 => fitsMode (if second then spDst d else spSrc d) alg size
  | 0x21 | 0x22 | 0x23 | 0x24 => alg == 0x04
  | 0x30 | 0x31 => if v == 0 then alg == 0x05 else alg == 0x01
  | 0x32 => alg == (if v == 1 then 0x01 else 0x04)
  | 0x33 => true
  | 0x41 | 0x43 => fitsCurve b v alg size
  | 0x44 => alg == (if v == 0x10 then 0x11 else 0x12)
  | 0x46 => alg == (if v == 0x18 then 0x13 else 0x14)
  | 0x48 => alg == 0x18 && size == 64 * v
  | 0x52 => alg == 0x20 && size == (if v == 1 then 512 else if v == 2 then 768 else 1024)
  | 0x55 => alg == 0x21 && size == (if dsaSet v == 1 then 44 else if dsaSet v == 2 then 65 else 87)
  | 0x58 => alg == 0x22 && size == 3
  | 0x59 => alg == 0x22 && size == v
  | 0x5C => alg == 0x23 && size == v
  | _ => fitsMode d.mode alg size

/-- The bit of ENGINE_MASK an opcode needs (R161, R166, R255). -/
def engineBit (op : Nat) : Nat :=
  if op == 0x18 then 4 else if op < 0x20 then 0 else if op < 0x30 then 1 else if op < 0x40 then 3 else 2

/-- USES bits (R161). -/
def uEncrypt : BitVec 16 := 1
def uDecrypt : BitVec 16 := 2
def uSign : BitVec 16 := 4
def uVerify : BitVec 16 := 8
def uDerive : BitVec 16 := 16
def uWrap : BitVec 16 := 32
def uSplice : BitVec 16 := 64
def uEcb : BitVec 16 := 128

/-- Whether a key's USES meet an opcode's (R166, R255). -/
def usesOk (d : Desc) (second : Bool) (u : BitVec 16) : Bool :=
  let ecb := if d.mode == 1 then uEcb else 0
  match d.op with
  | 0x10 => has u (uEncrypt ||| ecb)
  | 0x11 => has u (uDecrypt ||| ecb)
  | 0x12 => has u uEncrypt
  | 0x13 => has u uDecrypt
  | 0x14 | 0x21 | 0x23 => has u uSign
  | 0x15 | 0x22 | 0x24 => has u uVerify
  | 0x18 => has u (uSplice ||| (if second then uEncrypt else uDecrypt))
  | 0x30 | 0x31 => has u uWrap
  | 0x32 | 0x33 | 0x43 | 0x46 | 0x52 => has u uDerive
  | 0x41 | 0x44 | 0x55 | 0x59 | 0x5C => has u uSign
  | 0x48 => has u uSign || has u uDecrypt
  | _ => true

/-! ## Handles and slots (R157, R161) -/

def spaceOf (h : Nat) : Nat := h / 2 ^ 20 % 16
/-- The handle of a working slot. -/
def handleOf (b : Block) (i : Nat) : Nat := (b.slot i).gen.toNat % 128 * 8192 + i
/-- The working slot a handle names, when its reuse tag is current. -/
def workingOf (b : Block) (h : Nat) : Option Nat :=
  if spaceOf h == 0 && h < 2 ^ 24 && h / 8192 % 128 == (b.slot (h % 8192)).gen.toNat % 128 then some (h % 8192) else none
/-- The stall-key slot a handle names. -/
def stallKeyOf (h : Nat) : Option Nat := if h / 512 == 2 ^ 11 then some (h % 512) else none

/-- Unmasked material of a slot, and of a run from its head. -/
def slotBytes (s : Slot) : Bytes := xorBytes s.material s.mask
def runBytes (b : Block) : Nat → Nat → Bytes
  | 0, _ => []
  | n + 1, i => slotBytes (b.slot i) ++ runBytes b n (b.slot i).runNext
/-- A key's material. -/
def keyMaterial (b : Block) (i : Nat) : Bytes :=
  let s := b.slot i
  (runBytes b s.runLen i).take ((materialLen b s.alg s.size).getD s.len)

/-! ## Stall-key slots and their tags (R163, R189) -/

def barnKey (b : Block) : Bytes := (b.tack.sys.get 0).content
/-- Bytes 0 to 55 of a stall-key record. -/
def skRecord (k : StallKey) : Bytes :=
  fit 32 k.material ++ fit 8 k.fp ++ toLe 4 k.keyGen.toNat ++ toLe 4 k.tenancyGen.toNat ++ toLe 1 k.state ++ zeros 7
/-- An integrity tag over a class C slot (assumption 16: class 1 stall keys, 2 system slots). -/
def slotTag (b : Block) (cls i : Nat) (rec : Bytes) : Bytes :=
  kmac256 (barnKey b) (toLe 1 cls ++ toLe 2 i ++ rec) 8 (ascii "slot")
/-! ## System keys (R154) -/

def serialOf (b : Block) : Bytes := b.sensed.serial.getD (zeros 16)
/-- The root the life-cycle state selects (R149): maker, field, retire, identity are 0 to 3. -/
def selectedRoot (b : Block) : Option Bytes :=
  match b.lc with
  | 1 => (b.sensed.roots.getD 0 none) | 2 => (b.sensed.roots.getD 1 none) | 3 => (b.sensed.roots.getD 2 none) | _ => none

/-- The barn key, when the selected root, the identity root and the serial can be used (R522). -/
def barnOf (b : Block) : Option Bytes :=
  match selectedRoot b, b.sensed.roots.getD 3 none, b.sensed.serial with
  | some r, some _, some n => some (kmac256 (if b.sensed.tether then r ++ b.lt.latchKey.getD [] else r) n 32 (ascii "barn"))
  | _, _, _ => none

/-- The content of system slot `i`, derived or drawn; nothing for a slot no derivation fills. -/
def sysOf (b : Block) (i : Nat) : Option Bytes :=
  match barnOf b with
  | none => none
  | some k =>
    if i == 0 then some k
    else if i == 1 then some (kmac256 k (serialOf b) 32 (ascii "image"))
    else if i == 2 then some (drbgNow b 32)
    else if i == 3 then some (kmac256 ((b.sensed.roots.getD 3 none).getD []) (serialOf b) 88 (ascii "identity"))
    else if i == 4 && b.lc == 2 then some (kmac256 ((b.sensed.roots.getD 1 none).getD []) (serialOf b) 96 (ascii "transport"))
    else none

/-- A system slot's tag (R189); the barn key tags its own slot. -/
def sysTag (b : Block) (i : Nat) (x : Bytes) : Bytes := slotTag (if i == 0 then { b with tack := { b.tack with sys := b.tack.sys.set 0 { content := x } } } else b) 2 i x
/-- A system slot's content with its tag. -/
def setSys (i : Nat) (x : Bytes) (b : Block) : Block :=
  modTack (fun t => { t with sys := t.sys.set i (if x == [] then {} else { content := x, tag := sysTag b i x }) }) b
/-- A filled slot's tag is right. -/
def sysTagOk (b : Block) (i : Nat) : Bool :=
  (b.tack.sys.get i).content == [] || (b.tack.sys.get i).tag == sysTag b i (b.tack.sys.get i).content

/-- A system slot has failed its tag: a derived key is derived again, the state key drawn again; one that a rewrite does not mend, and a
custodian fingerprint, stays BAD (R189). In a supply hold no slot is written, and the use or sweep that finds it next writes it (R485).
While the entropy island gives nothing the state key's slot is BAD and keeps serving; it is drawn again at its next use or sweep after the
island is back, and at the latest at the next start-up (DESIGN CHOICE, assumption 97). -/
def sysFailed (stuck : Bool) (i : Nat) (b : Block) : Block :=
  let slot := b.tack.sys.get i
  let b1 := raise evSlotBad (toLe 1 2 ++ toLe 2 i) b
  let bad := modTack fun t => { t with sys := t.sys.set i { slot with bad := true } }
  if anyHold b then b1
  else if 5 ≤ i || (i == 2 && noEntropy b) then bad b1
  else if stuck then raiseWith (max 2 (respOf b evSlotBad 0xFF)) evSlotBad (toLe 1 2 ++ toLe 2 i) 0xFF (bad b1)
  else match sysOf b i with
    | some x => (if i == 2 then drew else id) (setSys i x b1)
    | none => bad b1

/-- The draw that a failed state key waited for. -/
def redrawState (b : Block) : Block :=
  if (b.tack.sys.get 2).bad && !noEntropy b && !anyHold b then
    (match sysOf b 2 with | some x => drew (setSys 2 x b) | none => b)
  else b
/-- A system slot is used: its tag is checked first, and the barn key's, under which it stands (R189). -/
def checkSys (i : Nat) (b : Block) : Block :=
  let b := if i == 2 then redrawState b else b
  if (b.tack.sys.get i).bad || sysTagOk b i then b else sysFailed false i b
def useSys (i : Nat) (b : Block) : Block := checkSys i (checkSys 0 b)

/-! ## Stall keys -/

/-- The stall key's fingerprint. -/
def skFp (material : Bytes) : Bytes := kmac256 material [] 8 (ascii "fp")
/-- A slot's tag is right; a slot never written is taken as tagged, and while no barn key is held there is none to judge a tag by, until
the next one computes it again (R154, assumption 19). -/
def skTagOk (b : Block) (n : Nat) : Bool :=
  barnKey b == [] || b.sk n == {} || (b.sk n).tag == slotTag b 1 n (skRecord (b.sk n))
/-- Recompute a slot's tag. -/
def skRetag (n : Nat) (b : Block) : Block := modSk n (fun k => { k with tag := slotTag b 1 n (skRecord k) }) b
/-- A stall-key slot that holds a usable key. -/
def skUsable (b : Block) (n : Nat) : Bool := (b.sk n).state == 1 && skTagOk b n

/-- A stall-key slot failed its tag: it is BAD (R189). In a supply hold its `STATE` cannot be written; every use and every sweep that
finds it raises the event until it is (R485). -/
def skMarkBad (n : Nat) (b : Block) : Block :=
  raise evSlotBad (toLe 1 1 ++ toLe 2 n) (when (!anyHold b) (modSk n (fun k => { k with state := 2 })) b)
/-- A VALID stall-key slot is used: its tag is checked first, and the barn key's, under which it stands (R189). -/
def checkSk (n : Nat) (b : Block) : Block := when ((b.sk n).state == 1 && !skTagOk b n) (skMarkBad n) b
def useSk (n : Nat) (b : Block) : Block := checkSk n (checkSys 0 b)
/-- Every class C slot whose content an image holds is used (R186, R189). -/
def useClassC (b : Block) : Block :=
  each [5, 6, 7, 8] checkSys (each (b.tack.stallKeys.ents.map Prod.fst) checkSk (useSys 1 b))

/-! ## Orphans (R167) -/

/-- The working ancestors of a slot fail the walk. -/
def chainBroken (b : Block) : Nat → Slot → Bool
  | 0, _ => false
  | n + 1, s =>
    if s.parent.toNat / 2 ^ 24 ≤ 1 then false
    else
      let p := b.slot (s.parent.toNat % 8192)
      p.gen != s.parentGen || chainBroken b n p

/-- The orphan walk of a key fails. -/
def walkFails (b : Block) (s : Slot) : Bool :=
  chainBroken b 3 s
    || (!s.isGlobal && (s.skGen != (b.sk s.ownerStall).keyGen || s.tenGen != (b.sk s.ownerStall).tenancyGen))

/-- Valid keys that fail the walk, or parts of one (R192). -/
def orphans (b : Block) : List Nat :=
  (b.tack.slots.ents.filter fun e => e.2.valid && walkFails b e.2).map Prod.fst
/-- Their slots, those of their runs among them: ORPHANS_PENDING. -/
def orphanSlots (b : Block) : Nat := ((orphans b).map fun i => max 1 (b.slot i).runLen).sum

/-! ## Reservation and eviction (R196, R197) -/

/-- Slots kept for keys that jobs will install, and for the cached copies their blobs will make, with the stall they go to; a blob whose
job has gone keeps its slots until its unit is done with it (R360). -/
def targets (b : Block) : List (Nat × Nat) := b.live.flatMap fun e => e.2.target.map fun i => (i, e.2.stall.val)
def roomOf (x : BlobRead) : List (Nat × Nat) := x.room.map fun i => (i, field x.head.bytes 6 2)
def rooms (b : Block) : List (Nat × Nat) :=
  b.live.flatMap (fun e => e.2.blobs.flatMap roomOf)
    ++ [0, 1].flatMap fun u => ((b.unwrapLeft.get u).map fun l => roomOf l.blob).getD []
/-- A free slot that is spoken for. -/
def spokenFor (b : Block) (i : Nat) : Bool := (targets b ++ rooms b).any fun t => t.1 == i
/-- Slots of a stall, pinned or not: those it occupies, and those spoken for. -/
def ownPinned (b : Block) (n : Nat) : List Nat :=
  (b.tack.slots.ents.filter fun e => e.2.occupied && !e.2.isGlobal && e.2.ownerStall == n && e.2.pinned).map Prod.fst
    ++ ((targets b).filter fun t => t.2 == n).map Prod.fst
def ownUnpinned (b : Block) (n : Nat) : List Nat :=
  (b.tack.slots.ents.filter fun e => e.2.occupied && !e.2.isGlobal && e.2.ownerStall == n && !e.2.pinned).map Prod.fst
    ++ ((rooms b).filter fun t => t.2 == n).map Prod.fst
def pinnedBy (b : Block) (n : Nat) : Nat := (ownPinned b n).length
/-- Slots a stall holds. -/
def heldBy (b : Block) (n : Nat) : Nat := pinnedBy b n + (ownUnpinned b n).length
/-- Slots a stall takes beyond its reservation, whose last slot no pinned key takes. -/
def overBy (held pinned reserved : Nat) : Nat := max (held - reserved) (pinned - (reserved - 1))
def reservedSum (b : Block) : Nat := ((List.range 512).map fun n => (b.stall n).reservedSlots).sum
def globalSlots (b : Block) : Nat := (b.tack.slots.ents.filter fun e => e.2.occupied && e.2.isGlobal).length
/-- Slots of the shared pool in use when stall `who` held `k` slots more, of them `p` pinned. -/
def sharedUse (b : Block) (who : Option Nat) (k p : Nat) : Nat :=
  globalSlots b + (if who.isNone then k else 0)
    + ((List.range 512).map fun n =>
        let x := if who == some n then (k, p) else (0, 0)
        overBy (heldBy b n + x.1) (pinnedBy b n + x.2) (b.stall n).reservedSlots).sum
/-- Of `k` slots more for an owner, of them `p` pinned, those that come from the shared pool. -/
def poolNeed (b : Block) (who : Option Nat) (k p : Nat) : Nat :=
  match who with
  | none => k
  | some n => overBy (heldBy b n + k) (pinnedBy b n + p) (b.stall n).reservedSlots - overBy (heldBy b n) (pinnedBy b n) (b.stall n).reservedSlots
/-- Working slots that nothing occupies or speaks for. -/
def slotsLeft (b : Block) : Nat := 8192 - (b.tack.slots.ents.filter fun e => e.2.occupied).length - (targets b ++ rooms b).length
/-- Whether an owner may take `k` more slots now: there are so many, and what they need of the shared pool fits into it. A stall's own
reservation is its own however full the pool is (R196). -/
def roomFor (b : Block) (who : Option Nat) (k : Nat) (pinned : Bool) : Bool :=
  let p := if pinned then k else 0
  k ≤ slotsLeft b && (poolNeed b who k p == 0 || sharedUse b who k p ≤ 8192 - reservedSum b)

/-- A job holds the cached copy of a slot. -/
def heldByJob (b : Block) (i : Nat) : Bool :=
  b.live.any fun e => e.2.keys.any (fun k => k.slot == some i) || e.2.blobs.any (fun x => x.slot == some i)

/-- Slot `i`, not pinned, lies within its stall's reservation. R196 counts slots and tells none apart: the reserved ones are taken to be
as many of the lowest-numbered as the pinned keys leave of the reservation (DESIGN CHOICE, assumption 96). -/
def inReservation (b : Block) (n i : Nat) : Bool :=
  ((ownUnpinned b n).filter (· < i)).length + min (pinnedBy b n) ((b.stall n).reservedSlots - 1) < (b.stall n).reservedSlots

/-- Cached copies that may be evicted. -/
def evictable (b : Block) : List (Nat × Slot) :=
  b.tack.slots.ents.filter fun e => e.2.valid && !e.2.pinned && !e.2.isGlobal && !heldByJob b e.1

/-- The least recently used. -/
def lru : List (Nat × Slot) → Option Nat
  | [] => none
  | e :: l => (l.foldl (fun (m : Nat × Slot) x => if x.2.lastUse < m.2.lastUse then x else m) e).1

/-- One reserved slot given up would serve a stall that asks for `k` slots more, of them `p` pinned. -/
def ownHelps (b : Block) (n k p : Nat) : Bool :=
  slotsLeft b < k
    || overBy (heldBy b n + k - 1) (pinnedBy b n + p) (b.stall n).reservedSlots < overBy (heldBy b n + k) (pinnedBy b n + p) (b.stall n).reservedSlots

/-- The next copy to evict: the least recently used of the stall's own reserved slots, else of the shared pool, whosever it is (R197). -/
def victim (b : Block) (who : Option Nat) (k : Nat) (pinned : Bool) : Option Nat :=
  let l := evictable b
  match lru (l.filter fun e => who == some e.2.ownerStall && inReservation b e.2.ownerStall e.1
      && ownHelps b e.2.ownerStall k (if pinned then k else 0)) with
  | some i => some i
  | none => lru (l.filter fun e => !inReservation b e.2.ownerStall e.1)

/-- Evict until `k` slots can be taken; `none` when they cannot. -/
def makeRoom (who : Option Nat) (k : Nat) (pinned : Bool) : Nat → Block → Option Block
  | 0, b => if roomFor b who k pinned then some b else none
  | n + 1, b =>
    if roomFor b who k pinned then some b
    else match victim b who k pinned with
      | none => none
      | some i => makeRoom who k pinned n (dropKey i b)

/-- The lowest `k` free slots. -/
def freeSlots (b : Block) (k : Nat) : List Nat :=
  ((List.range 8192).filter fun i => !(b.slot i).occupied && !spokenFor b i).take k

/-- Take `k` slots for an owner, from a named free slot on where one is named. -/
def takeSlots (who : Option Nat) (k : Nat) (pinned : Bool) (first : Option Nat) (b : Block) : Option (List Nat × Block) :=
  match makeRoom who k pinned (b.tack.slots.ents.length) b with
  | none => none
  | some b1 =>
    let l := match first with
      | none => freeSlots b1 k
      | some i => i :: ((freeSlots b1 (k + 1)).filter (· != i)).take (k - 1)
    if l.length == k then some (l, b1) else none

/-! ## Writing a key (R161) -/

/-- The record of part `p` of a run of `l`, from the attributes in `a`. -/
def partOf (a : Slot) (material mask : Bytes) (l : List Nat) (p : Nat) (old : Slot) : Slot :=
  let chunk := fit 64 (slice material (64 * p) 64)
  let next := l.getD (p + 1) 0
  if p = 0 then
    { a with material := xorBytes chunk mask, mask, gen := old.gen, runLen := l.length, runNext := next
             kflags := a.kflags ||| kValid ||| (if 1 < l.length then kRunHead else 0) }
  else { owner := a.owner, kflags := kRunPart ||| (a.kflags &&& kPinned), material := xorBytes chunk mask, mask
         gen := old.gen, runNext := next, lastUse := a.lastUse }

/-- Write a key into the slots `l`. -/
def writeKey (a : Slot) (material : Bytes) (l : List Nat) (b : Block) : Block :=
  let len := material.length
  let priv := ((curveOfTag b a.size).map curveN).getD 0
  each (List.range l.length) (fun p b =>
    modSlot (l.getD p 0) (partOf { a with lastUse := b.tack.clock, len, priv } material (drbgNow b 64) l p) (drew b))
    (modTack (fun t => { t with clock := t.clock + 1 }) b)

/-- A slot has been used last: the order of eviction, which is no part of a slot's record (R161, R197). -/
def touch (i : Nat) (b : Block) : Block :=
  modTack (fun t => { t with clock := t.clock + 1 }) (modSlot i (fun s => { s with lastUse := b.tack.clock }) b)

/-- PARENT of a GLOBAL key: depth 1 and no parent, so that a key derived from it is at depth 2 (R161, R172; assumption 56). -/
def globalParent : BitVec 32 := BitVec.ofNat 32 (2 ^ 24)
/-- PARENT of a key whose parent is stall-key slot `n`, at depth 1. -/
def skParent (n : Nat) : BitVec 32 := BitVec.ofNat 32 (2 ^ 24 + 2 ^ 20 + n)

/-- A core may take work: in service, idle, its island not in a hold. -/
def coreFree (b : Block) (k : Nat) : Bool :=
  (b.cores.get k).inService && (b.coreJobs.get k).isNone && (b.cores.get k).state == 0 && !holding b (11 + k)
def freeCore (b : Block) : Option Nat := (List.range 8).find? (coreFree b)

/-- Attributes of a key owned by stall `n` with its stall-key slot as parent. -/
def stallKeyChild (b : Block) (n : Nat) (a : Slot) : Slot :=
  { a with owner := BitVec.ofNat 16 n, parent := skParent n, parentGen := (b.sk n).keyGen
           skGen := (b.sk n).keyGen, tenGen := (b.sk n).tenancyGen }

end Sys2Proof.Machine
end

