-- ==== Sys2Proof/Machine/Start.lean ====
section
/-!
DEFINITION. The start of a job (R20, R102, R112) and its going on after a hitch or a lane fault (R128, R231);
tie-off frames (R229, R286).
-/

namespace Sys2Proof.Machine

/-! ## Reads of a running job -/

/-- What a job reads beside its source: address and length at `AUX`, and of an expected value. -/
def auxRead (j : Job) : Option (Addr × Nat) :=
  let d := j.desc
  let v := d.variant.toNat
  match d.op with
  | 0x13 | 0x15 => some (d.aux, tagLen d.mode d.param)
  | 0x18 => if aeadMode (spSrc d) then some (BitVec.ofNat 64 (spSrcTag j.pblk), tagLen (spSrc d) (field j.pblk 0 1)) else none
  | 0x22 => some (d.aux, digestLen d.alg)
  | 0x24 => some (BitVec.ofNat 64 (kmExp j.pblk), d.aLen)
  | 0x45 => some (d.aux, if v == 0x10 then 96 else 171)
  | 0x56 => some (d.aux, dsaPk (dsaSet v) + dsaSig (dsaSet v))
  | 0x59 => some (d.aux, 128)
  | 0x5A => some (d.aux, lmsPk v d.iv + lmsSig v d.iv)
  | 0x5B => some (d.aux, xmssPk v + xmssSig v)
  | 0x5D => some (d.aux, slhPk v + slhSig v)
  | _ => none

/-- The expected digest of a fixity tap (R260). -/
def tapRead (j : Job) : Option (Addr × Nat) :=
  if j.desc.op == 0x18 && spTapAlg j.pblk != 0 then
    some (BitVec.ofNat 64 (spTap j.pblk), if spTapAlg j.pblk == 0x12 then 32 else 64)
  else none

/-- Reads at one address on a job's port. -/
def readAt (owner : Owner) (j : Job) (b : Block) (a : Option (Addr × Nat)) : List Req :=
  match a with
  | none => []
  | some (a, n) => readReqs owner (stallIdent b j.stall.val) (jobPrio j) (jobTurn j) (pieces a 0 n)

/-- Bytes of an input of `n` bytes that its engine reads in one piece: a core reads 4 KiB of one longer than its region P (R295). -/
def pieceLen (d : Desc) (n : Nat) : Nat := if 0x40 ≤ d.op && 8192 < n then 4096 else n

/-- Reads of the source from byte `skip` on, as far as the engine reads in one piece. -/
def srcReads (owner : Owner) (j : Job) (b : Block) (skip : Nat) : List Req :=
  let d := j.desc
  let n := min (pieceLen d d.sLen) (d.sLen - skip)
  if !usesSrc d.op || d.srcChute then []
  else readReqs owner (stallIdent b j.stall.val) (jobPrio j) (jobTurn j)
    (if d.srcFrag then fragPieces skip 0 (clipFrags (skip + n) j.srcWalk.frags) else pieces (d.src + BitVec.ofNat 64 skip) skip n)
/-- Reads of what a job reads at `AUX` from byte `skip` on, likewise. -/
def auxReads (i : Nat) (j : Job) (b : Block) (skip : Nat) : List Req :=
  readAt (.aux i) j b ((auxRead j).map fun a => (a.1 + BitVec.ofNat 64 skip, min (pieceLen j.desc a.2) (a.2 - skip)))
    |>.map fun r => { r with off := r.off + skip }

/-- The second reads of a job's fragment tables (R87). -/
def tableReads (i : Nat) (j : Job) (b : Block) : List Req :=
  (j.srcWalk.pieces ++ j.dstWalk.pieces).map fun p =>
    { addr := p.1, len := p.2.length, ident := stallIdent b j.stall.val, owner := .tableAgain i p.2, prio := 2
      turn := 4 * j.stall.val + j.ring.val }

def bufFor (l : Option (Addr × Nat)) : Buf := match l with | some (_, n) => { want := n } | none => {}

/-- Issue the reads of a job whose source has been consumed up to `skip`. -/
def issueReads (i skip : Nat) (b : Block) : Block :=
  match b.job i with
  | none => b
  | some j =>
    let memSrc := usesSrc j.desc.op && !j.desc.srcChute
    offer j.port (auxReads i j b 0 ++ readAt (.exp i) j b (tapRead j) ++ srcReads (.src i) j b skip)
      (modJob i (fun j => { j with src := if memSrc then { want := j.desc.sLen - skip } else {}
                                   aux := bufFor (auxRead j), exp := bufFor (tapRead j), again := {} }) b)


/-! ## Frames (R229, R230, R286) -/

/-- The bytes of a frame that its check code covers. -/
def frameBytes (f : Frame) : Bytes :=
  toLe 2 f.job ++ toLe 1 f.kind ++ toLe 1 f.variant.toNat ++ toLe 1 f.phase ++ toLe 1 f.cmp ++ zeros 2 ++ toLe 8 f.srcDone ++ toLe 8 f.dstDone
    ++ toLe 4 f.srcFragPos ++ toLe 4 f.dstFragPos ++ (if f.kind == 3 then fit 216 f.modeState else fit 80 f.modeState ++ zeros 8)

/-- A frame with its check code under the state key. -/
def sealFrame (b : Block) (f : Frame) : Frame := { f with check := fit 8 (Config.frameCheck (stateKey b) (frameBytes f)) }
def frameOk (b : Block) (f : Frame) : Bool := f.check == fit 8 (Config.frameCheck (stateKey b) (frameBytes f))

/-- The frame a job comes back from: a job in recovery comes back from the recovery frame, whatever took it there (R235). -/
def frameOf (b : Block) (i : Nat) (j : Job) : Frame :=
  let p := (b.ring j.stall.val j.ring.val).page
  if p.recovery.kind != 0 && p.recovery.job == i then p.recovery else p.hitch

/-- A frame is the job's own and passes its check. -/
def ownFrame (b : Block) (i : Nat) (f : Frame) : Bool := f.kind != 0 && f.job == i && frameOk b f
/-- The frames a job comes back from pass their check; a splice has one for each lane (R231, R265). -/
def framesOk (b : Block) (i : Nat) (j : Job) : Bool :=
  let p := (b.ring j.stall.val j.ring.val).page
  if j.desc.op == 0x18 then ownFrame b i p.hitch && ownFrame b i p.recovery else ownFrame b i (frameOf b i j)

/-- USE of a state blob for an opcode (R282). -/
def stateUse (op : Nat) : Nat := if op == 0x21 || op == 0x22 then 1 else if op == 0x23 || op == 0x24 then 2 else 0

/-! ## The state of a digest job -/

/-- Function name, customisation of KMAC and cSHAKE (R273). -/
def jobName (j : Job) : Bytes := kmName j.pblk
def jobCust (j : Job) : Bytes := kmCust j.pblk

/-- The state a digest job begins with: after its key block or prefix, or restored (R271, R274, R280). -/
def digestStart (j : Job) : Bytes :=
  let a := j.desc.alg
  if 2 ≤ j.desc.stateMode then fit (stateLen a) (unshare j.restored)
  else if stateUse j.desc.op == 1 then (if j.padded == [] then ipadState a (keyAt j 0) else (unshare j.padded).take (stateLen a))
  else if stateUse j.desc.op == 2 then kmacStart a (keyAt j 0) (jobCust j)
  else if 0x23 ≤ a && a ≤ 0x24 then prefixState a (jobName j) (jobCust j)
  else hashInit a

/-- The running state of a digest job after `src` (R280, R282): SHA-2's hash words, or the Keccak state, zero-filled. -/
def runningState (j : Job) (src : Bytes) : Bytes := fit 200 (absorb j.desc.alg (digestStart j) (wholePart j.desc.alg src))

/-! ## The keyed-digest state cache (R277 to R279) -/

/-- The states after K XOR ipad and K XOR opad. -/
def cacheStates (alg : Nat) (key : Bytes) : Bytes := ipadState alg key ++ opadState alg key

/-- An entry matches the key of R277. -/
def cacheHit (i : Nat) (gen : BitVec 32) (alg : Nat) (e : CacheEnt) : Bool := e.slot == i && e.gen == gen && e.alg == alg

/-- A new entry for the states of a released key; it replaces the least recently used of 1,024 (R269, R278). Without randomness
for its mask, or when the slot's GEN has risen since the release (R279), none is written. -/
def cacheAdd (isl i alg : Nat) (k : KeyCopy) (b : Block) : Block :=
  let st := cacheStates alg k.material
  let mask := drbgNow b st.length
  let b1 := modIsland isl (fun x => { x with misses := satAdd 32 x.misses 1 }) b
  if noEntropy b || (b.slot i).gen != k.attrs.gen then b1
  else modIsland isl (fun x => { x with
    cache := ({ slot := i, gen := k.attrs.gen, alg, share := xorBytes st mask, mask } :: x.cache).take 1024 }) (drew b1)

/-- HMAC over SHA-2 takes its two states from the island's cache (R277, R278): the lane holds them in two shares. -/
def cacheUse (i : Nat) (j : Job) (b : Block) : Block :=
  match j.engine, j.keys with
  | some (.digest l), k :: _ => match k.slot with
    | some n =>
      if 5 < j.desc.alg || stateUse j.desc.op != 1 then b
      else
        let isl := l.val / 8
        match (b.islands.get isl).cache.find? (cacheHit n k.attrs.gen j.desc.alg) with
        | some e => modJob i (fun x => { x with padded := [e.share, e.mask] })
            (modIsland isl (fun x => { x with cache := e :: x.cache.erase e, hits := satAdd 32 x.hits 1 }) b)
        | none => modJob i (fun x => { x with padded := share2 b (cacheStates j.desc.alg k.material) }) (cacheAdd isl n j.desc.alg k b)
    | none => b
  | _, _ => b

/-! ## Start -/

/-- Both preparation checks have ended. -/
def prepared (j : Job) : Bool := j.keyDone && j.attrDone && j.restoreDone && j.srcWalk.done && j.dstWalk.done

/-- The slot of a released key whose use is counted: it still holds the key, and its limit is neither unlimited nor used up (R102, R161). -/
def countedSlot (b : Block) (k : KeyCopy) : Option Nat :=
  k.slot.filter fun i => (b.slot i).gen == k.attrs.gen && (b.slot i).useLimit != 0xFFFFFFFF && (b.slot i).useLimit != 0
/-- Charge a use limit once (R102). -/
def chargeUse (k : KeyCopy) (b : Block) : Block :=
  match countedSlot b k with
  | none => b
  | some i => modSlot i (fun s => { s with useLimit := s.useLimit - 1 }) b

/-- The keys a job is charged for: not the subject of a KEY_WRAP. -/
def chargedKeys (j : Job) : List KeyCopy := if j.desc.op == 0x31 then j.keys.drop 1 else j.keys

/-- A core's region S holds the job's private key from its start, in the two shares the key bus brought (R14, R294). -/
def loadCore (j : Job) (b : Block) : Block :=
  match j.engine with
  | some (.core c) => modCore c.val (fun x => { x with regionS := j.keys.flatMap fun k => k.shares.flatten }) b
  | _ => b

/-- A keyed digest job on its lane. -/
def keyedDigest (j : Job) : Bool := takesKey j.desc && (match j.engine with | some (.digest _) => true | _ => false)
/-- The running state of a keyed digest job as its lane holds it, in two shares with fresh bits whose values are free (R270). -/
def shareRunning (i : Nat) (b : Block) : Block :=
  match b.job i with
  | none => b
  | some j => when (keyedDigest j && j.stage == .running) (fun b =>
      let g := freeNow b 200
      freed (modJob i (fun x => { x with running := [xorBytes (runningState j (haveSrc j)) g, g] }) b)) b

/-! ## Chute input (R450, R453, R454) -/

/-- Release the output up to the boundary (R201, R233). -/
def releaseOut (i : Nat) (j : Job) (out : Bytes) (b : Block) : Block :=
  if j.dstDone < out.length then
    modJob i (fun j => { j with dstDone := out.length }) (writeOut i j.dstDone true (out.drop j.dstDone) b)
  else b

/-- Bytes of its chute's packet that a job holds and has not turned into output that its destination has taken, or absorbed (R454). -/
def chuteAhead (b : Block) (i : Nat) (j : Job) : Nat :=
  j.chuteIn.length - (j.seen.length - (j.outRest.length + (((waitingWrites b i).filter fun r => r.owner == .data i).map Req.len).sum))
/-- An item more leaves an engine with at most 256 such bytes (R454): before the expected tag or digest of its job has come it turns
none over; a landing buffer takes the whole packet. -/
def chuteRoom (b : Block) (i : Nat) (j : Job) : Bool :=
  staged j.desc || (if j.aux.full && j.exp.full then chuteAhead b i j else j.chuteIn.length) ≤ 224

/-- Items the job may still take: it has started and is on its engine, no island of which holds (R243, R450, R453). -/
def wantsItems (b : Block) (i c : Nat) : Bool :=
  match b.job i with
  | some j => j.stage == .running && !j.chuteEop && j.chuteErr.isNone && (b.chute c).holder == some i
    && (readable (b.chute c) || idleNext (b.chute c)) && !holding b 23 && !engineHeld b j && chuteRoom b i j
  | none => false

/-- Where a job fed by a chute has come to: the last boundary of what it has. -/
def chuteAt (j : Job) : Option Nat :=
  ((List.range (min 256 j.chuteIn.length + 1)).map fun d => j.chuteIn.length - d).find? (boundary j)
/-- A job fed by a chute turns over what it has up to there: output is released as it is produced, other work absorbs (R201, R223, R454).
A splice whose tap state is on its way back waits for it. -/
def turnOver (i : Nat) (b : Block) : Block :=
  match b.job i with
  | none => b
  | some j => match chuteAt j with
    | none => b
    | some k => when (j.stage == .running && !engineHeld b j && !staged j.desc && j.aux.full && j.exp.full && j.restore.full
        && j.seen.length < k)
        (fun b => modJob i (fun x => { x with seen := j.chuteIn.take k }) (releaseOut i j (passOut j k) b)) b

/-- The job takes every item it may, and turns each over (R450, R453, R454). -/
def takeAll (i c : Nat) : Nat → Block → Block
  | 0, b => b
  | n + 1, b =>
    if wantsItems b i c then
      match (b.chute c).items with
      | [] => b
      | x :: _ => takeAll i c n (turnOver i (takeItem i c x b))
    else b

/-- The job takes what its chute offers; a keyed digest's running state goes on with it (R270), and the landing buffer holds what a staged
job has gathered (R226, R453). -/
def feed (i : Nat) (b : Block) : Block :=
  match b.job i with
  | none => b
  | some j => match inChute j.desc with
    | none => b
    | some c =>
      let b1 := takeAll i c ((b.chute c).items.length + 1) (turnOver i b)
      match b1.job i with
      | none => b1
      | some j1 =>
        modChute c (fun x =>
          let x1 := if staged j1.desc && j1.chuteIn != [] then { x with landing := j1.chuteIn, landingOf := some i } else x
          if j1.chuteEop && x1.holder == some i then applyFlush { x1 with holder := none } else x1)
          (when (j.chuteIn.length < j1.chuteIn.length) (shareRunning i) b1)

/-! ## Starting -/

/-- The lane must compute the states of its key, and draws their mask: HMAC over SHA-2 whose states are not in the cache (R277, R278). -/
def cacheMiss (b : Block) (j : Job) : Bool :=
  match j.engine, j.keys with
  | some (.digest l), k :: _ => match k.slot with
    | some n => j.desc.alg ≤ 5 && stateUse j.desc.op == 1
        && ((b.islands.get (l.val / 8)).cache.find? (cacheHit n k.attrs.gen j.desc.alg)).isNone
    | none => false
  | _, _ => false

/-- The job starts: charged, a core given its key, the state cache looked up, its reads issued, its chute read (R20, R87, R102, R278). -/
def startJob (i : Nat) (b : Block) : Block :=
  match b.job i with
  | none => b
  | some j => shareRunning i (feed i (offer .rp (tableReads i j b) (issueReads i 0
      (cacheUse i j (loadCore j (each (chargedKeys j) chargeUse (modJob i (fun j => { j with stage := .running, started := true }) b)))))))

/-- A chute job starts when it takes its first item (R20, R450). -/
def inputThere (b : Block) (j : Job) : Bool :=
  match inChute j.desc with
  | none => true
  | some c => readable (b.chute c) && !holding b 23

/-- The charge of a use limit writes a slot: no island may hold (R485). -/
def chargeable (b : Block) (j : Job) : Bool := !anyHold b || (chargedKeys j).all fun k => (countedSlot b k).isNone
/-- Every condition of a start holds: its engine's island runs (R243), and its charge can be written (R485). -/
def mayStart (b : Block) (j : Job) : Bool :=
  j.stage == .waiting && j.engine.isSome && prepared j && j.found == [] && mayProceed b j && inputThere b j && !engineHeld b j && chargeable b j

/-- A job whose preparation has ended: with a condition found it ends with the lowest (R26, R101); with none and an
engine it starts. In a hold of the yard it waits (R13). One whose lane must draw a mask waits out a restart of the entropy island, and ends when that island has stopped (R488). -/
def settle (i : Nat) (b : Block) : Block :=
  if holding b 0 then b else
  match b.job i with
  | none => b
  | some j => match lowest j.found with
    | some st => when (j.stage == .waiting && prepared j) (endJob i st) b
    | none => when (mayStart b j) (if cacheMiss b j && b.boot.entropyStopped then endJob i .islandReset
        else when (!(cacheMiss b j && b.boot.entropyPaused)) (startJob i)) b

/-- Chute input put back at a hitch comes back to its job (R454). -/
def takeBack (i : Nat) (j : Job) (b : Block) : Block :=
  match inChute j.desc with
  | none => b
  | some c => modJob i (fun j => { j with chuteIn := j.chuteIn ++ ((b.chute c).putBack.lookup i).getD [] })
      (modChute c (fun x => { x with putBack := x.putBack.filter fun e => e.1 != i }) b)

/-- Read the saved tap state of a splice back; a zero-fill needs none (R249, R266). -/
def askTap (i : Nat) (j : Job) (b : Block) : Block :=
  if j.desc.op == 0x18 && spTapAlg j.pblk != 0 then
    offer j.port (readAt (.stateBlob i) j b (some (BitVec.ofNat 64 (spSave j.pblk), 280))) (modJob i (fun j => { j with restore := { want := 280 } }) b)
  else b

/-- It has come back and does not open. -/
def tapLost (b : Block) (j : Job) : Bool := j.desc.op == 0x18 && j.restore.want != 0 && j.restore.full && (tapSeal b j).isNone

/-- Read the payload again, from the first byte the second pass has not consumed: from memory, or from the landing buffer (R208, R226,
R263). -/
def secondPass (i : Nat) (j : Job) (b : Block) : Block :=
  let skip := j.desc.aLen + j.seen2.length
  let there := if j.desc.srcChute then [(skip, j.chuteIn.drop skip)] else []
  offer j.port (srcReads (.srcAgain i) j b skip)
    (modJob i (fun x => { x with pass2 := true, again := { want := j.desc.sLen - skip, parts := there } }) b)

def isHitched (j : Job) : Bool := match j.stage with | .hitched _ => true | _ => false

/-- A zero-fill goes on from the bytes it has zeroed, its tag location first (R103, R246). -/
def resumeFill (i : Nat) (j : Job) (b : Block) : Block :=
  laneDone i (zeroFrom i j.dstDone (zeroTag i (modJob i (fun x => { x with stage := .draining }) b)))

/-- Work goes on from where it stood: every input not yet consumed is read again, tables too (R87, R231). -/
def resumeWork (i : Nat) (j : Job) (b : Block) : Block :=
  shareRunning i (feed i (askTap i j (takeBack i j (offer .rp (tableReads i j b) ((if j.pass2 then secondPass i j else id)
    (cacheUse i j (loadCore j (issueReads i j.seen.length (modJob i (fun x => { x with stage := .running }) b)))))))))

/-- A job that has left its engine and has a new one, whose lane keeps no state of it (R246). -/
def resumable (j : Job) : Bool := j.engine.isSome && (j.stage == .retry || isHitched j) && j.kept == []

/-- A hitched job or a retry goes on: the frame is checked and zeroed (R231); a job that had hitched has now been resumed, one that
was a retry has been retried (R95). It waits while an island of its engine, or the yard, holds (R13, R243), or for a mask while the entropy island
restarts (R488). A tap save that failed on the port ends it, and adds its error to one in its zero-fill (R101, R268). -/
def resume (i : Nat) (b : Block) : Block :=
  match b.job i with
  | none => b
  | some j =>
    if !(resumable j && j.keyDone) || holding b 0 || engineHeld b j || (cacheMiss b j && b.boot.entropyPaused) then b
    else if j.portErr && !j.zeroFill then runError i .portError b
    else if cacheMiss b j && b.boot.entropyStopped then runError i .islandReset b
    else
    let b := useSys 2 b
    if !framesOk b i j then runError i .doubleFault b
    else
      let b1 := modJob i (fun x => { x with
          wasHitched := x.wasHitched || isHitched j, retried := x.retried || j.stage == .retry
          result := if j.portErr then { x.result with status := runStatus x.result.status .portError, verdict := 0, verdictInv := 0 } else x.result })
        (zeroFrames i j b)
      if j.zeroFill then resumeFill i j b1 else resumeWork i j b1

end Sys2Proof.Machine
end

