-- ==== Sys2Proof/Machine/Arbitration.lean ====
section
/-!
DEFINITION. Arbitration among the jobs that wait for an engine class (R359, R360, R362, R363).
-/

namespace Sys2Proof.Machine

/-! ## Who waits -/

/-- The chutes a job names are free of other reservations (R452, R455). -/
def chuteClear (b : Block) (i : Nat) (c : Option Nat) : Bool :=
  match c with
  | none => true
  | some c => let x := b.chute c
    (x.holder.isNone || x.holder == some i) && x.mover.isNone && !x.draining
/-- The landing buffer a staged job needs holds no other job's packet (R226). -/
def landingClear (b : Block) (i : Nat) (j : Job) : Bool :=
  match inChute j.desc with
  | some c => !staged j.desc || (b.chute c).landingOf.isNone || (b.chute c).landingOf == some i
  | none => true
def chutesClear (b : Block) (i : Nat) (j : Job) : Bool :=
  chuteClear b i (inChute j.desc) && chuteClear b i (outChute j.desc) && landingClear b i j

/-- Jobs of a class that wait for an engine: an unstarted one whose preparation has ended with a condition needs none (R26). -/
def waiters (b : Block) (e : EngClass) : List (Nat × Job) :=
  b.live.filter fun x => x.2.engine.isNone && opClass x.2.desc.op == some e
    && (isHitched x.2 || (x.2.stage == .waiting && (x.2.found == [] || !prepared x.2) && mayProceed b x.2))

/-- The unstarted head of each ring: jobs of one ring start in ring order (R359). -/
def heads (l : List (Nat × Job)) : List (Nat × Job) :=
  l.filter fun x => x.2.stage == .waiting && l.all fun y =>
    !(y.2.stage == .waiting && y.2.stall == x.2.stall && (y.2.ring == x.2.ring && y.2.ord < x.2.ord))

/-- Of the waiting jobs those that could take an engine: hitched ones, and the unstarted head of each ring once the chutes it names are
free; while they are not, it waits in its ring's order, and the jobs behind it with it (R359, R452). -/
def ready (b : Block) (l : List (Nat × Job)) : List (Nat × Job) :=
  l.filter fun x => isHitched x.2 || ((heads l).contains x && chutesClear b x.1 x.2)

/-- The highest effective class among waiting jobs. -/
def topClass (l : List (Nat × Job)) : Option Nat := (List.range 4).find? fun c => l.any fun x => x.2.eff == c

/-- The unstarted job of a stall and class that is chosen first: lower ring first (R359). -/
def stallHead (l : List (Nat × Job)) (n : Nat) : Option (Nat × Job) :=
  let m := l.filter fun x => x.2.stall.val == n
  m.find? fun x => m.all fun y => x.2.ring ≤ y.2.ring

/-- The job hitched first. -/
def firstHitched (l : List (Nat × Job)) : Option (Nat × Job) :=
  let key := fun (x : Nat × Job) => match x.2.stage with | .hitched k => k | _ => 0
  let m := l.filter fun x => isHitched x.2
  m.find? fun x => m.all fun y => key x ≤ key y

/-! ## Deficit round robin (R363) -/

/-- The visit at which a stall's deficit is positive, and its position after the stall served last. -/
def drrVisit (b : Block) (e c n : Nat) : Nat :=
  let d := b.deficit.get (deficitKey e c n)
  let q : Int := 256 * (b.stall n).qosWeight
  if 0 < d then 0 else ((-d) / q).toNat + 1
def drrPos (b : Block) (e c n : Nat) : Nat := (n + 512 - b.rrEngine.get (e * 4 + c)) % 512

/-- The stall the round robin serves, among those that wait. -/
def drrChoose (b : Block) (e c : Nat) (ns : List Nat) : Option Nat :=
  let key := fun n => drrVisit b e c n * 512 + drrPos b e c n
  ns.find? fun n => ns.all fun m => key n ≤ key m

/-- Quanta added on the way, the charge, and the lapse of a stall with none waiting (R363). -/
def drrCharge (e c n : Nat) (cost : Nat) (ns : List Nat) (lapse : Bool) (b : Block) : Block :=
  let v := drrVisit b e c n
  let p := drrPos b e c n
  let add := fun (b1 : Block) (m : Nat) =>
    let k : Int := if m != n && drrPos b e c m < p then v + 1 else v
    { b1 with deficit := b1.deficit.mod (deficitKey e c m) (· + k * (256 * (b.stall m).qosWeight)) }
  let b1 := ns.foldl add b
  { b1 with rrEngine := b1.rrEngine.set (e * 4 + c) n
            deficit := b1.deficit.mod (deficitKey e c n) fun d => if lapse then min (d - cost) 0 else d - cost }

/-- Charge a stall its grant: its credit lapses when none of its jobs is left waiting (R362, R363). -/
def drrGrant (e c i n cost : Nat) (ns : List Nat) (b : Block) : Block :=
  drrCharge e c n cost ns (!(b.live.any fun x => x.1 != i && waitsFor e x.2 && x.2.stall.val == n && x.2.eff == c)) b

end Sys2Proof.Machine
end

