-- ==== Sys2Proof/Machine/Prep.lean ====
section
/-!
DEFINITION. Preparation (steps 4a and 4b): the key decision, blobs, attribute blocks, fragment tables and
sealed state blobs, and the report both checks make together (R101).
-/

namespace Sys2Proof.Machine

/-! ## The key decision (R165 to R168, R255 to R258) -/

/-- Owner or grantee; a splice's source key may belong to the stall SPLICE_SOURCE names (R165, R257). -/
def ownerOk (b : Block) (j : Job) (second : Bool) (s : Slot) : Bool :=
  let n := j.stall.val
  let src := (b.stall n).spliceSource
  if s.isGlobal then s.grants.any fun g => g.getLsbD 15 && g.toNat % 512 == n
  else s.ownerStall == n || (j.desc.op == 0x18 && !second && src.getLsbD 15 && s.ownerStall == src.toNat % 512)

/-- Material of a header's MAT_LEN, and the padded length. -/
def blobMatLen (h : Bytes) : Nat := field h 30 2
def blobPad (h : Bytes) : Nat := roundUp (blobMatLen h) 16

/-- The header passes every check of R177 that needs no key. -/
def blobHeadOk (b : Block) (h : Bytes) : Bool :=
  slice h 0 4 == [0x4D, 0x42, 0x4C, 0x42] && field h 4 1 == 1 && field h 5 1 == 0 && field h 21 1 == 0 && allZero (slice h 44 20)
    && 14 ≤ blobMatLen h && blobMatLen h ≤ 3072 && materialLen b (field h 16 2) (field h 18 2) == some (blobMatLen h)

/-- MAT_LEN passes R177. -/
def matLenOk (b : Block) (h : Bytes) (batLen : Option Nat) : Bool :=
  14 ≤ blobMatLen h && blobMatLen h ≤ 3072 && materialLen b (field h 16 2) (field h 18 2) == some (blobMatLen h)
    && (match batLen with | none => true | some n => n == 80 + blobPad h)

/-- The stall a blob must name (R177, R257). -/
def blobStallOk (b : Block) (n : Nat) (source : Bool) (m : Nat) : Bool :=
  let src := (b.stall n).spliceSource
  m == n || (source && src.getLsbD 15 && m == src.toNat % 512)

/-- A header names a stall key the blob can be opened under: every check of R177 but its tag. -/
def blobNamesKey (b : Block) (n : Nat) (source : Bool) (h : Bytes) : Bool :=
  let m := field h 6 2
  blobHeadOk b h && blobStallOk b n source m && skUsable b m && slice h 8 8 == fit 8 (b.sk m).fp

/-- Open a blob: its padded material when it unwraps (R176, R177). -/
def blobOpen (b : Block) (n : Nat) (source : Bool) (h rest : Bytes) : Option Bytes :=
  let m := field h 6 2
  if blobNamesKey b n source h then
    (Config.sivOpen (fit 32 (b.sk m).material) (slice h 32 12) (h.take 64) (rest.take (blobPad h + 16))).map (fit (blobMatLen h))
  else none

/-- The record of a blob's key, from its header (R176, R178); reserved bits of ENGINE_MASK and USES, which R177 does not check, are copied
(DESIGN CHOICE, assumption 113). -/
def blobKey (b : Block) (h : Bytes) (m : Nat) : Slot :=
  stallKeyChild b m
    { alg := field h 16 2, size := field h 18 2, engineMask := BitVec.ofNat 8 (field h 20 1)
      uses := BitVec.ofNat 16 (field h 22 2), useLimit := BitVec.ofNat 32 (field h 24 4)
      kflags := (if field h 28 2 % 2 == 1 then kExportable else 0) ||| (if field h 28 2 / 2 % 2 == 1 then kInside else 0) }

/-- A copy unwrapped under a SPLICE_SOURCE grant serves as a splice's source key alone (R257). -/
def copyServes (j : Job) (second : Bool) (s : Slot) : Bool := !s.sourceOnly || (j.desc.op == 0x18 && !second)

/-- Conditions of a decision on the record of a working key. -/
def recConds (b : Block) (j : Job) (second again : Bool) (s : Slot) : List Status :=
  cond (!s.engineMask.getLsbD (engineBit j.desc.op)) .keyEngineDenied
    ++ cond (!usesOk j.desc second s.uses || !ownerOk b j second s || !fitsJob b j.desc second s.alg s.size
        || !copyServes j second s) .keyUseDenied
    ++ cond (s.isOrphaned || walkFails b s) .keyOrphaned
    ++ cond (!again && s.useLimit == 0) .keyUseLimit

/-- Conditions of a decision on a working slot. -/
def slotConds (b : Block) (j : Job) (second again : Bool) (i : Nat) : List Status :=
  let s := b.slot i
  if !s.valid || s.runPart then [.keyNotFound] else recConds b j second again s

/-- Conditions of a decision on stall-key slot `m` (R158, R163, R170). -/
def skConds (b : Block) (j : Job) (second : Bool) (m : Nat) : List Status :=
  if (b.sk m).state == 0 then [.keyNotFound]
  else cond (engineBit j.desc.op != 3) .keyEngineDenied
    ++ cond (m != j.stall.val || !usesOk j.desc second (uDerive ||| uWrap) || !fitsJob b j.desc second 0x05 256) .keyUseDenied
    ++ cond ((b.sk m).state == 2 || !skTagOk b m) .keySlotBad

/-- A job's key reference: the first key, or a splice's second. -/
def refOf (j : Job) (second : Bool) : Nat := if second then spDstRef j.pblk else j.desc.keyRef.toNat
/-- The blob that stands for a key. -/
def blobFor (j : Job) (second : Bool) : Option BlobRead := j.blobs.find? fun x => x.second == second

/-- The working slot that still holds a blob's copy: the slot's GEN has not risen since (R161). -/
def copySlot (b : Block) (x : BlobRead) : Option Nat := x.slot.filter fun i => (b.slot i).gen == x.gen

/-- The working slot a key reference resolves to. -/
def namedSlot (b : Block) (j : Job) (second : Bool) : Option Nat :=
  match blobFor j second with
  | some x => copySlot b x
  | none => workingOf b (refOf j second)

/-- A source blob of another stall whose grant stood when the job was admitted and has been cleared since (R258, R268). -/
def grantGone (b : Block) (j : Job) (x : BlobRead) (m : Nat) : Bool :=
  j.desc.op == 0x18 && !x.second && m != j.stall.val && j.grant.getLsbD 15 && m == j.grant.toNat % 512
    && !blobStallOk b j.stall.val true m

/-- What the decision can judge of a blob whose read failed (R165): without a header, that no stall key it could name
is VALID; with one, the header's own checks and the attributes it gives, or that the grant it needs is gone (R258). -/
def unreadConds (b : Block) (j : Job) (x : BlobRead) : List Status :=
  let h := x.head.bytes
  let source := j.desc.op == 0x18 && !x.second
  if x.rest.err then
    if grantGone b j x (field h 6 2) && blobHeadOk b h then [.keyUseDenied]
    else if blobNamesKey b j.stall.val source h then recConds b j x.second false (blobKey b h (field h 6 2)) else [.keyNotFound]
  else cond (!(List.range 512).any fun m => blobStallOk b j.stall.val source m && skUsable b m) .keyNotFound
    ++ cond (j.desc.op ≤ 0x31 && 0x30 ≤ j.desc.op && j.desc.variant == 0) .keyUseDenied

/-- Conditions found for one key. -/
def keyConds (b : Block) (j : Job) (second again : Bool) : List Status :=
  match blobFor j second with
  | some x =>
    if x.err then unreadConds b j x ++ [.portError]
    else if x.fails then [if x.ungranted then .keyUseDenied else .keyNotFound]
    else match copySlot b x with
      | some i => slotConds b j second again i
      | none => [.keyNotFound]
  | none =>
    match workingOf b (refOf j second), stallKeyOf (refOf j second) with
    | some i, _ => slotConds b j second again i
    | none, some m => skConds b j second m
    | none, none => [.keyNotFound]

/-- A working key as the tack room holds it, with its record. -/
def slotCopy (b : Block) (i : Nat) : KeyCopy :=
  let s := b.slot i
  { slot := some i, alg := s.alg, size := s.size, kflags := s.kflags, attrs := { s with material := zeros 64, mask := zeros 64 }
    shares := [keyMaterial b i] }

/-- A stall key as the tack room holds it, with its fixed attributes (R163). -/
def skCopy (b : Block) (m : Nat) : KeyCopy :=
  { alg := 0x05, size := 256, attrs := { alg := 0x05, size := 256, engineMask := 8, uses := uDerive ||| uWrap, useLimit := 0xFFFFFFFF }
    sk := { b.sk m with material := zeros 32, tag := zeros 8 }, shares := [fit 32 (b.sk m).material] }

/-- The key a decision releases. -/
def keyCopy (b : Block) (j : Job) (second : Bool) : List KeyCopy :=
  match namedSlot b j second, stallKeyOf (refOf j second) with
  | some i, _ => [slotCopy b i]
  | none, some m => [skCopy b m]
  | none, none => []

/-- A blob's address is known: the descriptor gives it, or its table entry has been read. -/
def addrKnown (x : BlobRead) : Bool := x.bat.isNone || x.batLen.isSome

/-- Whether a splice names one key twice (R255). -/
def sameKey (b : Block) (j : Job) : Bool :=
  (match blobFor j false, blobFor j true with
    | some x, some y => addrKnown x && addrKnown y && x.addr == y.addr
    | _, _ => false)
  || ((namedSlot b j false).isSome && namedSlot b j false == namedSlot b j true)

/-- SUBJECT of an attribute block (R171). -/
def subjectOf (j : Job) : Nat := field j.attrBlk.bytes 16 4

/-- Whether a key reference, or the subject of a KEY_WRAP, is a stall-key slot, a blob or a table entry: none of them serves in a replay
(R165, R187). -/
def replayNamed (j : Job) : Bool :=
  !j.blobs.isEmpty || (takesKey j.desc && !j.desc.keyIsBlob && spaceOf j.desc.keyRef.toNat == 1)
    || (j.desc.op == 0x18 && spaceOf (spDstRef j.pblk) == 1)
    || (j.desc.op == 0x31 && !j.attrBlk.err && (spaceOf (subjectOf j) == 1 || spaceOf (subjectOf j) == 4))

/-- Conditions on a KEY_WRAP subject (R165, R174): a working slot, or a stall-key slot, whose key is the stall's own and never exportable
(R163); a blob address table entry, which R159 and R178 let a descriptor name, is no key here (assumption 31). -/
def subjectConds (b : Block) (j : Job) : List Status :=
  match workingOf b (subjectOf j), stallKeyOf (subjectOf j) with
  | none, none => [.keyNotFound]
  | none, some m =>
    if (b.sk m).state == 0 then [.keyNotFound]
    else cond (m != j.stall.val || j.desc.variant != 0) .keyUseDenied ++ cond ((b.sk m).state == 2 || !skTagOk b m) .keySlotBad
  | some i, _ =>
    let s := b.slot i
    let v := j.desc.variant.toNat
    let len := (keyMaterial b i).length
    if !s.valid || s.runPart then [.keyNotFound]
    else cond (!s.engineMask.getLsbD 3) .keyEngineDenied
      ++ cond ((if v == 0 then s.isGlobal || s.ownerStall != j.stall.val
                else !ownerOk b j true s || !has s.kflags kExportable) || s.sourceOnly) .keyUseDenied
      ++ cond (s.isOrphaned || walkFails b s) .keyOrphaned
      ++ cond (s.useLimit == 0) .keyUseLimit
      ++ cond (v == 1 && (len < 16 || len % 8 != 0)) .lengthOutOfRange

/-- The subject's material, beside the wrapping key. -/
def subjectCopy (b : Block) (j : Job) : List KeyCopy :=
  match workingOf b (subjectOf j), stallKeyOf (subjectOf j) with
  | some i, _ => [slotCopy b i]
  | none, some m => [skCopy b m]
  | none, none => []

/-- A seal, the absence of a barn key, or a replay decides (R165); a job past step 4a is exempt from a seal alone. -/
def sealDecides (b : Block) (j : Job) : Bool :=
  (if j.passed4a then !barnHeld b else sealedPin b) || (b.tack.replay && replayNamed j)

/-- The lower-tree index of an LMS_KEYGEN whose key came as a blob: the comparison of R335 precedes the key request, as in admission, but
the height it needs is in the blob's copy alone, so it is made, alone, when the copy is there (assumption 61). -/
def blobIndexBad (b : Block) (j : Job) : Bool :=
  j.desc.op == 0x58 && (match (blobFor j false).bind (copySlot b) with
    | some i => (b.slot i).alg == 0x22 && 2 ^ lmsH (lmsType (keyTypes [slotCopy b i]) 0) ≤ field j.desc.iv 0 8
    | none => false)

/-- Every condition of one decision over all keys of a job. -/
def decision (b : Block) (j : Job) (again : Bool) : List Status :=
  if sealDecides b j then [.keysSealed]
  else if blobIndexBad b j then [.lengthOutOfRange]
  else keyConds b j false again
    ++ (if j.desc.op == 0x18 then keyConds b j true again ++ cond (sameKey b j) .keyUseDenied else [])
    ++ (if j.desc.op == 0x31 && !j.attrBlk.err then subjectConds b j else [])

/-- The keys a decision releases over the private key bus (R14, R15), in the order of R170: subject first for KEY_WRAP. -/
def released (b : Block) (j : Job) : List KeyCopy :=
  if j.desc.op == 0x31 then (if j.attrBlk.err then [] else subjectCopy b j) ++ keyCopy b j false
  else keyCopy b j false ++ (if j.desc.op == 0x18 then keyCopy b j true else [])

/-- A key sent to its engine: two shares under a fresh mask of the entropy island (R14); a cipher lane makes three of them as it
loads the key (R219). -/
def sendKey (cipher : Bool) (k : KeyCopy) (b : Block) : KeyCopy × Block :=
  let l := share2 b k.material
  if cipher then ({ k with shares := share3 (drew b) l }, freed (drew b)) else ({ k with shares := l }, drew b)
def sendKeys (cipher : Bool) : List KeyCopy → Block → List KeyCopy × Block
  | [], b => ([], b)
  | k :: l, b =>
    let x := sendKey cipher k b
    let y := sendKeys cipher l x.2
    (x.1 :: y.1, y.2)
/-- The released keys go to the engine the yard named. -/
def giveKeys (i : Nat) (j : Job) (b : Block) : Block :=
  let x := sendKeys (opClass j.desc.op == some .cipher) (released b j) b
  modJob i (fun y => { y with keys := x.1 }) x.2

/-! ## Attribute blocks (R171, R318, R333, R338) -/

/-- The algorithm and size a variant's new key must have. -/
def newKeyFits (b : Block) (d : Desc) (alg size : Nat) : Bool :=
  let v := d.variant.toNat
  match d.op with
  | 0x40 => if v == 0x10 then alg == 0x11 && size == 255 else if v == 0x11 then alg == 0x12 && size == 448
            else if v == 0x18 then alg == 0x13 && size == 255 else if v == 0x19 then alg == 0x14 && size == 448
            else fitsCurve b v alg size
  | 0x43 => alg == 0x04 && size == 8 * (curveLens b v).1
  | 0x46 => alg == 0x04 && size == (if v == 0x18 then 256 else 448)
  | 0x50 => alg == 0x20 && size == (if v == 1 then 512 else if v == 2 then 768 else 1024)
  | 0x51 | 0x52 => alg == 0x04 && size == 256
  | 0x54 => alg == 0x21 && size == (if v == 1 then 44 else if v == 2 then 65 else 87)
  | 0x58 => alg == 0x22 && size == v
  | 0x31 => true
  | _ => alg < 0x10

/-- KFLAGS and depth of the key the job names as the new key's parent, whatever the decision found. -/
def parentFlags (b : Block) (j : Job) : BitVec 16 := match namedSlot b j false with | some i => (b.slot i).kflags | none => 0
def depthOf (b : Block) (j : Job) : Nat := match namedSlot b j false with | some i => (b.slot i).parent.toNat / 2 ^ 24 | none => 0

/-- EXPORTABLE may be requested: the parent is exportable and not made inside, and the opcode allows it (R171, R318, R333, R338);
with no parent found there is none to forbid it, and a KEY_WRAP makes no key that could take it (assumption 57). -/
def exportOk (b : Block) (j : Job) : Bool :=
  j.desc.op == 0x31 || [0x30, 0x32, 0x43, 0x46].contains j.desc.op
    && ((namedSlot b j false).isNone || (has (parentFlags b j) kExportable && !has (parentFlags b j) kInside))

/-- The slot a pin request names can take the key (R171). -/
def pinOk (b : Block) (h : Nat) : Bool :=
  match workingOf b h with
  | some i => !(b.slot i).occupied && !spokenFor b i
  | none => false

/-- Whether an attribute block is refused (R171). A reserved bit of `REQ` refuses it as a reserved byte does: the rule names bytes alone
(DESIGN CHOICE, assumption 93). -/
def attrBad (b : Block) (j : Job) (a : Bytes) : Bool :=
  let alg := field a 0 2
  let size := field a 2 2
  let req := field a 12 1
  let subj := field a 16 4
  (materialLen b alg size).isNone || !newKeyFits b j.desc alg size
    || 32 ≤ field a 4 1 || field a 5 1 != 0 || 256 ≤ field a 6 2 || 4 ≤ req || !allZero (slice a 13 3) || !allZero (slice a 20 12)
    || (if req / 2 == 1 then !pinOk b subj else subj != 0 && j.desc.op != 0x31)
    || (req % 2 == 1 && !exportOk b j)
    || ((j.desc.op == 0x32 || j.desc.op == 0x33) && depthOf b j == 3)

/-- The attributes an accepted block gives. -/
def attrKey (a : Bytes) : NewKey :=
  { alg := field a 0 2, size := field a 2 2, engineMask := BitVec.ofNat 8 (field a 4 1), uses := BitVec.ofNat 16 (field a 6 2)
    useLimit := BitVec.ofNat 32 (field a 8 4), exportable := field a 12 1 % 2 == 1 }

/-- Keep slots for the new key; without room the job waits in step 4a (R197), and so it does when an eviction would write slots
while an island holds (R485). -/
def keepSlots (i k : Nat) (first : Option Nat) (nk : Option NewKey) (b : Block) : Block :=
  match b.job i with
  | none => b
  | some j => if anyHold b && !roomFor b (some j.stall.val) k true then b else
    match takeSlots (some j.stall.val) k true first b with
    | none => b
    | some (l, b1) => modJob i (fun j => { j with newKey := nk, target := l, attrDone := true }) b1

/-- The tack room checks a job's attribute block. -/
def checkAttr (i : Nat) (b : Block) : Block :=
  match b.job i with
  | none => b
  | some j =>
    let a := j.attrBlk.bytes
    if j.attrDone || !(j.attrBlk.full && j.attrBlk.want != 0 || j.attrBlk.err) then b
    else if j.attrBlk.err then modJob i (fun j => { j with found := j.found ++ [.portError], attrDone := true }) b
    else if attrBad b j a then modJob i (fun j => { j with found := j.found ++ [.keyUseDenied], attrDone := true }) b
    else if j.desc.op == 0x31 || j.found != [] then modJob i (fun j => { j with attrDone := true }) b
    else keepSlots i (ceilDiv ((materialLen b (field a 0 2) (field a 2 2)).getD 1) 64)
      (if field a 12 1 / 2 == 1 then workingOf b (field a 16 4) else none) (some (attrKey a)) b

/-- Read the attribute block, once (R171). -/
def askAttr (i : Nat) (b : Block) : Block :=
  match b.job i with
  | none => b
  | some j => match attrAddr j.desc with
    | none => b
    | some a => when (j.stage == .waiting && !j.attrDone && j.attrBlk.want == 0 && mayProceed b j) (fun b =>
        offer .rp (readReqs (.attr i) (stallIdent b j.stall.val) 2 (4 * j.stall.val + j.ring.val) (pieces a 0 32))
          (modJob i (fun j => { j with attrBlk := { want := 32 } }) b)) b

/-! ## Releasing keys -/

/-- The stall's own stall key, named as a job's key or as the subject of a KEY_WRAP: its tag is checked as it is used (R189). -/
def usesOwnSk (j : Job) : Bool :=
  (takesKey j.desc && (blobFor j false).isNone && stallKeyOf j.desc.keyRef.toNat == some j.stall.val)
    || (j.desc.op == 0x31 && !j.attrBlk.err && stallKeyOf (subjectOf j) == some j.stall.val)

/-- KEY_UNWRAP of a blob keeps slots for the material its SRC_LEN gives (R170, R197). -/
def unwrapSlots (i : Nat) (b : Block) : Block :=
  match b.job i with
  | none => b
  | some j =>
    if j.desc.op == 0x30 && j.desc.variant == 0 && j.found == [] && j.target == [] then
      let b1 := keepSlots i (max 1 (ceilDiv (j.desc.sLen - 80) 64)) none none b
      match (b1.job i).map fun x => x.target with
      | some [] => modJob i (fun j => { j with keyDone := false }) b1
      | _ => b1
    else b

/-- A released working slot has been used (R197). -/
def touchKey (k : KeyCopy) (b : Block) : Block := match k.slot with | some s => touch s b | none => b

/-- The material length of a KEY_WRAP's subject, when the tack room finds the subject (R86, R174). -/
def subjectLen (b : Block) (j : Job) : Option Nat :=
  if j.desc.op != 0x31 || j.attrBlk.err then none
  else match workingOf b (subjectOf j), stallKeyOf (subjectOf j) with
    | some i, _ => if !(b.slot i).valid || (b.slot i).runPart then none else some (keyMaterial b i).length
    | none, some m => if (b.sk m).state == 0 then none else some 32
    | none, none => none

/-- The conditions of a decision pair are recorded, with the length of the subject it found; with none the keys reach the engine. -/
def decided (i : Nat) (sts : List Status) (b : Block) : Block :=
  match b.job i with
  | none => b
  | some j =>
    let len := if sts.contains .keysSealed then none else subjectLen b j
    if sts == [] then
      giveKeys i j (each (released b j) touchKey (modJob i (fun x => { x with keyDone := true, passed4a := true, subject := len }) b))
    else modJob i (fun x => { x with keyDone := true, found := x.found ++ sts, subject := len }) b

/-- The first decision pair of step 4a (R25, R165). -/
def firstDecision (i : Nat) (j : Job) (t : Take) (b : Block) : Block :=
  let b1 := when (usesOwnSk j) (useSk j.stall.val) b
  if !takesKey j.desc || j.keyDone then b
  else if sealDecides b1 j then decided i [.keysSealed] b1
  else if b.boot.entropyStopped then decided i [.keysSealed] b1
  else if t = .split then raise evDecisionSplit [] (decided i [.keysSealed] b1)
  else if t = .cut then decided i [.keysSealed] b1
  else decided i (decision b1 j false) b1

/-- The repeated decision at an unhitch or retry (R24): a failure is a run-stage error; a zero-fill goes on whatever it finds, and
the status stays (R246). -/
def repeatDecision (i : Nat) (j : Job) (t : Take) (b : Block) : Block :=
  let split := t = .split && !sealDecides b j && !b.boot.entropyStopped
  let found := if split || b.boot.entropyStopped || (t = .cut && !sealDecides b j) then some .keysSealed else lowest (decision b j true)
  let b1 := when split (raise evDecisionSplit []) (modJob i (fun x => { x with keyDone := true }) b)
  match found with
  | some st => if j.zeroFill then resume i b1 else runError i st b1
  | none => resume i (giveKeys i j b1)

/-- Blobs finished, or not needed because a seal decides or no decision can be taken (R488). -/
def blobsReady (b : Block) (j : Job) : Bool := sealDecides b j || b.boot.entropyStopped || j.blobs.all fun x => x.phase == 4
/-- The attribute block has arrived or is not used. -/
def attrReady (j : Job) : Bool := j.attrDone || (j.attrBlk.want != 0 && (j.attrBlk.full || j.attrBlk.err))

/-- KEY_DECISION: the yard has named the engine in its key request (R15). -/
def keyDecision (i : Nat) (t : Take) (b : Block) : Block :=
  match b.job i with
  | none => b
  | some j =>
    if j.started then
      when (!j.keyDone && resumable j) (repeatDecision i j t) b
    else if j.stage != .waiting || !mayProceed b j || (j.keyDone && j.attrDone) then b
    else if !attrReady j then askAttr i b
    else if takesKey j.desc && j.engine.isNone then b
    else if !blobsReady b j then b
    else settle i (unwrapSlots i (checkAttr i (firstDecision i j t b)))

def execKeyDecision (job : JobId) (t : Take) (s : State) := updOn s 19 (when (!s.blk.boot.entropyPaused) (keyDecision job.val t))

/-! ## Blobs (R159, R176 to R178) -/

/-- The cached copy of a blob, when the material agrees (R178); one made under a grant serves only another use of a grant (R257). -/
def cachedCopy (b : Block) (m : Nat) (granted : Bool) (id material : Bytes) : Option Nat :=
  ((b.tack.slots.ents.filter fun e => e.2.valid && !e.2.pinned && !e.2.isGlobal && e.2.ownerStall == m && (granted || !e.2.sourceOnly)
    && e.2.cacheId == id && keyMaterial b e.1 == material).map Prod.fst).head?

/-- Change a job's `k`-th blob. -/
def modBlob (i k : Nat) (f : BlobRead → BlobRead) (b : Block) : Block :=
  modJob i (fun j => { j with blobs := j.blobs.modify k f }) b

/-- Reads of a blob on `rp_` with the job's identity (R178, R540). -/
def blobAsk (j : Job) (owner : Owner) (addr : Addr) (len : Nat) (b : Block) : Block :=
  offer .rp (readReqs owner (stallIdent b j.stall.val) 2 (4 * j.stall.val + j.ring.val) (pieces addr 0 len)) b

/-- The blob fails; `ungranted` when only the grant is missing. -/
def blobFails (i k : Nat) (ungranted : Bool) (b : Block) : Block :=
  modBlob i k (fun x => { x with fails := true, ungranted, phase := 4 }) b

/-- The cached copy a blob that has been read finds: one that carries its tag, against whose material the tag verifies (R178). -/
def blobHit (b : Block) (j : Job) (x : BlobRead) : Option Nat :=
  let h := x.head.bytes
  let m := field h 6 2
  (blobOpen b j.stall.val (j.desc.op == 0x18 && !x.second) h x.rest.bytes).bind
    (cachedCopy b m (m != j.stall.val) (slice x.rest.bytes (blobPad h) 8))
/-- A blob that has been read needs an unwrap unit: its header is in order, no cached copy serves, and there are slots for it
(R177, R178, R197, R360). -/
def blobDue (b : Block) (j : Job) (x : BlobRead) : Bool :=
  let h := x.head.bytes
  x.phase == 3 && x.rest.full && !x.rest.err && blobNamesKey b j.stall.val (j.desc.op == 0x18 && !x.second) h
    && (blobHit b j x).isNone && (takeSlots (some (field h 6 2)) (ceilDiv (blobMatLen h) 64) false none b).isSome
/-- The first blob of a job that is not yet unwrapped. -/
def firstBlob (j : Job) : Option Nat := (List.range j.blobs.length).find? fun k => (j.blobs.getD k {}).phase != 4
/-- A job's key request waits for an unwrap unit. -/
def blobWaits (b : Block) (j : Job) : Bool :=
  j.stage == .waiting && mayProceed b j && !sealDecides b j
    && (match firstBlob j with | some k => blobDue b j (j.blobs.getD k {}) | none => false)

/-- A key opcode asks for its unit once its own blob is unwrapped, and a KEY_WRAP once its attribute block tells its subject, from whose
length it is charged (R362; DEDUCED, assumption 73). -/
def asksUnit (b : Block) (j : Job) : Bool := blobsReady b j && (j.desc.op != 0x31 || attrReady j)
/-- The unwrap unit that is free: each runs one job or one blob unwrap at a time (R360, R567). -/
def freeUnit (b : Block) : Option Nat := if b.unwrapFenced then none else (List.range 2).find? fun u => (b.unwrapJobs.get u).isNone
/-- The one queue of the unwrap units, while one is free: requests with a blob, and key opcodes (R360, R567). -/
def unwrapQueue (b : Block) : List (Nat × Job) :=
  if (freeUnit b).isNone then []
  else b.live.filter (fun x => blobWaits b x.2) ++ (heads (waiters b .unwrap)).filter fun x => asksUnit b x.2
/-- The job served next: highest effective class, then round robin, then ring and ring order (R360). -/
def unwrapChoice (b : Block) : Option (Nat × Job) :=
  let q := unwrapQueue b
  (topClass q).bind fun c =>
    let m := q.filter fun x => x.2.eff == c
    (drrChoose b 3 c (m.map fun x => x.2.stall.val).dedup).bind fun n =>
      let l := m.filter fun x => x.2.stall.val == n
      l.find? fun x => l.all fun y => x.2.ring < y.2.ring || (x.2.ring == y.2.ring && x.2.ord ≤ y.2.ord)
/-- Charge the job served its estimate (R362, R363). -/
def unwrapCharge (i : Nat) (j : Job) (cost : Nat) (b : Block) : Block :=
  drrGrant 3 j.eff i j.stall.val cost (((unwrapQueue b).filter fun x => x.2.eff == j.eff).map fun x => x.2.stall.val).dedup b

/-- A stall key that a blob names is used for stall `n`, `source` for a splice's first key: its tag is checked first (R189). -/
def useNamedKey (n : Nat) (source : Bool) (x : BlobRead) (b : Block) : Block :=
  let h := x.head.bytes
  let m := field h 6 2
  let b := checkSys 0 b
  when (blobHeadOk b h && blobStallOk b n source m) (checkSk m) b
/-- The stall key that a job's blob names is used. -/
def useBlobKey (j : Job) (x : BlobRead) (b : Block) : Block := useNamedKey j.stall.val (j.desc.op == 0x18 && !x.second) x b

/-- A blob whose bytes have arrived: it fails by its header, a cached copy serves, or it takes its turn for an unwrap unit and the
slots of its copy (R177, R178, R197, R360); in a supply hold slots are not written (R485). One that is served without a unit no longer
waits for one (R363). -/
def grantBlob (i k : Nat) (j : Job) (x : BlobRead) (b : Block) : Block :=
  let h := x.head.bytes
  let m := field h 6 2
  let b := useBlobKey j x b
  if grantGone b j x m && blobHeadOk b h then lapseIn 3 j (blobFails i k true b)
  else if !blobNamesKey b j.stall.val (j.desc.op == 0x18 && !x.second) h then lapseIn 3 j (blobFails i k false b)
  else match blobHit b j x with
    | some s => lapseIn 3 j (touch s (modBlob i k (fun x => { x with slot := some s, gen := (b.slot s).gen, phase := 4 }) b))
    | none => if anyHold b || noEntropy b || (unwrapChoice b).map Prod.fst != some i then b else
      match freeUnit b, takeSlots (some m) (ceilDiv (blobMatLen h) 64) false none (unwrapCharge i j 600 b) with
      | some u, some (l, b1) =>
        modBlob i k (fun x => { x with phase := 5, unit := some u, room := l }) { b1 with unwrapJobs := b1.unwrapJobs.set u (some i) }
      | _, _ => b

/-- A unit is free again, and the charge for a blob of stall `n` in effective class `c` is corrected by its occupancy, which no command
tells, a free value (R362). -/
def unitFree (u : Option Nat) (c n : Nat) (b : Block) : Block :=
  let occ := Config.freeNat b.free
  freed { b with unwrapJobs := match u with | some u => b.unwrapJobs.set u none | none => b.unwrapJobs
                 deficit := b.deficit.mod (deficitKey 3 c n) (· + ((600 : Int) - occ)) }
/-- The unit is done with a job's blob. -/
def unitDone (i k : Nat) (j : Job) (x : BlobRead) (b : Block) : Block :=
  modBlob i k (fun x => { x with unit := none, room := [] }) (unitFree x.unit j.eff j.stall.val b)

/-- The cached copy that an unwrap makes for stall `n` (R177, R178). -/
def writeCopy (n : Nat) (x : BlobRead) (mat : Bytes) (b0 b : Block) : Block :=
  let h := x.head.bytes
  let m := field h 6 2
  writeKey { blobKey b0 h m with cacheId := slice x.rest.bytes (blobPad h) 8, sourceOnly := m != n } mat x.room b

/-- The unwrap on a unit ends: the tag verifies and the copy is written, or the blob fails (R177, R178). The copy is written once no
island holds and there is randomness for its mask (R161, R485, R488). The tack room holds no XTS key with equal halves (R205). -/
def unwrapBlob (i k : Nat) (j : Job) (x : BlobRead) (b : Block) : Block :=
  let h := x.head.bytes
  let m := field h 6 2
  if anyHold b || noEntropy b then b else
  let b := useBlobKey j x b
  match blobOpen b j.stall.val (j.desc.op == 0x18 && !x.second) h x.rest.bytes with
  | none => blobFails i k (grantGone b j x m) (unitDone i k j x b)
  | some mat =>
    if xtsHalvesEqual (field h 16 2) mat then blobFails i k false (unitDone i k j x b)
    else
      modBlob i k (fun y => { y with slot := x.room.head?, gen := (b.slot (x.room.headD 0)).gen, phase := 4 })
        (writeCopy j.stall.val x mat b (unitDone i k j x b))

/-- The unwrap of a blob whose job has gone ends as any other: its unit goes free, its charge is corrected, and what it opened is written
to its slots as a cached copy (R199, R360, R362). -/
def unwrapLeftBlob (u : Nat) (l : LeftBlob) (b : Block) : Block :=
  let x := l.blob
  let h := x.head.bytes
  let b := useNamedKey l.stall l.source x b
  let b1 := unitFree (some u) l.eff l.stall { b with unwrapLeft := b.unwrapLeft.set u none }
  match blobOpen b l.stall l.source h x.rest.bytes with
  | some mat => if xtsHalvesEqual (field h 16 2) mat then b1 else writeCopy l.stall x mat b b1
  | none => b1
/-- The blobs on the units that a job of index `i` left behind; the copy waits while an island holds or no randomness comes (R485, R488). -/
def finishLeft (i : Nat) (b : Block) : Block :=
  each [0, 1] (fun u b => match b.unwrapLeft.get u with
    | some l => when (l.job == i && !anyHold b && !noEntropy b) (unwrapLeftBlob u l) b
    | none => b) b

/-- The next step of a blob: its table entry, header, the rest, and the unwrap. The STALL of a table entry may be the job's, or for a source
blob the one SPLICE_SOURCE names (R159, R257; DEDUCED, assumption 117). -/
def blobStep (i k : Nat) (j : Job) (x : BlobRead) (b : Block) : Block :=
  match x.phase with
  | 0 => match x.bat with
    | some e =>
      if 2 ^ b.tack.batK ≤ e then blobFails i k false b
      else blobAsk j (.bat i x.second) (b.tack.batBase + BitVec.ofNat 64 (16 * e)) 16
        (modBlob i k (fun x => { x with head := { want := 16 }, phase := 1 }) b)
    | none => blobAsk j (.blobHead i x.second) x.addr 64 (modBlob i k (fun x => { x with head := { want := 64 }, phase := 2 }) b)
  | 1 =>
    let t := x.head.bytes
    if x.head.err then modBlob i k (fun x => { x with err := true, phase := 4 }) b
    else if !x.head.full then b
    else if !(field t 12 2 / 2 ^ 15 == 1 && blobStallOk b j.stall.val (j.desc.op == 0x18 && !x.second) (field t 12 2 % 512)
        && field t 0 8 % 16 == 0) then
      blobFails i k (field t 12 2 / 2 ^ 15 == 1 && field t 0 8 % 16 == 0 && grantGone b j x (field t 12 2 % 512)) b
    else blobAsk j (.blobHead i x.second) (BitVec.ofNat 64 (field t 0 8)) 64
      (modBlob i k (fun x => { x with addr := BitVec.ofNat 64 (field t 0 8), batLen := some (field t 8 4)
                                      head := { want := 64 }, phase := 2 }) b)
  | 2 =>
    let h := x.head.bytes
    if x.head.err then modBlob i k (fun x => { x with err := true, phase := 4 }) b
    else if !x.head.full then b
    else if !matLenOk b h x.batLen then blobFails i k false b
    else blobAsk j (.blobRest i x.second) (x.addr + 64) (16 + blobPad h)
      (modBlob i k (fun x => { x with rest := { want := 16 + blobPad h }, phase := 3 }) b)
  | 3 =>
    if x.rest.err then modBlob i k (fun x => { x with err := true, phase := 4 }) b
    else if !x.rest.full then b else grantBlob i k j x b
  | 5 => unwrapBlob i k j x b
  | _ => b

/-- The next step of the job's first unfinished blob; a seal stops it (R165), but not one that is on its unit: its cached copy stays
(R199). -/
def blobUnwrap (i : Nat) (b : Block) : Block :=
  match b.job i with
  | none => b
  | some j =>
    if j.stage != .waiting || !mayProceed b j then b
    else match firstBlob j with
      | none => b
      | some k =>
        let x := j.blobs.getD k {}
        if sealDecides b j && x.phase != 5 then b else blobStep i k j x b

/-- BLOB_UNWRAP: the unit finishes what an earlier job of this job-table index left on it, and the job's blob takes its next step. -/
def execBlobUnwrap (job : JobId) (s : State) := updOn s 19 fun b => blobUnwrap job.val (finishLeft job.val b)

/-! ## Fragment tables (R83 to R87) -/

/-- One entry's fields. -/
def fragAddr (e : Bytes) : Addr := BitVec.ofNat 64 (field e 0 8)
def fragLen (e : Bytes) : Nat := field e 8 4
def fragLast (e : Bytes) : Bool := field e 12 1 % 2 == 1
def fragLink (e : Bytes) : Bool := field e 12 1 / 2 % 2 == 1
def fragResv (e : Bytes) : Bool := field e 12 2 / 4 != 0 || field e 14 2 != 0

/-- Whether an entry breaks R84 by itself. -/
def fragBad (w : Walk) (e : Bytes) : Bool :=
  fragResv e || (fragLast e && fragLink e) || (fragLink e && (fragLen e != 0 || w.index == 0)) || (!fragLink e && fragLen e == 0)

/-- The breaches of R84 that leave nothing to go on with: `LAST` and `LINK` together do not say which it is, and past an empty
entry or a table that begins with a `LINK` nothing bounds the walk (DESIGN CHOICE, assumption 51; the spec names no stop there). -/
def fragStops (w : Walk) (e : Bytes) : Bool :=
  (fragLast e && fragLink e) || (fragLink e && w.index == 0) || (!fragLink e && fragLen e == 0)

/-- Whether an entry breaks R85. -/
def fragMis (e : Bytes) : Bool := !alignedTo (fragAddr e) 16 || (!fragLast e && !fragLink e && fragLen e % 16 != 0)

/-- Read one entry (R84 to R86): the walk after it, and every condition it adds (R101); an empty last entry ends its chain, whose sum is
then tested too. -/
def walkEntry (w : Walk) (e : Bytes) : Walk × List Status :=
  let found := cond (fragMis e) .misaligned ++ cond (fragBad w e) .fragmentTableInvalid
  if fragStops w e then
    ({ w with done := true }, found ++ cond (fragLast e && !fragLink e && !w.noSum && w.sum != w.want) .lengthMismatch)
  else if fragLink e then
    if fragMis e then ({ w with done := true }, found) else ({ w with next := fragAddr e, index := 0 }, found)
  else
    let sum := w.sum + fragLen e
    let w1 : Walk := { w with sum, index := w.index + 1, next := w.next + 16, frags := w.frags ++ [{ addr := fragAddr e, len := fragLen e }] }
    let full := !fragLast e && w.index == 4095
    let bad := w.want < sum || (!w.noSum && fragLast e && sum != w.want)
    ({ w1 with done := bad || fragLast e || full }, found ++ cond bad .lengthMismatch ++ cond full .fragmentTableInvalid)

/-- Read the entries of a piece of a table; a LINK or the end of the walk stops it. -/
def walkPiece : Nat → Walk → Bytes → Walk × List Status
  | 0, w, _ => (w, [])
  | n + 1, w, l =>
    if w.done || l.length < 16 then (w, [])
    else
      let r := walkEntry w (l.take 16)
      if !r.1.done && r.1.index == 0 then r
      else let q := walkPiece n r.1 (l.drop 16); (q.1, r.2 ++ q.2)

/-- Change the walk of a chain. -/
def modWalk (i : Nat) (dst : Bool) (f : Walk → Walk) (b : Block) : Block :=
  modJob i (fun j => if dst then { j with dstWalk := f j.dstWalk } else { j with srcWalk := f j.srcWalk }) b

/-- Read the next piece of a table: up to the end of its aligned 256 bytes and of its 4,096 entries. -/
def askTable (i : Nat) (dst : Bool) (j : Job) (w : Walk) (b : Block) : Block :=
  let len := min (256 - w.next.toNat % 256) (16 * (4096 - w.index))
  offer .rp [{ addr := w.next, len, ident := stallIdent b j.stall.val, owner := .table i dst, prio := 2, turn := 4 * j.stall.val + j.ring.val }]
    (modWalk i dst (fun w => { w with reading := true, buf := { want := len } }) b)

/-- The entries of a piece that belong to its table: up to the one with `LAST` or `LINK`; what the read brought past it is discarded
(R84, R537). -/
def tablePart : Nat → Bytes → Bytes
  | 0, _ => []
  | n + 1, l => if l == [] || fragLast l || fragLink l then l.take 16 else l.take 16 ++ tablePart n (l.drop 16)

/-- A piece has arrived. -/
def takePiece (i : Nat) (dst : Bool) (w : Walk) (b : Block) : Block :=
  if w.buf.err then
    modJob i (fun j => { j with found := j.found ++ [.portError] }) (modWalk i dst (fun w => { w with reading := false, done := true }) b)
  else
    let r := walkPiece (w.buf.want / 16) { w with reading := false, pieces := w.pieces ++ [(w.next, tablePart (w.buf.want / 16) w.buf.bytes)] } w.buf.bytes
    modJob i (fun j => { j with found := j.found ++ r.2 }) (modWalk i dst (fun _ => r.1) b)

/-- A KEY_WRAP whose subject was not found, or whose attribute block was not read, has no length to take the output length from: the sum
has nothing to equal, and the walk is bounded by the longest output a subject could give (R84, R86; DEDUCED, assumption 51). -/
def outLenUnknown (j : Job) : Bool := j.desc.op == 0x31 && j.subject.isNone
def wrapMost (d : Desc) : Nat := outLen {} d [] 3072
/-- The output length a destination table must sum to, or the bound of its walk. -/
def wantedLen (b : Block) (j : Job) : Nat :=
  if outLenUnknown j then wrapMost j.desc else if j.desc.op == 0x31 then outLen b j.desc [] (j.subject.getD 0) else jobOutLen b j

/-- The next step of one chain. -/
def walkStep (i : Nat) (dst : Bool) (b : Block) : Block :=
  match b.job i with
  | none => b
  | some j =>
    let w := if dst then j.dstWalk else j.srcWalk
    if w.done then b
    else if !w.reading then
      let w1 := if dst then { w with want := wantedLen b j, noSum := outLenUnknown j } else w
      askTable i dst j w1 (modWalk i dst (fun _ => w1) b)
    else if w.buf.full || w.buf.err then takePiece i dst w b else b

/-- The destination length of KEY_WRAP is known once its subject is. -/
def outLenKnown (j : Job) : Bool := j.desc.op != 0x31 || j.keyDone

/-- FRAGMENT_TABLE_WALK: the next step of each chain of a job (R87). -/
def fragmentWalk (i : Nat) (b : Block) : Block :=
  match b.job i with
  | none => b
  | some j =>
    if j.stage != .waiting || !mayProceed b j then b
    else settle i (when (outLenKnown j) (walkStep i true) (walkStep i false b))

def execFragmentTableWalk (job : JobId) (s : State) := updOn s 0 (fragmentWalk job.val)

/-! ## Sealed state blobs (R281 to R283) -/

/-- The fingerprint of a keyed job's key in a state blob (R282). -/
def stateKeyFp (b : Block) (key : Bytes) : Bytes := kmac256 (stateKey b) key 8 (ascii "dsk")

/-- Conditions of a restore, and the opened state (R283). -/
def restoreConds (b : Block) (j : Job) (x : Bytes) : List Status × Bytes :=
  let opened := Config.gcmOpen (stateKey b) (slice x 32 12) (x.take 64) (slice x 64 216)
  let head := slice x 0 4 == [0x4D, 0x44, 0x53, 0x42] && field x 4 1 == 1 && field x 7 1 == 0 && allZero (slice x 10 6)
    && allZero (slice x 44 20) && field x 8 2 == j.stall.val
  let fp := match j.keys with | k :: _ => slice x 24 8 != stateKeyFp b k.material | [] => false
  match head, opened with
  | true, some st =>
    (cond (field x 5 1 != j.desc.alg || field x 6 1 != stateUse j.desc.op || field x 6 1 == 3 || fp) .keyUseDenied, fit 200 st)
  | _, _ => ([.keyNotFound], [])

/-- The seal unit opens a restored blob; a keyed job's state reaches its lane in two shares (R270), for whose mask it waits while the
entropy island restarts, and ends once it has stopped (R488). -/
def openState (i : Nat) (j : Job) (b : Block) : Block :=
  if j.restore.err then modJob i (fun j => { j with found := j.found ++ [.portError], restoreDone := true }) b
  else if takesKey j.desc && b.boot.entropyStopped then modJob i (fun j => { j with found := j.found ++ [.islandReset], restoreDone := true }) b
  else if takesKey j.desc && b.boot.entropyPaused then b
  else
    let b := useSys 2 b
    let r := restoreConds b j j.restore.bytes
    let keyed := takesKey j.desc
    modJob i (fun j => { j with found := j.found ++ r.1, restored := if keyed then share2 b r.2 else [r.2]
                                absorbed := field j.restore.bytes 16 8, restoreDone := true }) (if keyed then drew b else b)

/-- STATE_BLOB_RESTORE. -/
def stateRestore (i : Nat) (b : Block) : Block :=
  match b.job i with
  | none => b
  | some j =>
    if j.stage != .waiting || j.restoreDone || !mayProceed b j then b
    else if j.restore.want == 0 then
      offer .rp (readReqs (.stateBlob i) (stallIdent b j.stall.val) 2 (4 * j.stall.val + j.ring.val)
          (pieces (BitVec.ofNat 64 (field j.desc.iv 0 8)) 0 280))
        (modJob i (fun j => { j with restore := { want := 280 } }) b)
    else when ((j.restore.full || j.restore.err) && j.keyDone) (fun b => settle i (openState i j b)) b

def execStateBlobRestore (job : JobId) (s : State) := updOn s 0 (stateRestore job.val)

/-! ## After a hold -/

/-- What a hold, or a pause of the entropy island, kept from being checked, from starting, from ending or from going on. -/
def goOn (b : Block) : Block :=
  each (b.live.map Prod.fst) (fun i b => match b.job i with
    | none => b
    | some j =>
      if j.stage == .waiting && j.errDue.isNone then settle i (if takesKey j.desc || holding b 19 then b else checkAttr i b)
      else resume i (errorDue i b)) b

end Sys2Proof.Machine
end

