-- ==== Sys2Proof/Machine/Grant.lean ====
section
/-!
DEFINITION. Who runs next on an engine (R128, R133, R236 to R240, R248, R285, R359 to R364), and how a job leaves
one before its end: HITCH, LANE_FAULT, LANE_RETRY.
-/

namespace Sys2Proof.Machine

/-! ## Engines that are free -/

def laneFree (b : Block) (l : Nat) : Bool :=
  (b.lane l).inService && (b.lane l).jobs.isEmpty && !(b.lane l).leaving && !holding b (1 + l)
/-- The splice that has reserved a lane's pair (R361). -/
def reserver (b : Block) (l : Nat) : Option Nat := (b.lane (l / 2 * 2)).reservedBy
/-- The splice retry a lane's pair gives way to (R133, R238). -/
def wayFor (b : Block) (l : Nat) : Option Nat := (b.lane (l / 2 * 2)).givesWay
/-- A pair admits a job: one that gives way to a splice retry that retry alone (R128, R133); a reserved one its own splice, a retry, and
a job of a higher class (R361). -/
def reserveAdmits (b : Block) (i : Nat) (j : Job) (l : Nat) : Bool :=
  (wayFor b l).all (fun r => r == i)
    && (reserver b l).all fun r => r == i || j.stage == .retry || (b.job r).all fun x => j.eff < x.eff
/-- A lane is free for a job. -/
def laneFor (b : Block) (i : Nat) (j : Job) (l : Nat) : Bool := laneFree b l && reserveAdmits b i j l
/-- Pair numbers. -/
def pairs4 : List Nat := List.range 4
/-- The tap state a splice has left behind is on its way to memory: it reads it back once that write is acknowledged (R249, R268). -/
def tapOnWay (b : Block) (i : Nat) : Bool := pairs4.any fun p => (b.lane (2 * p)).tapSaving == some i
/-- A pair is free for a splice (R247 to R249). -/
def pairFor (b : Block) (i : Nat) (j : Job) (p : Nat) : Bool :=
  !b.bridgesFenced && laneFor b i j (2 * p) && laneFor b i j (2 * p + 1) && (b.lane (2 * p)).tapSaving.isNone && !tapOnWay b i

/-- Serial modes that form groups: CBC encryption and CMAC (R239). -/
def grouped (d : Desc) : Bool := (d.op == 0x10 && d.mode == 2) || ((d.op == 0x14 || d.op == 0x15) && d.mode == 7)
/-- A lane runs a group of the job's ring class with room for it (R239), and its pair gives way to none (R238). -/
def groupRoom (b : Block) (i : Nat) (j : Job) (l : Nat) : Bool :=
  let x := b.lane l
  grouped j.desc && x.inService && !x.leaving && !x.jobs.isEmpty && x.jobs.length < x.groupMax && !holding b (1 + l) && reserveAdmits b i j l
    && x.jobs.all fun k => match b.job k with | some y => grouped y.desc && y.ring == j.ring | none => false

/-- The checks of a CURVE_LOAD wait for a core, as an urgent job would: it has read its record (R326, R404). -/
def curveWaits (b : Block) : Bool :=
  b.ym.cmds.any fun e => field e.2.sheet.bytes 0 2 == 0x0301 && e.2.phase == 3 && e.2.step == 1 && e.2.input.full

/-- The engine a job of class `e` would take now: of several free lanes or pairs the lowest-numbered, as R359 has it for cores (DESIGN CHOICE,
assumption 110). -/
def engineFor (b : Block) (i : Nat) (j : Job) (e : EngClass) : Option Engine :=
  match e with
  | .cipher =>
    if j.desc.op == 0x18 then (pairs4.find? (pairFor b i j)).map fun p => .lane (Fin.ofNat 8 (2 * p))
    else match lanes8.find? (laneFor b i j) with
      | some l => some (.lane (Fin.ofNat 8 l))
      | none => (lanes8.find? (groupRoom b i j)).map fun l => .lane (Fin.ofNat 8 l)
  | .digest => ((List.range 16).find? fun l => (b.islands.get (l / 8)).inService && (b.digestJobs.get l).isNone
      && !holding b (9 + l / 8)).map fun l => .digest (Fin.ofNat 16 l)
  | .pk => if b.pack.withheld || (0 < j.eff && curveWaits b) then none else (freeCore b).map fun c => .core (Fin.ofNat 8 c)
  | .unwrap => (freeUnit b).map fun u => .unwrap (Fin.ofNat 2 u)
  | .entropy => if b.randomJob.isNone && !b.entropyFenced && !noEntropy b && !holding b 21 then some .entropy else none

/-! ## The grant -/

/-- Put a job on an engine; a splice takes both lanes of its pair, and its own reservation ends; that of another splice, whose pair a
retry or a higher class takes, stands (R361). -/
def occupy (i : Nat) (j : Job) (e : Engine) (b : Block) : Block :=
  match e with
  | .lane l =>
    let on := fun (k : Nat) (b : Block) => modLane k (fun x => { x with jobs := x.jobs ++ [i], groupMax := if x.jobs == [] then b.ym.cbcGroupMax else x.groupMax }) b
    if j.desc.op == 0x18 then unreserve i (on (l.val + 1) (on l.val b)) else on l.val b
  | .digest l => { b with digestJobs := b.digestJobs.set l.val (some i) }
  | .core c => modCore c.val (fun x => { x with state := 1 }) { b with coreJobs := b.coreJobs.set c.val (some i) }
  | .unwrap u => { b with unwrapJobs := b.unwrapJobs.set u.val (some i) }
  | .entropy => { b with randomJob := some i }

/-- Reserve the chutes a job names (R452). -/
def holdChutes (i : Nat) (j : Job) (b : Block) : Block :=
  each ((inChute j.desc).toList ++ (outChute j.desc).toList) (fun c b => dropIdles c (modChute c (fun x => { x with holder := some i }) b)) b

/-- Give an engine to a job: an unstarted one starts once prepared, another repeats its key decision (R24). -/
def giveEngine (i : Nat) (j : Job) (e : Engine) (b : Block) : Block :=
  let b1 := occupy i j e (modJob i (fun x => { x with engine := some e, port := enginePort e
                                                      keyDone := if x.started then !takesKey x.desc else x.keyDone }) b)
  if j.started then resume i b1 else settle i (holdChutes i j b1)

/-- The pair a splice may reserve: both lanes in service and one of them free, the lowest-numbered (R361). -/
def reservable (b : Block) : Option Nat :=
  pairs4.find? fun p => (b.lane (2 * p)).inService && (b.lane (2 * p + 1)).inService
    && (laneFree b (2 * p) || laneFree b (2 * p + 1)) && (b.lane (2 * p)).reservedBy.isNone
def hasReserved (b : Block) (i : Nat) : Bool := pairs4.any fun p => (b.lane (2 * p)).reservedBy == some i
/-- A splice with no free pair reserves one (R361). -/
def reservePair (i : Nat) (b : Block) : Block :=
  if hasReserved b i then b
  else match reservable b with
    | some p => modLane (2 * p) (fun x => { x with reservedBy := some i }) b
    | none => b

/-- Of the jobs that could take an engine (R359) those one can serve now; a splice may at
least reserve a pair. With none to reserve it waits, and jobs of other rings go past it (R268). -/
def servable (b : Block) (e : EngClass) : List (Nat × Job) :=
  (ready b (waiters b e)).filter fun x => (engineFor b x.1 x.2 e).isSome
    || (x.2.desc.op == 0x18 && !hasReserved b x.1 && (reservable b).isSome)

/-- The round robin serves the unstarted heads `l` of one class: the chosen job takes its engine, or a splice reserves a pair. -/
def grantFresh (e : EngClass) (c : Nat) (l : List (Nat × Job)) (b : Block) : Block :=
  let ns := (l.map fun x => x.2.stall.val).dedup
  match drrChoose b (classNum e) c ns with
  | none => b
  | some n => match stallHead l n with
    | none => b
    | some (i, j) => match engineFor b i j e with
      | none => reservePair i b
      | some g =>
        let cost := estCost b j.desc j.pblk j.keys
        giveEngine i j g (modJob i (fun x => { x with estCost := cost }) (drrGrant (classNum e) c i n cost ns b))

/-- Serve one class of waiting jobs in the order of R359: the highest effective class, in it the job hitched
first, whose stall's credit may lapse with it (R363), then the round robin. -/
def grantClass (e : EngClass) (b : Block) : Block :=
  let l := servable b e
  match topClass l with
  | none => b
  | some c =>
    let m := l.filter fun x => x.2.eff == c
    match firstHitched m with
    | some (i, j) => match engineFor b i j e with
      | some g => lapseIn (classNum e) j (giveEngine i j g b)
      | none => reservePair i b
    | none => grantFresh e c m b

/-- The keys whose lengths a job's estimate needs: the subject of a KEY_WRAP is known before its unit is granted (R362). -/
def costKeys (b : Block) (j : Job) : List KeyCopy := if j.desc.op == 0x31 then subjectCopy b j else j.keys
/-- An unwrap unit goes to a key opcode only when no blob unwrap comes before it (R360). -/
def grantUnwrap (b : Block) : Block :=
  match unwrapChoice b with
  | none => b
  | some (i, j) => if blobWaits b j then b else match engineFor b i j .unwrap with
    | none => b
    | some g =>
      let cost := estCost b j.desc j.pblk (costKeys b j)
      giveEngine i j g (modJob i (fun x => { x with estCost := cost }) (unwrapCharge i j cost b))

/-! ## Leaving an engine (R228 to R240, R265, R285 to R287) -/

/-- A job in a group or a pair that only waits for its last blocks to be handed over: its message has ended (R246). -/
def lastBlocks (j : Job) : Bool := j.stage == .draining && !j.zeroFill

/-- The page of a job's stall and ring. -/
def jobPage (b : Block) (j : Job) : Page := (b.ring j.stall.val j.ring.val).page
/-- A job that leaves takes its page's hitch frame, not the recovery frame it holds (R234, R235). -/
def takesHitchFrame (b : Block) (i : Nat) (j : Job) : Bool := (jobPage b j).holder != some i || (stagedOut j && !j.zeroFill)

/-- A job on an engine can take a frame now (R235, R265, R286); a zero-fill may leave as running work may (R244). -/
def canLeave (b : Block) (i : Nat) (j : Job) : Bool :=
  let p := jobPage b j
  (j.stage == .running || (j.stage == .draining && j.zeroFill))
    && (if j.desc.op == 0x18 || 0x20 ≤ j.desc.op then p.hitch.kind == 0 && ((p.holder.isNone && p.recovery.kind == 0) || p.holder == some i)
        else !takesHitchFrame b i j || p.hitch.kind == 0)

/-! ## Mode state (R230) -/

/-- The suffix of a job's sponge: cSHAKE with both strings empty is SHAKE (R274), KMAC is cSHAKE with a name. A job that finishes a
message another has started reads no N and no S and its blob does not record them: it takes the suffix of cSHAKE (DESIGN CHOICE,
assumption 86). -/
def jobSuffix (j : Job) : Byte :=
  if j.desc.op == 0x25 && (j.desc.alg == 0x23 || j.desc.alg == 0x24) && j.desc.stateMode ≤ 1 then shakeSuffix (jobName j) (jobCust j)
  else spongeSuffix j.desc.alg

/-- The state of a job whose message has been taken in whole, before its first output block, from the running state its lane holds (R270);
`n` is the output length. R284 counts ABSORBED and SRC_LEN alone; the length of an HMAC's inner hash counts the key block too, as
FIPS 198-1 has it (PRESUMED, assumption 87). -/
def finalState (j : Job) (n : Nat) : Bytes :=
  let a := j.desc.alg
  let src := haveSrc j
  let st := if j.running == [] then absorb a (digestStart j) (wholePart a src) else fit (stateLen a) (unshare j.running)
  let more := if stateUse j.desc.op == 2 then rightEncode (8 * n) else []
  let before := j.absorbed + (if stateUse j.desc.op == 1 then digestBlock a else 0)
  closed a (jobSuffix j) st (tailPart a src ++ more) (before + (src ++ more).length)

/-- The pad over a keyed job's state in a frame (R287, assumption 16 for the encoding). -/
def framePad (b : Block) (i padId : Nat) (j : Job) : Bytes :=
  kmac256 (stateKey b) (toLe 2 j.stall.val ++ toLe 2 i ++ toLe 8 padId) 200 (ascii "pad")

/-- Output blocks of a digest job released when it leaves at `k`: past SRC_LEN `k` counts output bytes (assumption 52). -/
def squeezed (j : Job) (k : Nat) : Nat := k - j.desc.sLen

/-- The first `n` output bytes of a digest job. -/
def digestOut (j : Job) (n : Nat) : Bytes :=
  if stateUse j.desc.op == 1 then
    let opad := if j.padded == [] then opadState j.desc.alg (keyAt j 0) else (unshare j.padded).drop (stateLen j.desc.alg)
    fit n (hmacOuter j.desc.alg opad (outputOf j.desc.alg (digestLen j.desc.alg) (finalState j n)))
  else outputOf j.desc.alg n (finalState j n)

/-- The mismatch flags of the two comparison accumulators over the output compared so far (R275, R286). -/
def cmpFlags (j : Job) (done : Nat) : Nat :=
  if (j.desc.op == 0x22 || j.desc.op == 0x24) && (digestOut j j.aux.bytes.length).take done != j.aux.bytes.take done then 3 else 0

/-- The output length of a digest job: of a check that of the value it compares (R88, R275). -/
def digestOutLen (b : Block) (j : Job) : Nat :=
  if j.desc.op == 0x22 then digestLen j.desc.alg else if j.desc.op == 0x24 then j.desc.aLen else outLen b j.desc [] 0
/-- ABSORBED, PAD_ID and STATE of a digest frame that leaves at `k` (R286, R287), `n` the output length. PAD_ID is the island's hitch
counter before this hitch raises it, and begins at 0 (DESIGN CHOICE, assumption 88). -/
def digestState (b : Block) (i : Nat) (j : Job) (k n : Nat) : Bytes :=
  let keyed := takesKey j.desc
  let padId := match j.engine with | some (.digest l) => if keyed then (b.islands.get (l.val / 8)).hitchCounter else 0 | _ => 0
  let st := if k ≤ j.desc.sLen then runningState j ((haveSrc j).take k)
    else fit 200 (squeezeState (squeezed j k / digestBlock j.desc.alg) (finalState j n))
  toLe 8 j.absorbed ++ toLe 8 padId ++ (if keyed then xorBytes st (framePad b i padId j) else st)

/-- The next counter block of GCM-SIV; in the pass that computes the tag there is none yet, and the field is zero
(DESIGN CHOICE, assumption 53). -/
def sivNext (tag : Bytes) (blk : Nat) : Bytes :=
  let t := tag.take 15 ++ [(tag.getD 15 0) ||| 0x80]
  if tag == [] then zeros 16 else toLe 4 ((leNat (t.take 4) + blk) % 2 ^ 32) ++ t.drop 4

/-- A secret value in a frame: three shares, two of them fresh bits of the lane's generator (R220, R230), whose values are free. -/
def frameShares (free : Nat) (x : Bytes) : Bytes :=
  let g := fit x.length (Config.freeBytes free x.length)
  let h := fit x.length (Config.freeBytes (free + 1) x.length)
  xorBytes (xorBytes x g) h ++ g ++ h

/-- The tweak of the block at byte `off` of the payload: that of its data unit, doubled once for each block before it (R204). -/
def xtsTweak (key iv : Bytes) (param off : Nat) : Bytes :=
  (List.range (off % xtsUnit param / 16)).foldl (fun t _ => xtsNext t)
    (encBlock (key.drop (key.length / 2)) (toLe 16 (xtsStart iv + off / xtsUnit param)))

/-- The chaining value of CMAC after whole blocks. -/
def cmacChain (key : Bytes) (text : Bytes) : Bytes := lastBlockOf (zeros 16) (cbcEnc key (zeros 16) (chunks 16 text))

/-- MODE_STATE of one lane (R230): `text` is what it has consumed, its first `aLen` bytes AAD; `auth` the text it has authenticated after
the AAD, ciphertext in GCM and ChaCha20-Poly1305 and plaintext in GCM-SIV; `last` the last ciphertext block, `tag` the tag of a
GCM-SIV pass. Secret values stand in three shares. -/
def modeBytes (mode param : Nat) (key iv : Bytes) (aLen : Nat) (text auth last tag : Bytes) (free : Nat) : Bytes :=
  let k := text.length
  let blk := ceilDiv (k - aLen) 16
  let acc := fun (n : Nat) => frameShares free (fit n (Config.accumulator mode key iv (text.take aLen) auth))
  let gcm := ctrBlock 32 (iv.take 12 ++ [0, 0, 0, 2]) blk ++ acc 16 ++ toLe 8 (8 * min k aLen) ++ toLe 8 (8 * (k - aLen))
  match mode with
  | 1 => []
  | 2 => last
  | 3 => ctrBlock (ctrBits param) iv blk
  | 4 => toLe 8 (xtsStart iv + (k - aLen) / xtsUnit param) ++ toLe 4 ((k - aLen) % xtsUnit param / 16)
      ++ frameShares free (xtsTweak key iv param (k - aLen))
  | 6 => sivNext tag blk ++ acc 16 ++ fit 16 tag
  | 7 => frameShares free (cmacChain key text)
  | 9 => toLe 4 (1 + ceilDiv (k - aLen) 64) ++ acc 24
  | _ => gcm

/-- MODE_STATE of a job after `k` source bytes (R230); of a splice that of its source lane. The tag of the first pass is 16 zero bytes
while a SEAL is in that pass, and in an OPEN the expected tag, which its counter is made of (DESIGN CHOICE, assumption 53). -/
def modeState (j : Job) (k free : Nat) : Bytes :=
  let d := j.desc
  let first := (haveSrc j).take k
  let src := if j.pass2 then (haveSrc j).take d.aLen ++ (have2 j).take (k - d.aLen) else first
  if d.op == 0x18 then
    let pay := src.drop d.aLen
    modeBytes (spSrc d) (field j.pblk 0 1) (keyAt j 0) d.iv d.aLen src (if spSrc d == 6 then splicePt j pay else pay) (lastBlockOf d.iv (src.drop d.aLen)) (fit 16 j.aux.bytes) free
  else
    let aLen := if d.op == 0x12 || d.op == 0x13 then d.aLen else if d.mode == 8 then k else 0
    let pay := src.drop aLen
    let auth := if d.op == 0x12 then (if d.mode != 6 then passOut j k else if j.pass2 then (haveSrc j).drop aLen else pay)
      else if d.op == 0x13 && d.mode == 6 then aeadStream 6 (keyAt j 0) d.iv (fit 16 j.aux.bytes) pay else pay
    let tag := if d.op == 0x13 then fit 16 j.aux.bytes
      else if j.pass2 then fullTag 6 (keyAt j 0) (jobIv j) ((haveSrc j).take aLen) ((haveSrc j).drop aLen) else []
    modeBytes d.mode d.param (keyAt j 0) (jobIv j) aLen src auth (lastBlockOf d.iv (if d.op == 0x11 then src else passOut j k)) tag free

/-- MODE_STATE of a splice's destination lane (R265). -/
def destState (j : Job) (k free : Nat) : Bytes :=
  let d := j.desc
  let aad := ((haveSrc j).take k).take d.aLen
  let whole := splicePt j ((haveSrc j).drop d.aLen)
  let tag := if j.pass2 then fullTag 6 (keyAt j 1) (spDstIv j.pblk) ((haveSrc j).take d.aLen) whole else []
  let pt := whole.take (k - d.aLen)
  let auth := if spDst d == 6 then (if j.pass2 then whole else pt) else aeadStream (spDst d) (keyAt j 1) (spDstIv j.pblk) [] pt
  modeBytes (spDst d) (field j.pblk 1 1) (keyAt j 1) (spDstIv j.pblk) d.aLen (aad ++ pt) auth [] tag (free + 2)

/-! ## Frames and pages -/

/-- The index of the fragment byte `k` of a chain lies in: it counts data fragments, not `LINK` entries, and is their number once all is
consumed (DESIGN CHOICE, assumption 89). -/
def fragPos : Nat → List Frag → Nat
  | _, [] => 0
  | k, f :: l => if k < f.len then 0 else fragPos (k - f.len) l + 1

/-- Bytes of a zero-fill that its port has taken (R229). -/
def zeroDone (b : Block) (i : Nat) (j : Job) : Nat :=
  jobOutLen b j - (((waitingWrites b i).filter fun r => r.owner == .zero i).map Req.len).sum

/-- Where a job stands when it leaves its engine. -/
structure Leaving where
  phase : Nat
  srcDone : Nat
  dstDone : Nat
  /-- Output released with it. -/
  out : Bytes := []

/-- A job that leaves with `k` source bytes consumed: a zero-fill (phase 2), a withdrawal (3, zero counts), a second pass (1), a
digest that squeezes (2), or data (0) (R229, R233, R234, R286). -/
def leavingAt (b : Block) (i k : Nat) (j : Job) : Leaving :=
  if j.zeroFill then { phase := 2, srcDone := j.fillAt, dstDone := zeroDone b i j }
  else if withdraws j then { phase := 3, srcDone := 0, dstDone := 0 }
  else if 0x20 ≤ j.desc.op then
    let n := squeezed j k
    let out := if n = 0 || j.desc.op == 0x22 || j.desc.op == 0x24 then [] else (digestOut j (outLen b j.desc [] 0)).take n
    { phase := if n = 0 then 0 else 2, srcDone := min k j.desc.sLen, dstDone := n, out }
  else
    let out := passOut j k
    { phase := if j.pass2 then 1 else 0, srcDone := k, dstDone := max j.dstDone out.length, out }

/-- The frames a job leaves in: of a splice one for each lane, the first with SRC_DONE, the second with DST_DONE and the mark of
the second pass (R229, R265, R286). MODE_STATE is zero in PHASE 2 and 3, which keep no state of a mode (DESIGN CHOICE, assumption 115); KIND
is 1 for a hitch of a job in recovery too (DESIGN CHOICE, assumption 116). -/
def framesFor (b : Block) (i k : Nat) (j : Job) (recovery : Bool) : List Frame :=
  let w := leavingAt b i k j
  let base : Frame := { job := i, kind := if recovery then 2 else if 0x20 ≤ j.desc.op then 3 else 1, variant := j.desc.variant, phase := w.phase
                        srcFragPos := fragPos w.srcDone j.srcWalk.frags, dstFragPos := fragPos w.dstDone j.dstWalk.frags }
  let bare := w.phase == 3 || j.zeroFill
  if j.desc.op == 0x18 then
    [sealFrame b { base with phase := if w.phase == 1 then 0 else w.phase, srcDone := w.srcDone
                             modeState := if bare then [] else modeState j k b.free },
     sealFrame b { base with dstDone := w.dstDone, modeState := if bare then [] else destState j k b.free }]
  else [sealFrame b { base with srcDone := w.srcDone, dstDone := w.dstDone
                                cmp := if 0x20 ≤ j.desc.op then cmpFlags j (squeezed j k) else 0
                                modeState := if bare then [] else if 0x20 ≤ j.desc.op then digestState b i j k (digestOutLen b j)
                                  else modeState j k b.free }]

/-- Put a job's frames into its page: a splice takes both, a job in recovery and one whose lane faulted the recovery frame, which it
then holds, any other the hitch frame (R235, R265). -/
def putFrames (i : Nat) (j : Job) (recovery hitchFrame : Bool) (l : List Frame) (b : Block) : Block :=
  modRing j.stall.val j.ring.val (fun g => { g with page :=
    match l with
    | [f, h] => { hitch := f, recovery := h, holder := if recovery then some i else g.page.holder }
    | [f] => if recovery || !hitchFrame then { g.page with recovery := f, holder := some i } else { g.page with hitch := f }
    | _ => g.page }) b

/-- The page is free for a job whose lane faulted (R235): nobody holds the recovery frame, a hitched splice and a digest fill both
frames, and a splice needs both. -/
def recoveryFree (b : Block) (i : Nat) (j : Job) : Bool :=
  let p := jobPage b j
  (p.holder.isNone || p.holder == some i) && p.recovery.kind == 0 && p.hitch.kind != 3 && (j.desc.op != 0x18 || p.hitch.kind == 0)

/-! ## What leaves with a job -/

/-- Chute input not consumed goes back (R454). -/
def putBack (i : Nat) (j : Job) (k : Nat) (b : Block) : Block :=
  match inChute j.desc with
  | none => b
  | some c =>
    if staged j.desc then b
    else modJob i (fun j => { j with chuteIn := j.chuteIn.take k }) (modChute c (fun x => { x with putBack := x.putBack ++ [(i, j.chuteIn.drop k)] }) b)

/-- Seal a tap state after `n` payload bytes and write it to the job's save area (R249, R282). -/
def sendTap (i n : Nat) (st : Bytes) (b : Block) : Block :=
  match b.job i with
  | none => b
  | some j =>
    let head : Bytes := [0x4D, 0x44, 0x53, 0x42, 1] ++ toLe 1 (spTapAlg j.pblk) ++ [3, 0] ++ toLe 2 j.stall.val ++ zeros 6
      ++ toLe 8 n ++ zeros 8 ++ drbgNow b 12 ++ zeros 20
    let blob := head ++ fit 216 (Config.gcmSeal (stateKey b) (slice head 32 12) head st)
    offer j.port (writeReqs (.tapSave i) (stallIdent b j.stall.val) (jobPrio j) (jobTurn j) 0 blob
        (pieces (BitVec.ofNat 64 (spSave j.pblk)) 0 280))
      (modJob i (fun x => { x with tapDue := none }) (drew b))

/-- Save the tap state of a splice that leaves its pair; a zero-fill that leaves saves the state it began with (R244, R249). The seal's nonce
waits for a restart of the entropy island (R488). A splice that leaves before its saved state has come back has taken nothing in since, and the save area still
holds that state (DEDUCED, assumption 90). -/
def saveTap (i : Nat) (j : Job) (k : Nat) (b : Block) : Block :=
  match j.engine with
  | some (.lane l) =>
    match if j.zeroFill then j.tapState else tapHeld b j (tapped j k) with
    | some (n, st) =>
      let b1 := modLane (l.val / 2 * 2) (fun x => { x with tapSaving := some i }) b
      if noEntropy b then modJob i (fun x => { x with tapDue := some (n, st) }) b1 else sendTap i n st b1
    | none => b
  | _ => b
/-- The island gives output again: the seals that waited for it are made. -/
def tapsDue (b : Block) : Block :=
  each b.live (fun e b => match e.2.tapDue with | some (n, st) => sendTap e.1 n st b | none => b) b
/-- A splice whose tap cannot be sealed any more ends at that request for randomness (R488). -/
def tapStarved (i : Nat) (b : Block) : Block :=
  when (b.boot.entropyStopped && ((b.job i).bind fun j => j.tapDue).isSome) (fun b => runError i .islandReset
    { modJob i (fun x => { x with tapDue := none }) b with lanes := pairs4.foldl (fun t p => t.mod (2 * p) fun x =>
        { x with tapSaving := if x.tapSaving == some i then none else x.tapSaving }) b.lanes }) b

/-- What of a job stays when it leaves at `k`: keys cleared (R15), staged plaintext dropped (R227, R234), the source it has consumed
remembered; a zero-fill remembers how far it came. -/
def leftJob (k : Nat) (w : Leaving) (x : Job) : Job :=
  { x with
    keys := [], padded := [], running := [], keyDone := !takesKey x.desc, src := {}, aux := {}, exp := {}, again := {}
    dstDone := if x.zeroFill then w.dstDone else x.dstDone
    seen := if x.zeroFill || withdraws x then [] else if x.pass2 then haveSrc x else (haveSrc x).take k
    seen2 := if x.pass2 && !x.zeroFill then (have2 x).take (k - x.desc.aLen) else [] }

/-- A job stops on its engine at `k`: output released, tap saved, chute input given back, reads and a zero-fill's waiting writes
withdrawn, its key's cache entry released (R290), keys cleared. -/
def stopJobAt (i k : Nat) (j : Job) (b : Block) : Block :=
  let b := useSys 2 b
  let w := leavingAt b i k j
  modJob i (leftJob k w) (dropEntry i (when j.zeroFill (dropWaitingWrites i) (dropReqs (jobRead i)
    (releaseOut i j w.out (saveTap i j k (when (!j.zeroFill) (putBack i j (if withdraws j then 0 else if j.pass2 then j.desc.sLen else k))
      (freed (freed (freed (freed b))))))))))

/-- Take a job off its engine into its page. -/
def leaveEngine (i k : Nat) (j : Job) (recovery : Bool) (stage : Stage) (b : Block) : Block :=
  let b := useSys 2 b
  tapStarved i (modJob i (fun x => { x with stage, engine := none })
    (freeEngine i (putFrames i j recovery (takesHitchFrame b i j) (framesFor b i k j recovery) (stopJobAt i k j b))))

/-- A job hitches (R233 to R235, R286). -/
def hitchJob (i k : Nat) (b : Block) : Block :=
  match b.job i with
  | none => b
  | some j => leaveEngine i k j false (.hitched b.hitchSerial) { b with hitchSerial := b.hitchSerial + 1 }

/-! ## Which lane gives way (R236 to R240, R248, R285) -/

def lanePaused (b : Block) (j : Job) : Bool := (jobLanes j).any fun l => (b.lane l).paused

/-- The class of the work on a lane, 4 when it runs none. -/
def laneClass (b : Block) (l : Nat) : Nat :=
  ((b.lane l).jobs.filterMap fun i => (b.job i).map fun j => j.eff).foldl min 4

/-- The jobs of a lane that have not ended their message. -/
def laneWork (b : Block) (l : Nat) : List (Nat × Job) :=
  ((b.lane l).jobs.filterMap fun i => (b.job i).map fun j => (i, j)).filter fun e => !lastBlocks e.2
/-- The page frames the jobs of a lane would take: no two the same (R235, R240). -/
def framesApart (b : Block) (l : List (Nat × Job)) : Bool :=
  decide ((l.filter fun e => takesHitchFrame b e.1 e.2).map fun e => (e.2.stall, e.2.ring)).Nodup
def laneHitchable (b : Block) (l : Nat) : Bool :=
  let w := laneWork b l
  !w.isEmpty && w.all (fun e => canLeave b e.1 e.2) && framesApart b w

/-- The lane that gives way to class `c`: lowest class of work, then lowest number (R236). -/
def victimLane (b : Block) (c : Nat) : Option Nat :=
  let ok := lanes8.filter fun l => laneHitchable b l && c < laneClass b l && (b.lane l).inService
  ok.find? fun l => ok.all fun m => laneClass b m ≤ laneClass b l
/-- The pair that gives way to a splice of class `c` (R248). -/
def victimPair (b : Block) (c : Nat) : Option Nat :=
  let ok := pairs4.filter fun p => [2 * p, 2 * p + 1].all fun l => (b.lane l).inService
    && ((b.lane l).jobs.isEmpty || (laneHitchable b l && c < laneClass b l))
  let cls := fun p => min (laneClass b (2 * p)) (laneClass b (2 * p + 1))
  ok.find? fun p => ok.all fun q => cls q ≤ cls p

/-- A lane that gives up its jobs whatever their class, each as its frame comes free: fenced, or of a pair that gives way to a splice
retry (R228, R238). -/
def laneForced (b : Block) (l : Nat) : Bool :=
  (b.lane l).leaving || (b.lane l).suspect || (b.lane l).fencedFault || (wayFor b l).isSome
/-- The retries that wait for a lane. -/
def retries (b : Block) : List (Nat × Job) := b.live.filter fun e => e.2.stage == .retry && e.2.engine.isNone
/-- Some waiting job of a higher class, a retry among them, asks for this lane (R236, R359). -/
def laneAsked (b : Block) (l : Nat) : Bool :=
  (ready b (waiters b .cipher) ++ retries b).any fun x => (engineFor b x.1 x.2 .cipher).isNone
    && (if x.2.desc.op == 0x18 then victimPair b x.2.eff == some (l / 2) else victimLane b x.2.eff == some l)

/-- The digest lane that gives way (R285). -/
def digestChosen (b : Block) (l : Nat) : Bool :=
  let cls := fun (m : Nat) => match (b.digestJobs.get m).bind b.job with | some j => j.eff | none => 0
  let ok := fun (c : Nat) => (List.range 16).filter fun m => match b.digestJobs.get m with
    | some i => (match b.job i with | some j => canLeave b i j && c < j.eff | none => false)
    | none => false
  (ready b (waiters b .digest)).any fun x => (engineFor b x.1 x.2 .digest).isNone
    && (ok x.2.eff).find? (fun m => (ok x.2.eff).all fun q => cls q ≤ cls m) == some l

/-- A digest lane is asked for: by a job of a higher class, or because its island goes out of service (R285, R410). -/
def digestAsked (b : Block) (l : Nat) : Bool := !(b.islands.get (l / 8)).inService || digestChosen b l

/-- A keyed digest job that leaves takes a pad: the island's hitch counter rises (R287). -/
def digestLeave (l k i : Nat) (b : Block) : Block :=
  let keyed := match b.job i with | some j => takesKey j.desc | none => false
  let b1 := hitchJob i k b
  let b2 := { b1 with digestHitches := b1.digestHitches.mod l fun n => satAdd 32 n 1 }
  if keyed then modIsland (l / 8) (fun x => { x with hitchCounter := x.hitchCounter + 1 }) b2 else b2

/-! ## HITCH -/

/-- The chute input not turned into output at `k` is at most 256 bytes (R454). -/
def chuteBehind (j : Job) (k : Nat) : Bool := !j.desc.srcChute || staged j.desc || haveLen j ≤ k + 256
/-- How far a job on its engine can have come: within what it has, from where it came in; with a tap state still on its way back no
further than that; with no more than 256 bytes of chute input behind; the output up to there may be released. -/
def reaches (j : Job) (k : Nat) : Bool :=
  k ≤ haveLen j && seenLen j ≤ k && (j.restore.full || k == seenLen j) && chuteBehind j k && (stagedOut j || mayRelease j (passOut j k))
/-- A place a job can leave at: a boundary it can have come to. -/
def leavesAt (j : Job) (k : Nat) : Bool := j.zeroFill || (boundary j k && reaches j k)
/-- A digest leaves while it absorbs, or between two blocks of a long output (R285, R286). -/
def digestLeavesAt (b : Block) (j : Job) (k : Nat) : Bool :=
  let n := squeezed j k
  (boundary j k && k ≤ (haveSrc j).length && j.seen.length ≤ k && chuteBehind j k)
    || (0 < n && n < digestOutLen b j && n % digestBlock j.desc.alg == 0
        && 0x23 ≤ j.desc.op && (j.desc.stateMode == 0 || j.desc.stateMode == 3)
        && j.desc.sLen ≤ (haveSrc j).length && j.dstDone ≤ n && j.aux.full)

/-- One job of lane `l` leaves it, counted on every lane it leaves (R245). -/
def leaveLane (i k : Nat) (j : Job) (b : Block) : Block :=
  each (jobLanes j) (fun l => modLane l fun x => { x with hitches := satAdd 32 x.hitches 1 }) (hitchJob i k b)

/-- The other members of a group leave, each that can, at a block boundary of its own (R233, R238, R240). -/
def othersLeave (l : Nat) (b : Block) : Block :=
  each (laneWork b l) (fun e b => match b.job e.1 with
    | some j => when (canLeave b e.1 j && leavesAt j (blocksIn b j)) (fun b => leaveLane e.1 (blocksIn b j) j (freed b)) b
    | none => b) b

/-- The jobs of a lane leave it, the first that can at `k`; lanes that are then empty are fenced (R238). -/
def laneLeave (l k i : Nat) (j : Job) (b : Block) : Block := othersLeave l (leaveLane i k j b)

/-- The first job of a lane that can take a frame: a hitch request of a lane that holds waits for the hold's end (R243). -/
def firstLeaver (b : Block) (l : Nat) : Option (Nat × Job) := (laneWork b l).find? fun e => canLeave b e.1 e.2 && !engineHeld b e.2

/-- HITCH: the lane an engine request chose leaves its work at a block boundary. A lane that gives way to a class does so only while
every job on it can take a frame; one that is fenced gives up each job that can. -/
def hitch (e : Engine) (k : Nat) (b : Block) : Block :=
  match e with
  | .lane l =>
    match firstLeaver b l.val with
    | none => b
    | some (i, j) => when ((laneForced b l.val || (laneAsked b l.val && laneHitchable b l.val)) && leavesAt j k) (laneLeave l.val k i j) b
  | .digest l => match b.digestJobs.get l.val with
    | none => b
    | some i => match b.job i with
      | none => b
      | some j => when (digestAsked b l.val && canLeave b i j && digestLeavesAt b j k) (digestLeave l.val k i) b
  | _ => b

def execHitch (e : Engine) (k : Nat) (s : State) := updOn s (engineIsland e) (hitch e k)

/-! ## Lane faults and retry (R127 to R134) -/

/-- Lanes of other open recoveries (R131). -/
def openRecoveries (b : Block) (i : Nat) : List Nat :=
  b.live.filterMap fun e => if e.1 != i then e.2.faultLane else none

/-- The faulted job becomes a retry: its state goes to its page, or, while the page is taken, stays with the lane, which takes no work
until the job has moved (R127, R246). -/
def becomeRetry (i l k : Nat) (j : Job) (b : Block) : Block :=
  let b1 := modJob i (fun x => { x with faultLane := some l }) (useSys 2 b)
  if recoveryFree b i j then leaveEngine i k j true .retry b1
  else tapStarved i (modJob i (fun x => { x with stage := .retry, kept := framesFor b1 i k j true }) (stopJobAt i k j b1))

/-- LANE_FAULT as the events and counters show it (R127, R135). -/
def faultSeen (l : Nat) (j : Job) (b : Block) : Block :=
  raise evLaneFault (toLe 1 l ++ toLe 2 j.stall.val ++ toLe 1 j.ring.val ++ toLe 2 j.seq.toNat)
    (modLane l (fun x => { x with faults := satAdd 32 x.faults 1 }) b)

/-- The other lane of the pair a splice has just left by a fault: both faulted in one lane cycle (R266). -/
def pairFault (l : Nat) (j : Job) : Bool :=
  j.desc.op == 0x18 && j.stage == .retry && (match j.faultLane with | some m => m != l && m / 2 == l / 2 | none => false)

/-- A fence that only SELFTEST lifts. -/
def badLane (x : Lane) : Lane := { x with fencedFault := true }

/-- The second fault of a job: both its lanes are fenced, and the lanes of the other open recoveries; the job ends (R130, R131). -/
def secondFault (l i : Nat) (j : Job) (b : Block) : Block :=
  let others := openRecoveries b i
  fence l badLane (each (j.faultLane.toList ++ others) (fun m => fence m badLane) (runError i .doubleFault b))

/-- A fault can strike a block of a running job, the tag at its end, or a zero-fill (R217, R246). -/
def faultsAt (b : Block) (l i k : Nat) (j : Job) : Bool :=
  (b.lane l).jobs.contains i
    && (if j.zeroFill then j.stage == .draining
        else j.stage == .running && (boundary j k || k == j.desc.sLen) && reaches j k)

/-- A lane fault. -/
def laneFault (l i k : Nat) (b : Block) : Block :=
  match b.job i with
  | none => b
  | some j =>
    if pairFault l j then secondFault l i j (faultSeen l j b)
    else if !faultsAt b l i k j then b
    else
      let b1 := faultSeen l j b
      if j.faultLane.isSome then secondFault l i j b1
      else
        let others := openRecoveries b i
        let b2 := becomeRetry i l k j b1
        let b3 := if others == [] then fence l (fun x => { x with suspect := true }) b2
          else fence l badLane (each others (fun m => fence m badLane) b2)
        othersLeave l b3

def execLaneFault (l : LaneId) (job : JobId) (k : Nat) (s : State) := updOn s (1 + l.val) (laneFault l.val job.val k)

/-- A retry whose lane keeps its state moves to its page once that is free (R246). -/
def moveKept (i : Nat) (j : Job) (b : Block) : Block :=
  if j.stage == .retry && j.kept != [] && recoveryFree b i j then
    modJob i (fun x => { x with engine := none, kept := [] }) (freeEngine i (putFrames i j true false j.kept b))
  else b
def moveAllKept (b : Block) : Block :=
  each b.live (fun e b => match b.job e.1 with | some j => moveKept e.1 j b | none => b) b

/-- The retry that goes first of those a lane, or a pair, is free for: the earliest dispatched (DESIGN CHOICE, assumption 55). -/
def firstRetry (b : Block) : Option (Nat × Job) := firstJob ((retries b).filter fun e => (engineFor b e.1 e.2 .cipher).isSome)

/-- A splice's retry makes a pair in service give way to it (R133, R238); the reservation a waiting splice may have of that pair
stands (R361). -/
def reserveRetry (e : Nat × Job) (b : Block) : Block :=
  let ok := fun (p : Nat) => (b.lane (2 * p)).inService && (b.lane (2 * p + 1)).inService && (b.lane (2 * p)).givesWay.isNone
  if e.2.desc.op != 0x18 || (pairs4.any fun p => (b.lane (2 * p)).givesWay == some e.1) || (engineFor b e.1 e.2 .cipher).isSome then b
  else match pairs4.find? ok with
    | some p => modLane (2 * p) (fun x => { x with givesWay := some e.1 }) b
    | none => b

/-- LANE_RETRY: the next free lane, or pair, goes to a retry (R128, R133). -/
def laneRetry (b : Block) : Block :=
  let b1 := moveAllKept b
  match firstRetry b1 with
  | some (i, j) => match engineFor b1 i j .cipher with
    | some e => giveEngine i j e b1
    | none => b1
  | none => each (retries b1) reserveRetry b1

def execLaneRetry (s : State) := updOn s 0 laneRetry

/-- A retry could take a lane now: it goes ahead of every waiting job (R128, R359). -/
def retryServable (b : Block) : Bool := (firstRetry b).isSome

/-- Jobs for the entropy island once it has stopped: each ends at its request for randomness (R488). -/
def endEntropyJobs (b : Block) : Block := each ((waiters b .entropy).filter fun x => prepared x.2) (fun x => endJob x.1 .islandReset) b

/-- ENGINE_GRANT: a cipher lane goes to a retry first, also to one that its faulted lane has kept until now (R128, R237, R246). -/
def engineGrant (e : EngClass) (b : Block) : Block :=
  if e = .entropy && b.boot.entropyStopped then endEntropyJobs b else
  if e = .unwrap then grantUnwrap b else
  if e = .cipher then
    let b := moveAllKept b
    if retryServable b then laneRetry b else grantClass e (each (retries b) reserveRetry b)
  else grantClass e b

def execEngineGrant (e : EngClass) (s : State) := updOn s 0 (engineGrant e)

end Sys2Proof.Machine
end

