-- ==== Sys2Proof/Machine/Run.lean ====
section
/-!
DEFINITION. The end of a job's work on its engine: inputs complete, verdicts, output and tag writes; and the
cipher-lane opcodes ENCRYPT to MAC_CHECK and SPLICE (06, 07).
-/

namespace Sys2Proof.Machine

/-! ## Inputs -/

/-- A second read of a job's tables is outstanding. -/
def tablesPending (b : Block) (i : Nat) : Bool :=
  let q := fun (o : Owner) => match o with | .tableAgain j _ => j == i | _ => false
  (b.rp.waiting.any fun r => q r.owner) || b.rp.out.any fun f => q f.req.owner

/-- Every input of a running job has arrived, no island of its engine is held (R243), and no lane of it waits for a reseed (R220). -/
def inputsReady (b : Block) (i : Nat) (j : Job) : Bool :=
  j.stage == .running && (if j.desc.srcChute then j.chuteEop && j.chuteErr.isNone else j.src.full) && j.aux.full && j.exp.full
    && j.restore.full && !tablesPending b i && !engineHeld b j && !lanePaused b j

/-- Run `f` on a job of opcode `op` whose inputs have arrived. -/
def onReady (op i : Nat) (f : Job → Block → Block) (b : Block) : Block :=
  match b.job i with
  | none => b
  | some j => when (j.desc.op == op && inputsReady b i j) (f j) b

/-- A job that takes chute input ends when that input breaks R453, once its engine's island runs (R243). -/
def feedAndCheck (i : Nat) (b : Block) : Block :=
  let b1 := feed i b
  match (b1.job i).bind fun j => if j.stage == .running && !engineHeld b1 j then j.chuteErr else none with
  | some st => runError i st b1
  | none => b1

/-! ## Verdicts (R96, R97, R218, R275) -/

/-- The result of a check: the match pair with DONE, or the mismatch pair with the result code. -/
def checked (ok : Bool) (fail : Status) (n : Nat) : RunResult :=
  if ok then { status := .done, verdict := matchWord, verdictInv := matchInv, bytesWritten := n }
  else { status := fail, verdict := missWord, verdictInv := missInv }

/-- The events of a comparison: two takes that differ, or a pair that is neither (R97, R489). -/
def verdictEvent (v : Verdict) (b : Block) : Block :=
  match v with
  | .sound | .cut => b
  | .split => raise evDecisionSplit [] b
  | .invalid => raise evVerdictInvalid [] b

/-- A comparison passes when its takes agree and the values are equal; without randomness for its delay it refuses
(R488, R489). -/
def passes (b : Block) (v : Verdict) (eq : Bool) : Bool := !b.boot.entropyStopped && v == .sound && eq

/-- A check draws the delay between its two readings: it waits while the entropy island restarts (R488, R489). -/
def onCheck (f : Block → Block) (b : Block) : Block := if b.boot.entropyPaused && !b.boot.entropyStopped then b else f b

/-- A job at a request for randomness: it waits out a restart of the entropy island, and ends with ISLAND_RESET once
that island has stopped (R488). -/
def withRandom (i : Nat) (f : Block → Block) (b : Block) : Block :=
  if b.boot.entropyStopped then runError i .islandReset b else if b.boot.entropyPaused then b else f b

/-! ## Output -/

/-- The destination of a job whose check failed: output held in staging is never written, other output was released as
it was produced, and the whole area is then zeroed (R222 to R224, R262 to R264). -/
def failOut (i : Nat) (held : Bool) (out : Bytes) (j : Job) (b : Block) : Block :=
  zeroFrom i 0 (modJob i (fun x => { x with fillAt := j.desc.sLen, tapState := tapHeld b j j.desc.payload })
    (if held then dropWaitingWrites i b else writeOut i j.dstDone false (out.drop j.dstDone) b))

/-- The engine's work is done: its result stands, and the job drains. A cipher lane is free once it has handed over the last block
(R201). -/
def drain (i : Nat) (r : RunResult) (b : Block) : Block :=
  laneDone i (modJob i (fun j => { j with stage := .draining, result := r }) b)

/-- Write the output that is not yet released, and the other areas, and drain. -/
def finish (i : Nat) (out : Bytes) (more : List (Addr × Bytes)) (r : RunResult) (b : Block) : Block :=
  match b.job i with
  | none => b
  | some j => drain i r (each more (fun p => writeAt i p.1 p.2) (writeOut i j.dstDone false (out.drop j.dstDone) b))

/-- A result with an output of `n` bytes and no check. -/
def doneWith (n : Nat) : RunResult := { bytesWritten := n }

/-! ## Cipher lanes -/

/-- ENCRYPT and DECRYPT (R91, R201 to R206). -/
def runPlainCipher (dec : Bool) (i : Nat) (j : Job) (b : Block) : Block :=
  let d := j.desc
  let out := plainCipher dec d.mode d.param (keyAt j 0) d.iv (haveSrc j)
  finish i (fit d.sLen out) [] (doneWith d.sLen) b

/-- ENCRYPT. -/
def execEncrypt (job : JobId) (s : State) := updReady s fun b => onReady 0x10 job.val (runPlainCipher false job.val) (feedAndCheck job.val b)
/-- DECRYPT. -/
def execDecrypt (job : JobId) (s : State) := updReady s fun b => onReady 0x11 job.val (runPlainCipher true job.val) (feedAndCheck job.val b)

/-- The payload as the second pass read it. -/
def payload2 (j : Job) : Bytes := j.seen2 ++ j.again.bytes

/-- SEAL (R207 to R209). A GCM-SIV job takes its tag from the first pass and encrypts the second, from memory or the landing buffer. -/
def runSeal (i : Nat) (j : Job) (b : Block) : Block :=
  let d := j.desc
  let src := haveSrc j
  let aad := src.take d.aLen
  let pt := src.drop d.aLen
  let two := d.mode == 6 && d.payload != 0
  if two && !j.pass2 then secondPass i j b
  else if two && !j.again.full then b
  else
    let r := sealText d.mode d.param (keyAt j 0) (jobIv j) aad pt
    let out := if two then aeadStream 6 (keyAt j 0) (jobIv j) (fullTag 6 (keyAt j 0) (jobIv j) aad pt) (payload2 j) else r.1
    finish i (fit d.payload out) [(d.aux, r.2)] (doneWith d.payload) b

/-- SEAL. -/
def execSeal (job : JobId) (s : State) := updReady s fun b => onReady 0x12 job.val (runSeal job.val) (feedAndCheck job.val b)

/-- OPEN (R208, R218, R222 to R224): a mismatch zeroes the whole declared area. -/
def runOpen (v : Verdict) (i : Nat) (j : Job) (b : Block) : Block := onCheck (fun b =>
  let d := j.desc
  let src := haveSrc j
  let r := openText d.mode d.param (keyAt j 0) d.iv (src.take d.aLen) (fit 16 j.aux.bytes) (src.drop d.aLen)
  let ok := passes b v (r.2 == j.aux.bytes)
  let b1 := verdictEvent v b
  if ok then finish i (fit d.payload r.1) [] (checked true .authFailed d.payload) b1
  else drain i (checked false .authFailed 0) (failOut i (stagedOut j) (fit d.payload r.1) j b1)) b

/-- OPEN. -/
def execOpenAead (job : JobId) (v : Verdict) (s : State) := updReady s fun b => onReady 0x13 job.val (runOpen v job.val) (feedAndCheck job.val b)

/-- The tag of a MAC job. -/
def macTagOf (j : Job) : Bytes := macOf j.desc.mode j.desc.param (keyAt j 0) j.desc.iv (haveSrc j)

/-- MAC_GEN (R88, R207). -/
def runMacGen (i : Nat) (j : Job) (b : Block) : Block :=
  finish i (fit (tagLen j.desc.mode j.desc.param) (macTagOf j)) [] (doneWith (tagLen j.desc.mode j.desc.param)) b
/-- MAC_CHECK (R96, R218). -/
def runMacCheck (v : Verdict) (i : Nat) (j : Job) (b : Block) : Block :=
  onCheck (fun b => drain i (checked (passes b v (macTagOf j == j.aux.bytes)) .authFailed 0) (verdictEvent v b)) b

/-- MAC_GEN. -/
def execMacGen (job : JobId) (s : State) := updReady s fun b => onReady 0x14 job.val (runMacGen job.val) (feedAndCheck job.val b)
/-- MAC_CHECK. -/
def execMacCheck (job : JobId) (v : Verdict) (s : State) := updReady s fun b => onReady 0x15 job.val (runMacCheck v job.val) (feedAndCheck job.val b)

/-! ## SPLICE (07) -/

/-- The plaintext of a splice and the tag its source should have. -/
def spliceOpen (j : Job) (aad ct : Bytes) : Bytes × Bytes :=
  let d := j.desc
  if aeadMode (spSrc d) then openText (spSrc d) (field j.pblk 0 1) (keyAt j 0) d.iv aad (fit 16 j.aux.bytes) ct
  else (plainCipher true (spSrc d) (field j.pblk 0 1) (keyAt j 0) d.iv ct, [])

/-- The ciphertext and tag at a splice's destination. -/
def spliceSeal (j : Job) (aad pt : Bytes) : Bytes × Bytes :=
  let d := j.desc
  if aeadMode (spDst d) then sealText (spDst d) (field j.pblk 1 1) (keyAt j 1) (spDstIv j.pblk) aad pt
  else (plainCipher false (spDst d) (field j.pblk 1 1) (keyAt j 1) (spDstIv j.pblk) pt, [])

/-- The digest of the fixity tap (R260), from the state its save gave back where the splice was moved (R266). -/
def tapDigest (b : Block) (j : Job) (pt : Bytes) : Bytes := spongeEnd (spTapAlg j.pblk) (tapAt b j pt) (pt.length % digestBlock (spTapAlg j.pblk))

/-- A splice needs its second pass (R253, R263). -/
def spliceTwo (d : Desc) : Bool := spDst d == 6 && 65536 < d.payload

/-- The checks of a splice have failed: status by R261, whole area and tag location zero (R264). -/
def spliceFail (i : Nat) (j : Job) (tagOk : Bool) (out : Bytes) (b : Block) : Block :=
  let tap := spTapAlg j.pblk != 0
  let st : Status := if tagOk then .fixityMismatch else .authFailed
  drain i { status := st, verdict := if tap then missWord else 0, verdictInv := if tap then missInv else 0 }
    (zeroTag i (failOut i (stagedOut j || spDst j.desc == 6) out j b))

/-- The output of a splice whose checks have passed. -/
def spliceDone (i : Nat) (j : Job) (aad pt : Bytes) (b : Block) : Block :=
  let tap := spTapAlg j.pblk != 0
  let r := spliceSeal j aad pt
  finish i (fit j.desc.payload r.1) ((tagAddr j).toList.map fun p => (p.1, r.2))
    { verdict := if tap then matchWord else 0, verdictInv := if tap then matchInv else 0, bytesWritten := j.desc.payload } b

/-- SPLICE. -/
def runSplice (tag tap : Verdict) (i : Nat) (j : Job) (b : Block) : Block :=
  let d := j.desc
  let src := haveSrc j
  let aad := src.take d.aLen
  let r := spliceOpen j aad (src.drop d.aLen)
  let pt := fit d.payload r.1
  if j.pass2 then
    if !j.again.full then b
    else
      let pt2 := fit d.payload (spliceOpen j aad (payload2 j)).1
      let t := fun x => fullTag 6 (keyAt j 1) (spDstIv j.pblk) aad x
      if t pt2 == t pt then spliceDone i j aad pt2 b else runError i .doubleFault b
  else onCheck (fun b =>
    let tagOk := !aeadMode (spSrc d) || passes b tag (r.2 == j.aux.bytes)
    let tapOk := spTapAlg j.pblk == 0 || passes b tap (tapDigest b j pt == j.exp.bytes)
    let b1 := (if spTapAlg j.pblk == 0 then id else verdictEvent tap) ((if aeadMode (spSrc d) then verdictEvent tag else id) b)
    if !(tagOk && tapOk) then spliceFail i j tagOk (fit d.payload (spliceSeal j aad pt).1) b1
    else if spliceTwo d && !d.srcChute then secondPass i j b1
    else spliceDone i j aad pt b1) b

/-- SPLICE. -/
def execSplice (job : JobId) (tag tap : Verdict) (s : State) :=
  updReady s fun b => onReady 0x18 job.val (runSplice tag tap job.val) (feedAndCheck job.val b)

end Sys2Proof.Machine
end

