-- ==== Sys2Proof/Machine/Digest.lean ====
section
/-!
DEFINITION. The digest lanes (08): DIGEST, HMAC, KMAC and XOF, sealed state blobs, the keyed-digest state cache.
-/

namespace Sys2Proof.Machine

/-! ## Upkeep of the keyed-digest state cache (R279) -/

/-- DIGEST_CACHE_PURGE: entries of the slots whose GEN has risen are zeroed (R279). -/
def cachePurge (isl : Nat) (b : Block) : Block :=
  modIsland isl (fun x => { x with cache := x.cache.filter fun e => !x.purge.contains e.slot, purge := [] }) b
def execDigestCachePurge (isl : Fin 2) (s : State) := updOn s (9 + isl.val) (cachePurge isl.val)

/-- DIGEST_CACHE_REMASK: every entry takes a fresh mask, the states it holds stay; without randomness none does (R279, R488). -/
def remaskEnt (m : Bytes) (e : CacheEnt) : CacheEnt :=
  { e with share := xorBytes (xorBytes e.share e.mask) (fit e.mask.length m), mask := fit e.mask.length m }
def cacheRemask (isl : Nat) (b : Block) : Block :=
  if noEntropy b then b else
  let n := (b.islands.get isl).cache.length
  modIsland isl (fun x => { x with cache := x.cache.mapIdx fun k e => remaskEnt (Config.drbg (b.draws + k) 128) e }) { b with draws := b.draws + n }
def execDigestCacheRemask (isl : Fin 2) (s : State) := updOn s (9 + isl.val) (cacheRemask isl.val)

/-! ## Results -/

/-- Absorbed message bytes after the job (R282). -/
def absorbedAfter (j : Job) : Nat := (j.absorbed + j.desc.sLen) % 2 ^ 64

/-- The running state a START or CONTINUE job saves. -/
def savedState (j : Job) : Bytes := runningState j (haveSrc j)

/-- Bytes 0 to 63 of a sealed state blob (R282). -/
def stateHead (b : Block) (j : Job) : Bytes :=
  [0x4D, 0x44, 0x53, 0x42, 1] ++ toLe 1 j.desc.alg ++ toLe 1 (stateUse j.desc.op) ++ [0] ++ toLe 2 j.stall.val ++ zeros 6
    ++ toLe 8 (absorbedAfter j) ++ (if takesKey j.desc then stateKeyFp b (keyAt j 0) else zeros 8) ++ drbgNow b 12 ++ zeros 20

/-- The sealed state blob of 280 bytes. -/
def stateBlob (b : Block) (j : Job) : Bytes :=
  let h := stateHead b j
  h ++ fit 216 (Config.gcmSeal (stateKey b) (slice h 32 12) h (savedState j))

/-- DIGEST, HMAC_GEN, KMAC_GEN and XOF: a sealed state blob in state modes 1 and 2, else the output (R280). -/
def runDigest (i : Nat) (j : Job) (b : Block) : Block :=
  let n := outLen b j.desc [] 0
  if j.desc.stateMode == 1 || j.desc.stateMode == 2 then
    withRandom i (fun b => let b := useSys 2 b; finish i (fit 280 (stateBlob b j)) [] (doneWith 280) (drew b)) b
  else finish i (digestOut j n) [] (doneWith n) b

/-- HMAC_CHECK and KMAC_CHECK (R275). -/
def runDigestCheck (v : Verdict) (i : Nat) (j : Job) (b : Block) : Block :=
  onCheck (fun b => drain i (checked (passes b v (digestOut j j.aux.bytes.length == j.aux.bytes)) .authFailed 0) (verdictEvent v b)) b

/-- DIGEST. -/
def execDigest (job : JobId) (s : State) := updReady s fun b => onReady 0x20 job.val (runDigest job.val) (feedAndCheck job.val b)
/-- HMAC_GEN. -/
def execHmacGen (job : JobId) (s : State) := updReady s fun b => onReady 0x21 job.val (runDigest job.val) (feedAndCheck job.val b)
/-- HMAC_CHECK. -/
def execHmacCheck (job : JobId) (v : Verdict) (s : State) := updReady s fun b => onReady 0x22 job.val (runDigestCheck v job.val) (feedAndCheck job.val b)
/-- KMAC_GEN. -/
def execKmacGen (job : JobId) (s : State) := updReady s fun b => onReady 0x23 job.val (runDigest job.val) (feedAndCheck job.val b)
/-- KMAC_CHECK. -/
def execKmacCheck (job : JobId) (v : Verdict) (s : State) := updReady s fun b => onReady 0x24 job.val (runDigestCheck v job.val) (feedAndCheck job.val b)
/-- XOF. -/
def execXof (job : JobId) (s : State) := updReady s fun b => onReady 0x25 job.val (runDigest job.val) (feedAndCheck job.val b)

end Sys2Proof.Machine
end

