-- ==== Sys2Proof/Machine/KeyOps.lean ====
section
/-!
DEFINITION. The key opcodes KEY_UNWRAP, KEY_WRAP, KEY_DERIVE, KEY_GENERATE (R170 to R174, R567) and RANDOM (R175).
-/

namespace Sys2Proof.Machine

/-- The result record of R173. -/
def resultRecord (b : Block) (i : Nat) : Bytes := toLe 4 (handleOf b i) ++ toLe 4 (b.slot i).gen.toNat ++ zeros 8

/-- Install a new key of a job in the slots kept for it: pinned, owned by the job's stall (R173); it stays if the job ends with DONE
(R104). -/
def installKey (i : Nat) (j : Job) (a : Slot) (material : Bytes) (b : Block) : Block :=
  let b1 := writeKey { a with kflags := a.kflags ||| kPinned } material j.target (modJob i (fun j => { j with target := [] }) b)
  modJob i (fun x => { x with installed := j.target.head?.map fun t => (t, (b1.slot t).gen) }) b1

/-- The attributes of a job's attribute block as a record. -/
def newRecord (k : NewKey) : Slot :=
  { alg := k.alg, size := k.size, engineMask := k.engineMask, uses := k.uses, useLimit := k.useLimit
    kflags := if k.exportable then kExportable else 0 }

/-- A child of the job's KEY_REF key as it was released (R172, R193): GENERATED_INSIDE inherited, depth one greater; its owner is the job's
stall (R173), which for a GLOBAL parent is not the parent's (assumption 56), and it has no GRANTS (R169). -/
def childOf (b : Block) (j : Job) (a : Slot) : Slot :=
  match j.keys with
  | [] => stallKeyChild b j.stall.val a
  | k :: _ =>
    let base := stallKeyChild b j.stall.val { a with kflags := a.kflags ||| (k.kflags &&& kInside) }
    match k.slot with
    | some p => { base with
        parent := BitVec.ofNat 32 ((k.attrs.parent.toNat / 2 ^ 24 + 1) * 2 ^ 24 + k.attrs.gen.toNat % 128 * 8192 + p), parentGen := k.attrs.gen }
    | none => { base with parentGen := k.sk.keyGen, skGen := k.sk.keyGen }

/-- A key of the job's stall at depth 1, made inside (R318, R333). -/
def insideKey (b : Block) (j : Job) (a : Slot) : Slot :=
  stallKeyChild b j.stall.val { a with kflags := a.kflags ||| kInside }

/-- Install a key and write its result record, followed by `more`; `keep` is what the engine does with the output. -/
def installWith (keep : Bytes → Block → Block) (i : Nat) (j : Job) (a : Slot) (material more : Bytes) (b : Block) : Block :=
  match j.target with
  | [] => runError i .keyNotFound b
  | t :: _ =>
    let b1 := installKey i j a material b
    let out := resultRecord b1 t ++ more
    finish i out [] (doneWith (16 + more.length)) (keep out b1)
def installAndWrite (i : Nat) (j : Job) (a : Slot) (material more : Bytes) (b : Block) : Block :=
  installWith (fun _ b => b) i j a material more b

/-- A slot write waits while any island holds (R485), and for the randomness of its mask (R161, R488). -/
def slotWrite (i : Nat) (f : Block → Block) (b : Block) : Block := withRandom i (when (!anyHold b) f) b

/-- KEY_UNWRAP variant 0x00: the source is a blob under the stall key the unit was given (R176, R177, R193). -/
def unwrapSource (b : Block) (j : Job) : Option (Slot × Bytes) :=
  let x := haveSrc j
  let h := x.take 64
  let k := (j.keys.getD 0 {}).sk
  if j.desc.sLen != 80 + blobPad h || !blobHeadOk b h || field h 6 2 != j.stall.val || slice h 8 8 != fit 8 k.fp then none
  else (Config.sivOpen (keyAt j 0) (slice h 32 12) h (slice x 64 (blobPad h + 16))).map fun m =>
    ({ blobKey b h j.stall.val with parentGen := k.keyGen, skGen := k.keyGen }, fit (blobMatLen h) m)

/-- Material of a KW or KWP unwrap, when it fits the attribute block. -/
def kwSource (j : Job) (want : Nat) : Option Bytes :=
  match Config.kwUnwrap (j.desc.variant == 2) (keyAt j 0) (haveSrc j) with
  | some m => if m.length == want then some m else none
  | none => none

/-- KEY_UNWRAP. A source that does not unwrap, or gives equal XTS halves, is found in the run stage, after the use is charged: the source is
read after the start (R20, R22, R100; DEDUCED, assumption 108). -/
def runKeyUnwrap (i : Nat) (j : Job) (b : Block) : Block :=
  if j.desc.variant == 0 then
    match unwrapSource b j with
    | none => runError i .keyNotFound b
    | some (a, m) => if xtsHalvesEqual a.alg m then runError i .keyUseDenied b
        else slotWrite i (installAndWrite i { j with target := j.target.take (ceilDiv m.length 64) } a m []) b
  else match j.newKey with
    | none => b
    | some k => match kwSource j ((materialLen b k.alg k.size).getD 0) with
      | none => runError i .keyNotFound b
      | some m => if xtsHalvesEqual k.alg m then runError i .keyUseDenied b
          else slotWrite i (installAndWrite i j (stallKeyChild b j.stall.val (newRecord k)) m []) b

/-- KEY_UNWRAP. -/
def execKeyUnwrap (job : JobId) (s : State) := updOn s 19 fun b => onReady 0x30 job.val (runKeyUnwrap job.val) b

/-- Bytes 0 to 63 of a blob that wraps subject `k` under stall key `w`, both as they were released (R174, R176, R193). -/
def blobHead (b : Block) (j : Job) (k w : KeyCopy) : Bytes :=
  [0x4D, 0x42, 0x4C, 0x42, 1, 0] ++ toLe 2 j.stall.val ++ fit 8 w.sk.fp ++ toLe 2 k.alg ++ toLe 2 k.size
    ++ toLe 1 k.attrs.engineMask.toNat ++ [0] ++ toLe 2 k.attrs.uses.toNat ++ toLe 4 k.attrs.useLimit.toNat
    ++ toLe 2 ((has k.kflags kExportable).toNat + 2 * (has k.kflags kInside).toNat) ++ toLe 2 k.material.length
    ++ drbgNow b 12 ++ zeros 20

/-- A blob of a key under the stall's own stall key. -/
def blobOf (b : Block) (j : Job) (k w : KeyCopy) : Bytes :=
  let h := blobHead b j k w
  let m := roundUp k.material.length 16
  h ++ fit (m + 16) (Config.sivSeal (fit 32 w.material) (slice h 32 12) h (fit m k.material))

/-- KEY_WRAP: keys are the subject, then the wrapping key. -/
def runKeyWrap (i : Nat) (j : Job) (b : Block) : Block :=
  let k := j.keys.getD 0 {}
  let n := jobOutLen b j
  if j.desc.variant == 0 then withRandom i (fun b => finish i (fit n (blobOf b j k (j.keys.getD 1 {}))) [] (doneWith n) (drew b)) b
  else finish i (fit n (Config.kwWrap (j.desc.variant == 2) (keyAt j 1) k.material)) [] (doneWith n) b

/-- KEY_WRAP. -/
def execKeyWrap (job : JobId) (s : State) := updOn s 19 fun b => onReady 0x31 job.val (runKeyWrap job.val) b

/-- Input of PRF step `i`: counter, fixed data, output length in bits (R172). -/
def prfInput (i n : Nat) (fixed : Bytes) : Bytes := toBe 4 i ++ fixed ++ toBe 4 (8 * n)
/-- HMAC of a message (FIPS 198-1). -/
def hmacOf (a : Nat) (key msg : Bytes) : Bytes :=
  hmacOuter a (opadState a key) (hashFrom a (ipadState a key) msg (digestBlock a + msg.length) (digestLen a))
/-- Step `i` of a variant's PRF: CMAC-AES, HMAC-SHA-256, HMAC-SHA-512. -/
def prfStep (variant : Nat) (key x : Bytes) : Bytes :=
  if variant == 1 then fullTag 7 key [] [] x else hmacOf (if variant == 2 then 2 else 4) key x
def prfLen (variant : Nat) : Nat := if variant == 1 then 16 else if variant == 2 then 32 else 64
/-- `n` bytes of key by the counter mode of SP 800-108, or by its KMAC mode with S = "KDF". -/
def kdfOf (variant : Nat) (key fixed : Bytes) (n : Nat) : Bytes :=
  if 4 ≤ variant then kmacOf (if variant == 4 then 0x31 else 0x32) key (ascii "KDF") fixed n
  else fit n ((List.range (ceilDiv n (prfLen variant))).flatMap fun i => prfStep variant key (prfInput (i + 1) n fixed))

/-- KEY_DERIVE (R172, R205). -/
def runKeyDerive (i : Nat) (j : Job) (b : Block) : Block :=
  match j.newKey with
  | none => b
  | some k =>
    let n := (materialLen b k.alg k.size).getD 0
    let m := fit n (kdfOf j.desc.variant.toNat (keyAt j 0) (haveSrc j) n)
    if xtsHalvesEqual k.alg m then runError i .keyUseDenied b else slotWrite i (installAndWrite i j (childOf b j (newRecord k)) m []) b

/-- KEY_DERIVE. -/
def execKeyDerive (job : JobId) (s : State) := updOn s 19 fun b => onReady 0x32 job.val (runKeyDerive job.val) b

/-- KEY_GENERATE: material from the DRBG; while the halves of an XTS key are equal the unit draws again, at the job's next step (R205). -/
def runKeyGenerate (i : Nat) (j : Job) (b : Block) : Block :=
  match j.newKey with
  | none => b
  | some k =>
    let m := drbgNow b ((materialLen b k.alg k.size).getD 0)
    if xtsHalvesEqual k.alg m then drew b else installAndWrite i j (childOf b j (newRecord k)) m [] (drew b)

/-- KEY_GENERATE, the opcode. -/
def execKeyGenerateOp (job : JobId) (s : State) := updOn s 19 fun b =>
  onReady 0x33 job.val (fun j => slotWrite job.val (runKeyGenerate job.val j)) b

/-- RANDOM (R175). -/
def runRandom (i : Nat) (j : Job) (b : Block) : Block :=
  finish i (drbgNow b j.desc.aLen) [] (doneWith j.desc.aLen) (drew b)

/-- RANDOM. -/
def execRandom (job : JobId) (s : State) := updOn s 21 fun b => onReady 0x34 job.val (fun j => withRandom job.val (runRandom job.val j)) b

end Sys2Proof.Machine
end

