-- ==== Sys2Proof/Machine/Curve.lean ====
section
/-!
DEFINITION. Arithmetic of the public-key cores: modular numbers, the curve forms of R324, ECDSA and ECDH on them (R312 to
R320), the decoding of Edwards points (R320), and the forms a lattice or hash-based verification refuses (R344).
-/

namespace Sys2Proof.Machine

/-! ## Numbers -/

/-- `x ^ e mod n` over the `f` low bits of `e`. -/
def powMod (n : Nat) : (f x e : Nat) → Nat
  | 0, _, _ => 1 % n
  | f + 1, x, e => (if e % 2 == 1 then x % n else 1) * powMod n f (x * x % n) (e / 2) % n
/-- `x ^ e mod n`. -/
def modExp (x e n : Nat) : Nat := powMod n (e.log2 + 1) x e
/-- Inverse modulo a prime. -/
def invMod (p x : Nat) : Nat := modExp x (p - 2) p
/-- `x - y` modulo `p`. -/
def subMod (p x y : Nat) : Nat := (x % p + p - y % p) % p

/-! ## Curves -/

/-- The loaded curve's record a variant names, empty for a built-in curve. -/
def curveRec (b : Block) (v : Nat) : Bytes := match curveSlot v with | some c => (b.curves.get c).record | none => []
def recNum (r : Bytes) (off : Nat) : Nat := beNat (slice r off 72)

/-- A curve record's fields (R324). -/
structure CurveRec where
  form : Nat
  bits : Nat
  h : Nat
  p : Nat
  a : Nat
  b : Nat
  gx : Nat
  gy : Nat
  n : Nat
  deriving DecidableEq, Repr

def parseCurve (r : Bytes) : CurveRec :=
  { form := field r 5 1, bits := field r 6 2, h := field r 8 1, p := recNum r 16, a := recNum r 88, b := recNum r 160
    gx := recNum r 232, gy := recNum r 304, n := recNum r 376 }

/-- A point lies on the curve. -/
def CurveRec.on (c : CurveRec) (x y : Nat) : Bool :=
  match c.form with
  | 0 => (y * y) % c.p == (x * x * x + c.a * x + c.b) % c.p
  | 1 => (c.b * y * y) % c.p == (x * x * x + c.a * x * x + x) % c.p
  | _ => (c.a * x * x + y * y) % c.p == (1 + c.b * (x * x % c.p) * (y * y % c.p)) % c.p

/-- A coordinate of a form 2 point on its projective line, and back: p stands for the coordinate of a point at infinity. -/
def CurveRec.toLine (c : CurveRec) (x : Nat) : Nat × Nat := if x == c.p then (1, 0) else (x, 1)
def CurveRec.ofLine (c : CurveRec) (u : Nat × Nat) : Nat := if u.2 % c.p == 0 then c.p else u.1 * invMod c.p u.2 % c.p
/-- The sum of two points of a twisted Edwards curve, points at infinity among them: the usual law, and where that gives no point its
dual. -/
def CurveRec.edAdd (c : CurveRec) (u v : Nat × Nat) : Nat × Nat :=
  let p := c.p
  let (x1, z1) := c.toLine u.1
  let (y1, t1) := c.toLine u.2
  let (x2, z2) := c.toLine v.1
  let (y2, t2) := c.toLine v.2
  let d := c.b * (x1 * x2 % p) * (y1 * y2 % p) % p
  let z := z1 * z2 * t1 * t2
  let x := ((x1 * y2 * z2 * t1 + x2 * y1 * z1 * t2) % p, (z + d) % p)
  let y := (subMod p (y1 * y2 * z1 * z2) (c.a * x1 * x2 * t1 * t2), subMod p z d)
  if x == (0, 0) || y == (0, 0) then
    (c.ofLine ((x1 * y1 * z2 * t2 + x2 * y2 * z1 * t1) % p, (c.a * x1 * x2 * t1 * t2 + y1 * y2 * z1 * z2) % p),
     c.ofLine (subMod p (x1 * y1 * z2 * t2) (x2 * y2 * z1 * t1), subMod p (x1 * y2 * z2 * t1) (x2 * y1 * z1 * t2)))
  else (c.ofLine x, c.ofLine y)

/-- The sum of two points; `none` is the point at infinity of forms 0 and 1, (0, 1) the identity of form 2. -/
def CurveRec.add (c : CurveRec) : Option (Nat × Nat) → Option (Nat × Nat) → Option (Nat × Nat)
  | none, q => q
  | p, none => p
  | some (x1, y1), some (x2, y2) =>
    let p := c.p
    if c.form == 2 then some (c.edAdd (x1, y1) (x2, y2))
    else if x1 == x2 && (y1 + y2) % p == 0 then none
    else
      let s := if c.form == 1 then c.b else 1
      let l := if x1 == x2 then
          (if c.form == 1 then 3 * x1 * x1 + 2 * c.a * x1 + 1 else 3 * x1 * x1 + c.a) % p * invMod p (2 * s * y1 % p) % p
        else subMod p y2 y1 * invMod p (subMod p x2 x1) % p
      let x3 := subMod p (s * l * l) ((if c.form == 1 then c.a else 0) + x1 + x2)
      some (x3, subMod p (l * subMod p x1 x3) y1)

/-- `k` times a point, over the `f` low bits of `k`. -/
def CurveRec.mul (c : CurveRec) : (f k : Nat) → Option (Nat × Nat) → Option (Nat × Nat)
  | 0, _, _ => if c.form == 2 then some (0, 1) else none
  | f + 1, k, q =>
    let r := c.mul f (k / 2) (c.add q q)
    if k % 2 == 1 then c.add q r else r
def CurveRec.identity (c : CurveRec) (q : Option (Nat × Nat)) : Bool := if c.form == 2 then q == some (0, 1 % c.p) else q == none


/-- The built-in NIST curves (R312, SP 800-186). -/
def nistCurve (v : Nat) : CurveRec :=
  if v == 1 then
    let p := 2 ^ 256 - 2 ^ 224 + 2 ^ 192 + 2 ^ 96 - 1
    { form := 0, bits := 256, h := 1, p, a := p - 3
      b := 0x5ac635d8aa3a93e7b3ebbd55769886bc651d06b0cc53b0f63bce3c3e27d2604b
      gx := 0x6b17d1f2e12c4247f8bce6e563a440f277037d812deb33a0f4a13945d898c296
      gy := 0x4fe342e2fe1a7f9b8ee7eb4a7c0f9e162bce33576b315ececbb6406837bf51f5
      n := 0xffffffff00000000ffffffffffffffffbce6faada7179e84f3b9cac2fc632551 }
  else if v == 2 then
    let p := 2 ^ 384 - 2 ^ 128 - 2 ^ 96 + 2 ^ 32 - 1
    { form := 0, bits := 384, h := 1, p, a := p - 3
      b := 0xb3312fa7e23ee7e4988e056be3f82d19181d9c6efe8141120314088f5013875ac656398d8a2ed19d2a85c8edd3ec2aef
      gx := 0xaa87ca22be8b05378eb1c71ef320ad746e1d3b628ba79b9859f741e082542a385502f25dbf55296c3a545e3872760ab7
      gy := 0x3617de4a96262c6f5d9e98bf9292dc29f8f41dbd289a147ce9da3113b5f0b8c00a60b1ce1d7e819d7a431d7c90ea0e5f
      n := 0xffffffffffffffffffffffffffffffffffffffffffffffffc7634d81f4372ddf581a0db248b0a77aecec196accc52973 }
  else
    let p := 2 ^ 521 - 1
    { form := 0, bits := 521, h := 1, p, a := p - 3
      b := 0x0051953eb9618e1c9a1f929a21a0b68540eea2da725b99b315f3b8b489918ef109e156193951ec7e937b1652c0bd3bb1bf073573df883d2c34f1ef451fd46b503f00
      gx := 0x00c6858e06b70404e9cd9e3ecb662395b4429c648139053fb521f828af606b4d3dbaa14b5e77efe75928fe1dc127a2ffa8de3348b3c1856a429bf97e7e31c2e5bd66
      gy := 0x011839296a789a3bc0045c8a5fb42c7d1bd998f54449579b446817afbd17273e662c97ee72995ef42640c550b9013fad0761353c7086a272c24088be94769fd16650
      n := 0x1fffffffffffffffffffffffffffffffffffffffffffffffffffffffffffffffffa51868783bf2f966b7fcc0148f709a5d03bb5c9b8899c47aebb6fb71e91386409 }

/-- The curve of an EC variant. -/
def curveOf (b : Block) (v : Nat) : CurveRec := match curveSlot v with | some _ => parseCurve (curveRec b v) | none => nistCurve v
/-- A variant whose keys are a number d and a point: the NIST and the loaded curves. -/
def pointVariant (v : Nat) : Bool := v ≤ 3 || (curveSlot v).isSome

/-- `k` times the generator, and a point's coordinates; the point at infinity has none, and 0 stands for them. -/
def CurveRec.mulG (c : CurveRec) (k : Nat) : Option (Nat × Nat) := c.mul (k.log2 + 1) k (some (c.gx, c.gy))
def pointX (q : Option (Nat × Nat)) : Nat := (q.getD (0, 0)).1
def pointY (q : Option (Nat × Nat)) : Nat := (q.getD (0, 0)).2

/-- The public part of a private number: x then y, `l` bytes each (R313, R316). -/
def CurveRec.publicPart (c : CurveRec) (l d : Nat) : Bytes := let q := c.mulG d; toBe l (pointX q) ++ toBe l (pointY q)

/-- Bytes of a draw that holds 64 bits more than the order's length, and the number in [1, n - 1] it gives (R319). -/
def CurveRec.drawLen (c : CurveRec) : Nat := ceilDiv (c.n.log2 + 65) 8
def CurveRec.fromDraw (c : CurveRec) (x : Bytes) : Nat := beNat x % 2 ^ (c.n.log2 + 65) % (c.n - 1) + 1

/-- A hash input cut to the leftmost bits of the order's length (R316). -/
def CurveRec.hashNum (c : CurveRec) (e : Bytes) : Nat := beNat e / 2 ^ (8 * e.length - (c.n.log2 + 1))

/-- An ECDSA signature with per-message secret `k`: r and s (FIPS 186-5). -/
def CurveRec.sign (c : CurveRec) (d k : Nat) (e : Bytes) : Nat × Nat :=
  let r := pointX (c.mulG k) % c.n
  (r, invMod c.n k * (c.hashNum e + r * d) % c.n)

/-- An ECDSA signature verifies; r and s lie in [1, n - 1] (R320). -/
def CurveRec.verify (c : CurveRec) (x y r s : Nat) (e : Bytes) : Bool :=
  let w := invMod c.n s
  let q := c.add (c.mulG (c.hashNum e * w % c.n)) (c.mul (c.n.log2 + 1) (r * w % c.n) (some (x, y)))
  1 ≤ r && r < c.n && 1 ≤ s && s < c.n && !c.identity q && pointX q % c.n == r

/-- The shared point of a cofactor ECDH (R312, R320). -/
def CurveRec.shared (c : CurveRec) (d x y : Nat) : Option (Nat × Nat) := c.mul ((c.h * d).log2 + 1) (c.h * d) (some (x, y))

/-! ## Edwards points (R320, RFC 8032) -/

/-- The u-coordinate of X25519 or X448 with the unused top bits cleared, and the field prime. -/
def xdhU (v : Nat) (src : Bytes) : Nat := if v == 0x18 then leNat src % 2 ^ 255 else leNat src
def xdhP (v : Nat) : Nat := if v == 0x18 then 2 ^ 255 - 19 else 2 ^ 448 - 2 ^ 224 - 1

/-- Bytes of an encoded point, the field prime, the order of the base point, and the constant d, of variant 0x10 or 0x11. -/
def edLen (v : Nat) : Nat := if v == 0x10 then 32 else 57
def edP (v : Nat) : Nat := xdhP (v + 8)
def edOrder (v : Nat) : Nat :=
  if v == 0x10 then 2 ^ 252 + 27742317777372353535851937790883648493
  else 2 ^ 446 - 13818066809895115352007386748515426880336692474882178609894547503885
def edD (v : Nat) : Nat :=
  if v == 0x10 then subMod (edP v) 0 (121665 * invMod (edP v) 121666) else edP v - 39081
/-- The y an encoding holds, and its sign bit. -/
def edY (v : Nat) (x : Bytes) : Nat := leNat x % 2 ^ (8 * edLen v - 1)
def edSign (v : Nat) (x : Bytes) : Bool := leNat x / 2 ^ (8 * edLen v - 1) % 2 == 1
/-- No x exists for y, or x = 0 comes with the sign bit: x² is u / w. -/
def edNoPoint (v : Nat) (x : Bytes) : Bool :=
  let p := edP v
  let yy := edY v x * edY v x % p
  let u := subMod p yy 1
  let w := if v == 0x10 then (edD v * yy + 1) % p else subMod p (edD v * yy) 1
  let t := u * w % p
  (t != 0 && modExp t ((p - 1) / 2) p != 1) || (u == 0 && edSign v x)
/-- A point of small order: y is 0, 1 or -1 where the order divides 4, and d·y⁴ + 2·y² is 1 where it is 8. -/
def edSmall (v : Nat) (x : Bytes) : Bool :=
  let p := edP v
  let yy := edY v x * edY v x % p
  yy == 0 || yy == 1 || (v == 0x10 && (edD v * yy * yy + 2 * yy) % p == 1)
/-- R decodes canonically and S lies below the order (R320). -/
def edFormOk (v : Nat) (aux : Bytes) : Bool :=
  let r := slice aux (edLen v) (edLen v)
  edY v r < edP v && !edNoPoint v r && leNat (aux.drop (2 * edLen v)) < edOrder v

/-! ## Forms of lattice and hash-based signatures (R344) -/

/-- A 12-bit coefficient of an encapsulation key is not below 3,329 (R344). -/
def kemCoeffs : Bytes → Bool
  | x :: y :: z :: l => 3329 ≤ x.toNat + 256 * (y.toNat % 16) || 3329 ≤ y.toNat / 16 + 16 * z.toNat || kemCoeffs l
  | _ => false

/-- Strictly rising. -/
def rising : Bytes → Bool
  | x :: y :: l => x.toNat < y.toNat && rising (y :: l)
  | _ => true
/-- The hint of an ML-DSA signature is well formed: ends that never fall, indices rising within each part, zeros after the last. -/
def hintOk (h : Bytes) (omega : Nat) : List Byte → Nat → Bool
  | [], at' => allZero (slice h at' (omega - at'))
  | e :: l, at' => at' ≤ e.toNat && e.toNat ≤ omega && rising (slice h at' (e.toNat - at')) && hintOk h omega l e.toNat
/-- Per set: bytes of the challenge, polynomials of z, bits of a coefficient, β, ω and k (FIPS 204). -/
def dsaShape (set : Nat) : Nat × Nat × Nat × Nat × Nat × Nat :=
  if set == 1 then (32, 4, 18, 78, 80, 4) else if set == 2 then (48, 5, 20, 196, 55, 6) else (64, 7, 20, 120, 75, 8)
/-- No malformed hint, and ‖z‖∞ below γ1 - β. -/
def dsaFormOk (set : Nat) (sig : Bytes) : Bool :=
  let (c, l, w, beta, omega, _) := dsaShape set
  let z := leNat (slice sig c (32 * l * w))
  let h := sig.drop (c + 32 * l * w)
  ((List.range (256 * l)).all fun i => let x := z / 2 ^ (w * i) % 2 ^ w; beta < x && x < 2 ^ w - beta)
    && hintOk h omega (h.drop omega) 0

/-- One LMS signature and public key carry the level's types, and q lies below 2^h (RFC 8554). -/
def lmsOneOk (codes : Bytes) (i : Nat) (pk sig : Bytes) : Bool :=
  let level := slice codes (8 * i) 8
  let n := lmsN (lmsType codes (2 * i))
  pk.take 8 == level && beNat (sig.take 4) < 2 ^ lmsH (lmsType codes (2 * i)) && slice sig 4 4 == level.drop 4
    && slice sig (8 + n * (otsP (lmsType codes (2 * i + 1)) + 1)) 4 == level.take 4
/-- An LMS or HSS verify block carries the types of `IV` and the level count of its variant. -/
def lmsFormOk (variant : Nat) (codes pk sig : Bytes) : Bool :=
  if variant == 1 then lmsOneOk codes 0 pk sig
  else
    let s1 := sig.drop 4
    let pk2 := s1.drop (lmsSig1 codes 0)
    pk.take 4 == toBe 4 (variant - 1) && sig.take 4 == toBe 4 (variant - 2) && lmsOneOk codes 0 (pk.drop 4) s1
      && (variant != 3 || lmsOneOk codes 1 pk2 (pk2.drop (24 + lmsN (lmsType codes 2))))

/-- The OID of a variant in a public key, and the height its index lies below (RFC 8391, SP 800-208). -/
def xmssOid (v : Nat) : Nat := if v ≤ 3 then v else v + 9
def xmssFormOk (v : Nat) (pk sig : Bytes) : Bool := beNat (pk.take 4) == xmssOid v && beNat (sig.take 4) < 2 ^ xmssH v

end Sys2Proof.Machine
end

