-- ==== Sys2Proof/Machine/Signing.lean ====
section
/-!
DEFINITION. The standards' functions of the public-key cores on whole keys and messages: X25519 and X448 (RFC 7748), EdDSA
(RFC 8032, FIPS 186-5), ECDSA P-384 and LMS or HSS verification of signed structures, message representatives of ML-DSA and
SLH-DSA, and the parts of a private key (R312 to R319, R331 to R339).
-/

namespace Sys2Proof.Machine

/-! ## X25519 and X448 (RFC 7748) -/

/-- The `n` low bits of `k`, highest first. -/
def bitsHigh (n k : Nat) : List Bool := ((List.range n).map fun i => k.testBit i).reverse

/-- A scalar with its fixed bits set. -/
def xdhScalar (v : Nat) (k : Bytes) : Nat :=
  if v == 0x18 then leNat k % 2 ^ 254 / 8 * 8 + 2 ^ 254 else leNat k % 2 ^ 447 / 4 * 4 + 2 ^ 447
def xdhLen (v : Nat) : Nat := if v == 0x18 then 32 else 56
def xdhA24 (v : Nat) : Nat := if v == 0x18 then 121665 else 39081
/-- The u-coordinate of the base point. -/
def xdhBase (v : Nat) : Bytes := toLe (xdhLen v) (if v == 0x18 then 9 else 5)

/-- Twice a point x : z. -/
def xzDouble (p a24 : Nat) (q : Nat × Nat) : Nat × Nat :=
  let aa := (q.1 + q.2) * (q.1 + q.2) % p
  let bb := subMod p q.1 q.2 * subMod p q.1 q.2 % p
  let e := subMod p aa bb
  (aa * bb % p, e * (aa + a24 * e) % p)
/-- The sum of two points whose difference has the u-coordinate `u`. -/
def xzAdd (p u : Nat) (q r : Nat × Nat) : Nat × Nat :=
  let da := subMod p r.1 r.2 * (q.1 + q.2) % p
  let cb := (r.1 + r.2) * subMod p q.1 q.2 % p
  ((da + cb) * (da + cb) % p, u * (subMod p da cb * subMod p da cb % p) % p)
/-- The Montgomery ladder over the bits of a scalar. -/
def ladder (p a24 u : Nat) : List Bool → (Nat × Nat) × (Nat × Nat) → Nat × Nat
  | [], t => t.1
  | bit :: l, t =>
    let s := xzAdd p u t.1 t.2
    ladder p a24 u l (if bit then (s, xzDouble p a24 t.2) else (xzDouble p a24 t.1, s))

/-- X25519 and X448 of a scalar and a u-coordinate. -/
def xdh (v : Nat) (k u : Bytes) : Bytes :=
  let p := xdhP v
  let x := xdhU v u % p
  let r := ladder p (xdhA24 v) x (bitsHigh (8 * xdhLen v) (xdhScalar v k)) ((1, 0), (x, 1))
  toLe (xdhLen v) (r.1 * invMod p r.2 % p)

/-! ## EdDSA -/

/-- The curve of variant 0x10 or 0x11. -/
def edCurve (v : Nat) : CurveRec :=
  if v == 0x10 then
    { form := 2, bits := 255, h := 8, p := edP v, a := edP v - 1, b := edD v, n := edOrder v
      gx := 15112221349535400772501151409588531511454012693041857206046113283949847762202
      gy := 46316835694926478169428394003475163141307993866256225615783033603165251855960 }
  else
    { form := 2, bits := 448, h := 4, p := edP v, a := 1, b := edD v, n := edOrder v
      gx := 224580040295924300187604334099896036246789641632564134246125461686950415467406032909029192869357953282578032075146446173674602635247710
      gy := 298819210078481492676017930443930673437544040154080242095928241372331506189835876003536878655418784733982303233503462500531545062832660 }

/-- An encoded point: y with the parity of x above it. -/
def edEncode (v : Nat) (q : Option (Nat × Nat)) : Bytes := toLe (edLen v) (pointY q + pointX q % 2 * 2 ^ (8 * edLen v - 1))

/-- A square root modulo the field prime, of a square. -/
def edRoot (v t : Nat) : Nat :=
  let p := edP v
  if v == 0x10 then let r := modExp t ((p + 3) / 8) p; if r * r % p == t then r else r * modExp 2 ((p - 1) / 4) p % p
  else modExp t ((p + 1) / 4) p
/-- The point an encoding names, when it names one. -/
def edDecode (v : Nat) (x : Bytes) : Nat × Nat :=
  let p := edP v
  let yy := edY v x * edY v x % p
  let w := if v == 0x10 then (edD v * yy + 1) % p else subMod p (edD v * yy) 1
  let r := edRoot v (subMod p yy 1 * invMod p w % p)
  (if (r % 2 == 1) == edSign v x then r else subMod p 0 r, edY v x)

/-- SHA-512 for Ed25519; SHAKE256 of 114 bytes for Ed448, whose messages follow dom4 with an empty context. -/
def edHash (v : Nat) (x : Bytes) : Bytes := if v == 0x10 then hashOf 4 x 64 else hashOf 0x22 x 114
def edDom (v : Nat) : Bytes := if v == 0x10 then [] else ascii "SigEd448" ++ [0, 0]
/-- The secret scalar and the prefix of a seed. -/
def edScalar (v : Nat) (seed : Bytes) : Nat := xdhScalar (v + 8) ((edHash v seed).take (xdhLen (v + 8)))
def edPrefix (v : Nat) (seed : Bytes) : Bytes := slice (edHash v seed) (edLen v) (edLen v)
/-- The public key of a seed (R319). -/
def edPublic (v : Nat) (seed : Bytes) : Bytes := edEncode v ((edCurve v).mulG (edScalar v seed))
/-- The challenge over R, A and the message. -/
def edChallenge (v : Nat) (r a msg : Bytes) : Nat := leNat (edHash v (edDom v ++ r ++ a ++ msg)) % edOrder v
/-- A signature R then S; A is derived from the seed (R319). -/
def edSignature (v : Nat) (seed msg : Bytes) : Bytes :=
  let k := leNat (edHash v (edDom v ++ edPrefix v seed ++ msg)) % edOrder v
  let r := edEncode v ((edCurve v).mulG k)
  r ++ toLe (edLen v) ((k + edChallenge v r (edPublic v seed) msg * edScalar v seed) % edOrder v)
/-- A signature verifies by the cofactored equation of FIPS 186-5. -/
def edVerify (v : Nat) (a sig msg : Bytes) : Bool :=
  let c := edCurve v
  let r := sig.take (edLen v)
  let left := c.mulG (c.h * leNat (sig.drop (edLen v)))
  let k := edChallenge v r a msg
  let times := fun (n : Nat) (q : Nat × Nat) => c.mul (n.log2 + 1) n (some q)
  edFormOk v (a ++ sig) && left == c.add (times c.h (edDecode v r)) (times (c.h * k) (edDecode v a))

/-! ## Signed structures (R182, R299, R440) -/

/-- An ECDSA P-384 signature r then s, with SHA-384, under a public key x then y. -/
def p384Verifies (pub msg sig : Bytes) : Bool :=
  let c := nistCurve 2
  let x := beNat (pub.take 48)
  let y := beNat (slice pub 48 48)
  x < c.p && y < c.p && c.on x y && c.verify x y (beNat (sig.take 48)) (beNat (slice sig 48 48)) (hashOf 3 msg 48)

/-- The `LMS_VERIFY` variant of a public key: an LMS type comes first, or the level count of an HSS key; 0 for neither. -/
def lmsForm (pub : Bytes) : Nat :=
  let n := beNat (pub.take 4)
  if lmsTypeOk n then 1 else if n == 1 || n == 2 then n + 1 else 0
/-- The four type codes a public key and its signature carry. -/
def lmsFound (pub sig : Bytes) : Bytes :=
  let one := if lmsForm pub == 1 then pub.take 8 else slice pub 4 8
  fit 16 (if lmsForm pub == 3 then one ++ slice sig (4 + lmsSig1 one 0) 8 else one)
/-- An LMS signature, or an HSS one of at most two levels, with SHA-256/192 or SHA-256, under a zero-padded public key (R299). -/
def lmsVerifies (pub msg sig : Bytes) : Bool :=
  let v := lmsForm pub
  let codes := lmsFound pub sig
  let n := lmsPk v codes
  v != 0 && lmsTypesOk v codes && sig.length == lmsSig v codes && allZero (pub.drop n) && lmsFormOk v codes (pub.take n) sig
    && Config.pkVerify 0x5A v (pub.take n) msg sig

/-! ## Messages of ML-DSA and SLH-DSA (R331, R334, R339) -/

/-- M′ of the pure forms: ctx is the first `n` bytes of the source. -/
def pureMessage (n : Nat) (src : Bytes) : Bytes := [0] ++ toLe 1 n ++ src
/-- The message representative of FIPS 204 under a public key. -/
def dsaMu (pk m : Bytes) : Bytes := hashOf 0x22 (hashOf 0x22 pk 64 ++ m) 64
/-- μ of a job: the source itself with EXTERNAL_MU. -/
def jobMu (d : Desc) (pk src : Bytes) : Bytes :=
  if 128 ≤ d.variant.toNat then src else dsaMu pk (pureMessage d.aLen src)

/-! ## Private keys and their public parts (R313, R314, R318, R332, R333) -/

/-- The variant of a built-in NIST curve's key size. -/
def nistOf (size : Nat) : Nat := if size == 256 then 1 else if size == 384 then 2 else 3

/-- Length of a key's private part: an import carries it, a generation draws it. -/
def privateLen (b : Block) (alg size : Nat) : Option Nat :=
  match alg with
  | 0x10 => if size == 256 then some 32 else if size == 384 then some 48 else if size == 521 then some 66 else none
  | 0x11 => if size == 255 then some 32 else none
  | 0x12 => if size == 448 then some 57 else none
  | 0x13 => if size == 255 then some 32 else none
  | 0x14 => if size == 448 then some 56 else none
  | 0x15 => (curveOfTag b size).map curveN
  | 0x20 => (materialLen b alg size).map fun _ => 64
  | 0x21 => (materialLen b alg size).map fun _ => 32
  | 0x23 => (materialLen b alg size).map fun n => n / 4 * 3
  | _ => materialLen b alg size

/-- The public part of a private key; that of a lattice or hash-based key is the standard's. -/
def publicPart (b : Block) (alg size : Nat) (m : Bytes) : Bytes :=
  match alg with
  | 0x10 => (nistCurve (nistOf size)).publicPart m.length (beNat m)
  | 0x11 => edPublic 0x10 m
  | 0x12 => edPublic 0x11 m
  | 0x13 => xdh 0x18 m (xdhBase 0x18)
  | 0x14 => xdh 0x19 m (xdhBase 0x19)
  | 0x15 => (curveOfTag b size).elim [] fun c => (parseCurve c.record).publicPart (curveL c) (beNat m)
  | 0x20 | 0x21 | 0x23 => Config.pkPublic alg size m
  | _ => []

/-- The whole material: a key pair's private part followed by its public part. -/
def wholeMaterial (b : Block) (alg size : Nat) (m : Bytes) : Bytes :=
  m ++ fit ((materialLen b alg size).getD 0 - m.length) (publicPart b alg size m)

/-- The private material of a generated key, from the DRBG: a number in range for a curve (R319). -/
def genMaterial (b : Block) (alg size : Nat) : Bytes :=
  let n := (privateLen b alg size).getD 0
  let num := fun (c : CurveRec) => toBe n (c.fromDraw (drbgNow b c.drawLen))
  match alg with
  | 0x10 => num (nistCurve (nistOf size))
  | 0x15 => (curveOfTag b size).elim [] fun c => num (parseCurve c.record)
  | _ => drbgNow b n

/-! ## The device's own key pairs (R154, R156, R182, R194) -/

/-- The P-384 scalar and the ML-DSA-65 seed of the identity material. -/
def identityScalar (m : Bytes) : Nat := (nistCurve 2).fromDraw (m.take 56)
def identitySeed (m : Bytes) : Bytes := slice m 56 32
/-- The two identity public keys. -/
def identityKeys (m : Bytes) : Bytes :=
  (nistCurve 2).publicPart 48 (identityScalar m) ++ fit 1952 (Config.pkPublic 0x21 65 (identitySeed m))
/-- ES384 over a message with the per-message secret from `x`. -/
def identityEs384 (m msg x : Bytes) : Bytes :=
  let t := (nistCurve 2).sign (identityScalar m) ((nistCurve 2).fromDraw x) (hashOf 3 msg 48)
  toBe 48 t.1 ++ toBe 48 t.2
/-- ML-DSA-65 over a message, with an empty context. -/
def identityMlDsa (m msg rnd : Bytes) : Bytes :=
  fit 3309 (Config.mldsaSign 2 (identitySeed m) (dsaMu (fit 1952 (Config.pkPublic 0x21 65 (identitySeed m))) (pureMessage 0 msg)) rnd)

/-- S1 then S2 of an update message under the transport material. -/
def updateSecrets (m kemCt ephemeral : Bytes) : Bytes :=
  fit 32 (Config.mlkemDecaps 2 (m.take 64) kemCt) ++ xdh 0x18 (slice m 64 32) ephemeral

end Sys2Proof.Machine
end

