-- ==== Sys2Proof/Machine/PublicKey.lean ====
section
/-!
DEFINITION. The public-key cores (09) and the lattice and hash-based operations (10): edge inputs, the check
pass, key generation, leaf values, and one meaning per opcode.
-/

namespace Sys2Proof.Machine

/-! ## Edge inputs (R320, R344) -/

/-- Conditions on a peer point. -/
def pointConds (b : Block) (v : Nat) (q : Bytes) : List Status :=
  let l := (curveLens b v).1
  let c := curveOf b v
  let x := beNat (q.take l)
  let y := beNat (slice q l l)
  if x == 0 && y == 0 then [.inputZero]
  else if c.p ≤ x || c.p ≤ y then [.inputNotReduced]
  else cond (!c.on x y) .pointNotOnCurve

/-- A public key on a loaded curve whose cofactor exceeds 1: n·Q is not the point at infinity. -/
def subgroupConds (b : Block) (v : Nat) (q : Bytes) : List Status :=
  let l := (curveLens b v).1
  let c := curveOf b v
  cond (1 < c.h && !c.identity (c.mul (c.n.log2 + 1) c.n (some (beNat (q.take l), beNat (slice q l l))))) .pointNotOnCurve

/-- The private number of a stored key on a NIST or loaded curve (R313). -/
def keyScalar (b : Block) (v : Nat) (key : Bytes) : Nat :=
  beNat (key.take (if (curveSlot v).isSome then (curveLens b v).2 else (curveLens b v).1))
/-- Conditions on it. -/
def scalarConds (b : Block) (v : Nat) (key : Bytes) : List Status :=
  cond (keyScalar b v key == 0) .inputZero ++ cond ((curveOf b v).n ≤ keyScalar b v key) .inputNotReduced

/-- The shared point of an ECDH. -/
def sharedPoint (b : Block) (v : Nat) (key q : Bytes) : Option (Nat × Nat) :=
  let l := (curveLens b v).1
  (curveOf b v).shared (keyScalar b v key) (beNat (q.take l)) (beNat (slice q l l))

/-- Conditions on a modulus of `k` bytes, an operand, and an exponent (R320). -/
def modulusConds (k n : Nat) : List Status := cond (n % 2 == 0 || n < 2 ^ (8 * (k - 8))) .inputNotReduced
def operandConds (m n : Nat) : List Status := cond (m == 0) .inputZero ++ cond (n ≤ m) .inputNotReduced

/-- RSA CRT components of a key of modulus length `k` (R313): e, p, q, d_p, d_q, q_inv. -/
def rsaPart (key : Bytes) (k i : Nat) : Nat := beNat (slice key (8 + i * (k / 2)) (k / 2))

/-- Every edge condition of a job (R320, R344). What asks for a point of an input asks it of inputs that are points. -/
def pkConds (b : Block) (j : Job) : List Status :=
  let d := j.desc
  let v := d.variant.toNat
  let src := haveSrc j
  let key := keyAt j 0
  let k := 8 * v
  let n := beNat (src.take k)
  match d.op with
  | 0x41 => scalarConds b v key
  | 0x42 => pointConds b v src ++ subgroupConds b v src
  | 0x43 =>
    let bad := pointConds b v src
    scalarConds b v key ++ bad ++ cond (bad == [] && (curveOf b v).identity (sharedPoint b v key src)) .inputZero
  | 0x45 =>
    let x := j.aux.bytes.take (edLen v)
    let bad := cond (edP v ≤ edY v x) .inputNotReduced ++ cond (edNoPoint v x) .pointNotOnCurve
    bad ++ cond (bad == [] && edSmall v x) .inputZero
  | 0x46 => cond (allZero (key.take (if v == 0x18 then 32 else 56))) .inputZero ++ cond (xdhU v src == 0) .inputZero
      ++ cond (xdhP v ≤ xdhU v src) .inputNotReduced ++ cond (allZero (xdh v (key.take (xdhLen v)) src)) .inputZero
  | 0x48 => cond ([0, 1, 2, 3, 4].any fun i => rsaPart key k i == 0) .inputZero
      ++ operandConds (beNat src) (rsaPart key k 0 * rsaPart key k 1)
  | 0x49 => modulusConds k n ++ operandConds (beNat (slice src k k)) n
      ++ cond (beNat (src.drop (2 * k)) % 2 == 0 || beNat (src.drop (2 * k)) < 3) .inputNotReduced
  | 0x4A => modulusConds k n ++ operandConds (beNat (slice src k k)) n ++ cond (beNat (src.drop (2 * k)) == 0) .inputZero
  | 0x4B => modulusConds k n ++ operandConds (beNat (slice src k k)) n ++ operandConds (beNat (slice src (2 * k) k)) n
  | 0x51 => cond (kemCoeffs (src.take (384 * (v + 1)))) .inputNotReduced
  | _ => []

/-! ## Inputs in pieces, ends -/

/-- What of a long string a core's region holds last: it passes through in pieces of 4 KiB (R295). -/
def lastPiece (x : Bytes) : Bytes := if x.length ≤ 8192 then x else x.drop ((x.length - 1) / 4096 * 4096)

/-- The bytes of a job's source and of its second input that have arrived without a gap. -/
def haveAux (j : Job) : Bytes := contigFrom 0 j.aux.parts

/-- A piece has gone through P and the next one is to be read: `have` of `want` bytes are there and none is on its way. -/
def pieceDue (b : Block) (o : Owner) (want have' : Nat) : Bool :=
  8192 < want && have' < want && 0 < have' && have' % 4096 == 0
    && !((b.dp0.waiting ++ b.dp1.waiting).any fun r => r.owner == o) && !((b.dp0.out ++ b.dp1.out).any fun g => g.req.owner == o)

/-- A running core reads the next piece of an input longer than region P (R295). -/
def nextPieces (i : Nat) (b : Block) : Block :=
  match b.job i with
  | none => b
  | some j =>
    if j.stage != .running || j.desc.op < 0x40 || (j.src.full && j.aux.full) then b
    else
      let src := (haveSrc j).length
      let aux := (haveAux j).length
      let b1 := when (!j.src.full && pieceDue b (.src i) j.desc.sLen src) (offer j.port (srcReads (.src i) j b src)) b
      when (!j.aux.full && pieceDue b (.aux i) j.aux.want aux) (offer j.port (auxReads i j b aux)) b1

/-- A command of a core opcode: its next pieces are read; `f` runs once every input has arrived. -/
def onCore (op i : Nat) (f : Job → Block → Block) (b : Block) : Block := onReady op i f (nextPieces i b)

/-- The job's core, changed. -/
def modJobCore (j : Job) (f : Core → Core) (b : Block) : Block :=
  match j.engine with
  | some (.core c) => modCore c.val f b
  | _ => b
/-- A core's region P holds the job's public inputs, Q the values it writes (R294, R296). -/
def coreTake (j : Job) (b : Block) : Block := modJobCore j (fun x => { x with regionP := lastPiece (haveSrc j ++ j.aux.bytes) }) b
def coreKeep (j : Job) (q : Bytes) (b : Block) : Block := modJobCore j (fun x => { x with regionQ := lastPiece q }) (coreTake j b)

/-- An error of the run stage found by the core: the output area is zero (R307). -/
def pkReject (i : Nat) (j : Job) (st : Status) (rounds : Nat) (b : Block) : Block :=
  let z := if usesDst j.desc.op then zeros (jobOutLen b j) else []
  finish i z [] { status := st, rounds := BitVec.ofNat 16 rounds } (if z == [] then coreTake j b else coreKeep j z b)

/-- A core's number. -/
def coreNum (j : Job) : Nat := match j.engine with | some (.core c) => c.val | _ => 0

/-- A failed check: DOUBLE_FAULT, output zero, regions zeroed, PK_CHECK_FAILED, and DECISION_SPLIT when the two outcomes
differ (R322, R349). -/
def pkCheckFail (i : Nat) (j : Job) (t : Take) (b : Block) : Block :=
  let b1 := raise evPkCheckFailed (toLe 1 (coreNum j))
    (modCore (coreNum j) (fun x => { x with checkFails := satAdd 32 x.checkFails 1, regionS := [], regionP := [], regionQ := [] }) b)
  runError i .doubleFault (if t = .split then raise evDecisionSplit [] b1 else b1)

/-- Run `f` when no edge condition holds; the lowest one ends the job otherwise. -/
def pkGuard (i : Nat) (j : Job) (f : Block → Block) (b : Block) : Block :=
  match lowest (pkConds b j) with
  | some st => pkReject i j st 0 b
  | none => f b

/-- A signature verifies: the ranges and forms that R320 and R344 name, and the verification of the standard. -/
def pkAccepts (b : Block) (j : Job) : Bool :=
  let d := j.desc
  let v := d.variant.toNat
  let src := haveSrc j
  let aux := j.aux.bytes
  let std := fun (n : Nat) (msg : Bytes) => Config.pkVerify d.op v (aux.take n) msg (aux.drop n)
  match d.op with
  | 0x42 =>
    let l := (curveLens b v).1
    let n := (curveLens b v).2
    (curveOf b v).verify (beNat (src.take l)) (beNat (slice src l l)) (beNat (slice src (2 * l) n)) (beNat (slice src (2 * l + n) n))
      (src.drop (2 * l + 2 * n))
  | 0x45 => edVerify v (aux.take (edLen v)) (aux.drop (edLen v)) src
  | 0x56 =>
    let n := dsaPk (dsaSet v)
    dsaFormOk (dsaSet v) (aux.drop n) && std n (jobMu d (aux.take n) src)
  | 0x5A => let n := lmsPk v d.iv; lmsFormOk v d.iv (aux.take n) (aux.drop n) && std n src
  | 0x5B => xmssFormOk v (aux.take (xmssPk v)) (aux.drop (xmssPk v)) && std (xmssPk v) src
  | 0x5D => std (slhPk v) (pureMessage d.aLen src)
  | _ => false

/-- A verify operation (R96, R320, R344): it writes nothing through Q. A verdict pair of the core that is neither of the two fails the
check, with its event (R97). -/
def runVerify (pairSound : Bool) (i : Nat) (j : Job) (b : Block) : Block :=
  pkGuard i j (fun b => drain i (checked (pairSound && pkAccepts b j) .signatureInvalid 0)
    (verdictEvent (if pairSound then .sound else .invalid) (coreTake j b))) b

/-- A result written to the destination. -/
def pkWrite (i : Nat) (j : Job) (out : Bytes) (b : Block) : Block :=
  let n := jobOutLen b j
  finish i (fit n out) [] (doneWith n) (coreKeep j (fit n out) b)

/-- The random values that blind a private-key operation are drawn: the 64-bit multiplier of a scalar or an exponent, and what
randomises coordinates or the RSA input (R297). No result depends on them. -/
def blinded (b : Block) : Block := drew b

/-! ## Signatures and agreement on curves -/

/-- A signature: r then s of ECDSA with k drawn now (R319), or EdDSA's, a function of seed and message. -/
def signatureOf (b : Block) (j : Job) : Bytes :=
  let v := j.desc.variant.toNat
  let c := curveOf b v
  let n := (curveLens b v).2
  if j.desc.op == 0x44 then edSignature v ((keyAt j 0).take (edLen v)) (haveSrc j)
  else let t := c.sign (keyScalar b v (keyAt j 0)) (c.fromDraw (drbgNow b c.drawLen)) (haveSrc j); toBe n t.1 ++ toBe n t.2

/-- The verification of the check pass: of ECDSA against e and the stored Q, of EdDSA against the message and the stored A (R321). -/
def signatureChecks (b : Block) (j : Job) (sig : Bytes) : Bool :=
  let v := j.desc.variant.toNat
  let l := (curveLens b v).1
  let n := (curveLens b v).2
  let pub := (keyAt j 0).drop (if (curveSlot v).isSome then n else l)
  if j.desc.op == 0x44 then edVerify v ((keyAt j 0).drop (edLen v)) sig (haveSrc j)
  else (curveOf b v).verify (beNat (pub.take l)) (beNat (pub.drop l)) (beNat (sig.take n)) (beNat (sig.drop n)) (haveSrc j)

/-- The check pass lets a result go: none was asked for, or its computation `ok` held, no datapath fault spoiled it (`pass`), and
its two outcomes agree (R321, R322). -/
def checkHolds (j : Job) (ok pass : Bool) (t : Take) : Bool := !j.desc.checkPass || (ok && pass && t == .agree)

/-- Both numbers of an ECDSA signature are there (R319). -/
def halvesSet (j : Job) (sig : Bytes) : Bool :=
  j.desc.op != 0x41 || !(allZero (sig.take (sig.length / 2)) || allZero (sig.drop (sig.length / 2)))

/-- A signature, with the check pass where the descriptor asks for it (R319, R321, R322). -/
def runSign (pass : Bool) (t : Take) (i : Nat) (j : Job) (b : Block) : Block :=
  pkGuard i j (fun b =>
    let sig := signatureOf b j
    let b1 := blinded (when (j.desc.op == 0x41) drew b)
    if !halvesSet j sig then pkReject i j .inputZero 0 b1
    else if !checkHolds j (signatureChecks b j sig) pass t then pkCheckFail i j t b1
    else pkWrite i j sig b1) b

/-- A generated key pair: the whole material, whose public part is written after the result record (R318, R333). -/
def runKeygen (i : Nat) (j : Job) (b : Block) : Block :=
  match j.newKey with
  | none => b
  | some k =>
    let m := wholeMaterial b k.alg k.size (genMaterial b k.alg k.size)
    when (!anyHold b) (fun b => installWith (coreKeep j) i j (insideKey b j (newRecord k)) m
      (m.drop ((privateLen b k.alg k.size).getD 0)) (blinded (drew b))) b

/-- A shared secret: written at the destination, or installed as a key once no island holds (R318, R338, R485); `d` is the block
once the core has drawn. -/
def runSecret (i : Nat) (j : Job) (secret pre : Bytes) (d b : Block) : Block :=
  match j.newKey with
  | none => pkWrite i j (pre ++ secret) d
  | some k =>
    let a := if j.desc.op == 0x51 then insideKey d j (newRecord k) else childOf d j (newRecord k)
    if anyHold b then b else installWith (coreKeep j) i j a secret pre d

/-- The shared secret of ECDH, the x-coordinate of the shared point, or of XDH (R312, R315). -/
def agreed (b : Block) (j : Job) : Bytes :=
  let v := j.desc.variant.toNat
  if j.desc.op == 0x46 then xdh v ((keyAt j 0).take (xdhLen v)) (haveSrc j)
  else toBe (curveLens b v).1 (pointX (sharedPoint b v (keyAt j 0) (haveSrc j)))

/-- ECDH and XDH; an XDH whose shared secret is all zero has ended with INPUT_ZERO (R320). -/
def runAgree (i : Nat) (j : Job) (b : Block) : Block := pkGuard i j (fun b => runSecret i j (agreed b j) [] (blinded b) b) b

/-! ## RSA and modular arithmetic -/

/-- RSA_PRIVATE in CRT form (R297, R313): the output is the input to the private exponent. -/
def rsaPrivate (key src : Bytes) (k : Nat) : Nat :=
  let p := rsaPart key k 0
  let q := rsaPart key k 1
  let m1 := modExp (beNat src) (rsaPart key k 2) p
  let m2 := modExp (beNat src) (rsaPart key k 3) q
  m2 + q * ((rsaPart key k 4 * ((m1 + p - m2 % p) % p)) % p)
/-- The output to the power e modulo p × q is the input (R321). -/
def rsaChecks (key src : Bytes) (k : Nat) : Bool :=
  modExp (rsaPrivate key src k) (beNat (key.take 8)) (rsaPart key k 0 * rsaPart key k 1) == beNat src
def runRsaPrivate (pass : Bool) (t : Take) (i : Nat) (j : Job) (b : Block) : Block :=
  pkGuard i j (fun b =>
    let k := 8 * j.desc.variant.toNat
    if !checkHolds j (rsaChecks (keyAt j 0) (haveSrc j) k) pass t then pkCheckFail i j t (blinded b)
    else pkWrite i j (toBe k (rsaPrivate (keyAt j 0) (haveSrc j) k)) (blinded b)) b

/-- RSA_PUBLIC, MODEXP: `n ‖ base ‖ exponent` (R315, R316). -/
def runModexp (i : Nat) (j : Job) (b : Block) : Block :=
  pkGuard i j (fun b =>
    let k := 8 * j.desc.variant.toNat
    let s := haveSrc j
    pkWrite i j (toBe k (modExp (beNat (slice s k k)) (beNat (s.drop (2 * k))) (beNat (s.take k)))) b) b
/-- MODMUL: `n ‖ a ‖ b`. -/
def runModmul (i : Nat) (j : Job) (b : Block) : Block :=
  pkGuard i j (fun b =>
    let k := 8 * j.desc.variant.toNat
    let s := haveSrc j
    pkWrite i j (toBe k (beNat (slice s k k) * beNat (slice s (2 * k) k) % beNat (s.take k))) b) b

/-- An opcode that needs randomness, for its blinding, its draws or the masks of a new key, on a job whose inputs have arrived
(R297, R488). -/
def pkReady (op i : Nat) (f : Job → Block → Block) (b : Block) : Block := onCore op i (fun j => withRandom i (f j)) b

/-- EC_KEYGEN. -/
def execEcKeygen (job : JobId) (s : State) := updReady s (pkReady 0x40 job.val (runKeygen job.val))
/-- ECDSA_SIGN. -/
def execEcdsaSign (job : JobId) (pass : Bool) (t : Take) (s : State) := updReady s (pkReady 0x41 job.val (runSign pass t job.val))
/-- ECDSA_VERIFY. -/
def execEcdsaVerify (check : Verifying) (s : State) := updReady s (onCore 0x42 check.job.val (runVerify check.pairSound check.job.val))
/-- ECDH. -/
def execEcdh (job : JobId) (s : State) := updReady s (pkReady 0x43 job.val (runAgree job.val))
/-- EDDSA_SIGN. -/
def execEddsaSign (job : JobId) (pass : Bool) (t : Take) (s : State) := updReady s (pkReady 0x44 job.val (runSign pass t job.val))
/-- EDDSA_VERIFY. -/
def execEddsaVerify (check : Verifying) (s : State) := updReady s (onCore 0x45 check.job.val (runVerify check.pairSound check.job.val))
/-- XDH. -/
def execXdh (job : JobId) (s : State) := updReady s (pkReady 0x46 job.val (runAgree job.val))
/-- RSA_PRIVATE. -/
def execRsaPrivate (job : JobId) (pass : Bool) (t : Take) (s : State) := updReady s (pkReady 0x48 job.val (runRsaPrivate pass t job.val))
/-- RSA_PUBLIC. -/
def execRsaPublic (job : JobId) (s : State) := updReady s (onCore 0x49 job.val (runModexp job.val))
/-- MODEXP. -/
def execModexp (job : JobId) (s : State) := updReady s (onCore 0x4A job.val (runModexp job.val))
/-- MODMUL. -/
def execModmul (job : JobId) (s : State) := updReady s (onCore 0x4B job.val (runModmul job.val))

/-! ## ML-KEM, ML-DSA, SLH-DSA -/

/-- MLKEM_ENCAPS: c and K, from an m of 32 bytes drawn now (R337, R338). -/
def runEncaps (i : Nat) (j : Job) (b : Block) : Block :=
  pkGuard i j (fun b =>
    let n := kemC j.desc.variant.toNat
    let x := fit (32 + n) (Config.mlkemEncaps j.desc.variant.toNat (haveSrc j) (drbgNow b 32))
    runSecret i j (x.take 32) (x.drop 32) (drew b) b) b
/-- MLKEM_DECAPS: always a key (R337). -/
def runDecaps (i : Nat) (j : Job) (b : Block) : Block :=
  runSecret i j (fit 32 (Config.mlkemDecaps j.desc.variant.toNat ((keyAt j 0).take 64) (haveSrc j))) [] (blinded b) b

/-- Rounds of the signing loop of a job with rnd `x`; FIPS 204 begins with one (R340). -/
def dsaRounds (j : Job) (x : Bytes) : Nat :=
  let pk := (keyAt j 0).drop 32
  max 1 (Config.mldsaRounds (dsaSet j.desc.variant.toNat) pk (jobMu j.desc pk (haveSrc j)) x)
/-- Its signature. -/
def dsaSignature (j : Job) (x : Bytes) : Bytes :=
  Config.mldsaSign (dsaSet j.desc.variant.toNat) ((keyAt j 0).take 32) (jobMu j.desc ((keyAt j 0).drop 32) (haveSrc j)) x
/-- MLDSA_SIGN: rnd is 32 bytes drawn now; 1,000 rounds without an accepted signature end it with INPUT_ZERO (R339 to R341). -/
def runMldsaSign (i : Nat) (j : Job) (b : Block) : Block :=
  let x := drbgNow b 32
  let n := jobOutLen b j
  let out := fit n (dsaSignature j x)
  if 1000 < dsaRounds j x then pkReject i j .inputZero 1000 (drew b)
  else finish i out [] { bytesWritten := n, rounds := BitVec.ofNat 16 (dsaRounds j x) } (coreKeep j out (drew b))

/-- SLHDSA_SIGN of ctx and message, hedged with a random value drawn now (assumption 66). -/
def runSlhSign (i : Nat) (j : Job) (b : Block) : Block :=
  let v := j.desc.variant.toNat
  pkWrite i j (Config.slhSign v (keyAt j 0) (pureMessage j.desc.aLen (haveSrc j)) (drbgNow b (slhPk v / 2))) (drew b)

/-- MLKEM_KEYGEN. -/
def execMlkemKeygen (job : JobId) (s : State) := updReady s (pkReady 0x50 job.val (runKeygen job.val))
/-- MLKEM_ENCAPS. -/
def execMlkemEncaps (job : JobId) (s : State) := updReady s (pkReady 0x51 job.val (runEncaps job.val))
/-- MLKEM_DECAPS. -/
def execMlkemDecaps (job : JobId) (s : State) := updReady s (pkReady 0x52 job.val (runDecaps job.val))
/-- MLDSA_KEYGEN. -/
def execMldsaKeygen (job : JobId) (s : State) := updReady s (pkReady 0x54 job.val (runKeygen job.val))
/-- MLDSA_SIGN. -/
def execMldsaSign (job : JobId) (s : State) := updReady s (pkReady 0x55 job.val (runMldsaSign job.val))
/-- MLDSA_VERIFY. -/
def execMldsaVerify (check : Verifying) (s : State) := updReady s (onCore 0x56 check.job.val (runVerify check.pairSound check.job.val))
/-- LMS_VERIFY. -/
def execLmsVerify (check : Verifying) (s : State) := updReady s (onCore 0x5A check.job.val (runVerify check.pairSound check.job.val))
/-- XMSS_VERIFY. -/
def execXmssVerify (check : Verifying) (s : State) := updReady s (onCore 0x5B check.job.val (runVerify check.pairSound check.job.val))
/-- SLHDSA_SIGN. -/
def execSlhdsaSign (job : JobId) (s : State) := updReady s (pkReady 0x5C job.val (runSlhSign job.val))
/-- SLHDSA_VERIFY. -/
def execSlhdsaVerify (check : Verifying) (s : State) := updReady s (onCore 0x5D check.job.val (runVerify check.pairSound check.job.val))

/-! ## LMS and HSS (R345 to R351) -/

/-- Parts of an LMS key's material (R332). -/
def lmsSeed (m : Bytes) : Bytes := m.take 32
def lmsIdent (m : Bytes) : Bytes := slice m 32 16
def lmsCodes (m : Bytes) : Bytes := slice m 48 16
def lmsCell (m : Bytes) : Nat := field m 64 1
def lmsBase (m : Bytes) : Nat := field m 72 8
def lmsRootOf (m : Bytes) : Bytes := slice m 80 32
/-- Leaves of a key (R345). -/
def lmsLeaves (variant : Nat) (codes : Bytes) : Nat :=
  2 ^ (lmsH (lmsType codes 0) + (if variant == 3 then lmsH (lmsType codes 2) else 0))

def modCell (c : Nat) (f : LeafCell → LeafCell) (b : Block) : Block := modTack (fun t => { t with cells := t.cells.mod c f }) b

/-- Close a cell's open batch: its values are skipped (R345, R347). -/
def closeBatch (c : Nat) (b : Block) : Block :=
  modCell c (fun x => { x with skipped := satAdd 64 x.skipped (x.stop - x.next), next := x.stop }) b

/-- Ask the studbook on behalf of a leaf cell, one operation per cell at a time (R346). -/
def askLeaf (i c op arg : Nat) (b : Block) : Block :=
  let busy := b.sb.any (fun o => o.user == .leaf c) || b.sbQueue.any (fun o => o.user == .leaf c)
  modJob i (fun j => { j with leafWait := true }) (if busy then b else sbAsk { user := .leaf c, op, cell := c, arg } b)

/-- KEY_FP of a key (R195). -/
def keyFp (b : Block) (m : Bytes) : Bytes := kmac256 (barnKey b) m 8 (ascii "fp")
/-- The LMS or HSS public key of a key. -/
def lmsPublic (variant : Nat) (m : Bytes) : Bytes :=
  (if variant == 1 then [] else toBe 4 (variant - 1)) ++ (lmsCodes m).take 8 ++ lmsIdent m ++ (lmsRootOf m).take (lmsN (lmsType (lmsCodes m) 0))
/-- An empty lower region (R350). -/
def emptyRegion (codes : Bytes) : Bytes := fit (lmsRegion codes) (List.replicate 8 0xFF)
/-- The root of a tree; and its nodes of height 2 and more, node r zero-padded in the 32-byte entry r - 1, the root, node 1, in the first
(R350). -/
def treeRoot (types seed ident : Bytes) : Bytes := fit (lmsN (lmsType types 0)) (Config.lmsRoot types seed ident)
def treeNodes (types seed ident : Bytes) : Bytes :=
  let node := fun (r : Nat) => fit 32 (fit (lmsN (lmsType types 0)) (Config.lmsNode types seed ident r))
  fit 32 (treeRoot types seed ident) ++ (List.range (2 ^ (lmsH (lmsType types 0) - 1) - 2)).flatMap fun k => node (k + 2)
/-- The tree cache of a new key; it follows the 16 bytes of its header and fingerprint with the result record. -/
def treeCache (b : Block) (variant : Nat) (m rec : Bytes) : Bytes :=
  let codes := lmsCodes m
  [0x4D, 0x4C, 0x54, 0x43, 1, 0, 0, 0] ++ keyFp b m ++ fit 16 rec ++ fit 64 (lmsPublic variant m) ++ zeros 32
    ++ treeNodes (codes.take 8) (lmsSeed m) (lmsIdent m) ++ (if variant == 3 then emptyRegion codes ++ emptyRegion codes else [])

/-- The seed and identifier of lower tree j (R351), its public key, and the randomizer of its level-1 signature. -/
def lowerSeed (m : Bytes) (j : Nat) : Bytes := kmac256 (lmsSeed m) (toLe 8 j) 32 (ascii "hss seed")
def lowerIdent (m : Bytes) (j : Nat) : Bytes := kmac256 (lmsSeed m) (toLe 8 j) 16 (ascii "hss id")
def lowerC (m : Bytes) (j : Nat) : Bytes := kmac256 (lmsSeed m) (toLe 8 j) (lmsN (lmsType (lmsCodes m) 0)) (ascii "hss c")
def lowerTypes (m : Bytes) : Bytes := (lmsCodes m).drop 8
def lowerRoot (m : Bytes) (j : Nat) : Bytes := treeRoot (lowerTypes m) (lowerSeed m j) (lowerIdent m j)
/-- A level's public key without its HSS level count. -/
def treePublic (types ident root : Bytes) : Bytes := types ++ ident ++ root
/-- RTAG over a lower root (R350). -/
def regionTag (b : Block) (m : Bytes) (j : Nat) (root : Bytes) : Bytes :=
  kmac256 (barnKey b) (keyFp b m ++ toLe 8 j ++ root) 8 (ascii "lms region")

/-- One LMS signature (RFC 8554): leaf number, one-time signature with its type and randomizer, tree type, path. -/
def lmsOneSig (types seed ident c msg : Bytes) (leaf : Nat) (path : Bytes) : Bytes :=
  let n := lmsN (lmsType types 0)
  toBe 4 leaf ++ slice types 4 4 ++ c ++ fit (n * otsP (lmsType types 1)) (Config.otsSign types seed ident c msg leaf)
    ++ types.take 4 ++ fit (n * lmsH (lmsType types 0)) path
/-- The level-1 signature of lower tree j's public key, the same at every build (R351). -/
def lowerSig (m : Bytes) (j : Nat) : Bytes :=
  let types := (lmsCodes m).take 8
  lmsOneSig types (lmsSeed m) (lmsIdent m) (lowerC m j) (treePublic (lowerTypes m) (lowerIdent m j) (lowerRoot m j)) j
    (Config.lmsPath types (lmsSeed m) (lmsIdent m) j (lmsH (lmsType types 0)))
/-- Lower region j of a two-level key. -/
def lowerRegion (b : Block) (m : Bytes) (j : Nat) : Bytes :=
  toLe 8 j ++ regionTag b m j (lowerRoot m j) ++ zeros 48 ++ treeNodes (lowerTypes m) (lowerSeed m j) (lowerIdent m j)
    ++ fit (roundUp (lmsSig1 (lmsCodes m) 0) 16) (lowerSig m j)

/-- The material of a new key: seeds from the DRBG, BASE the cell's value, ROOT zero-padded (R332, R333, R345). -/
def lmsMaterial (b : Block) (d : Desc) (base : Nat) : Bytes :=
  let seed := drbgNow b 32
  let ident := fit 16 (Config.drbg (b.draws + 1) 16)
  seed ++ ident ++ d.iv ++ toLe 1 d.aLen ++ zeros 7 ++ toLe 8 base ++ fit 32 (treeRoot (d.iv.take 8) seed ident)

/-- LMS_KEYGEN variants 0x01 to 0x03: close the batch, read the cell, install the key, write the tree cache. -/
def runLmsNew (i : Nat) (j : Job) (b : Block) : Block :=
  let c := j.desc.aLen
  if j.leafFail then runError i .portError b
  else match j.leaf with
    | none => if j.leafWait then b else askLeaf i c 0 0 (closeBatch c b)
    | some base => match j.newKey, j.target with
      | some k, t :: _ => if anyHold b then b else
        let m := lmsMaterial b j.desc base
        let b1 := installKey i j (insideKey b j (newRecord k)) m (drew (drew b))
        let out := treeCache b1 j.desc.variant.toNat m (resultRecord b1 t)
        finish i (fit (jobOutLen b j) out) [] (doneWith (jobOutLen b j)) (coreKeep j out b1)
      | _, _ => b

/-- LMS_KEYGEN. -/
def runLmsKeygen (i : Nat) (j : Job) (b : Block) : Block :=
  let b := useSys 0 b
  if j.desc.variant == 0x04 then pkWrite i j (lowerRegion b (keyAt j 0) (field j.desc.iv 0 8)) b else runLmsNew i j b

/-- LMS_KEYGEN. -/
def execLmsKeygen (job : JobId) (s : State) := updReady s (pkReady 0x58 job.val (runLmsKeygen job.val))

/-- The tree cache header matches the key (R348, R350). -/
def cacheHeadOk (b : Block) (variant : Nat) (m h : Bytes) : Bool :=
  h.take 8 == [0x4D, 0x4C, 0x54, 0x43, 1, 0, 0, 0] && slice h 8 8 == keyFp b m && slice h 32 64 == fit 64 (lmsPublic variant m)
    && allZero (slice h 96 32)

/-- The path nodes of height 2 and more of a leaf in a tree whose nodes stand at `base` (R350). -/
def pathNodes (base h leaf : Nat) : List (Nat × Nat) :=
  (List.range (h - 2)).map fun t => (base + 32 * (((2 ^ h + leaf) / 2 ^ (t + 2) ^^^ 1) - 1), 32)
/-- Offsets in a tree cache that a signature with leaf q reads: the path, and for two levels the region's header, its stored root
and its level-1 signature before it (R350). -/
def pathReads (variant : Nat) (codes : Bytes) (q : Nat) : List (Nat × Nat) :=
  if variant != 3 then pathNodes 128 (lmsH (lmsType codes 0)) q
  else
    let h2 := lmsH (lmsType codes 2)
    let r := 128 + lmsUpper codes + (q / 2 ^ h2 % 2) * lmsRegion codes
    let s := r + 64 + 32 * (2 ^ (h2 - 1) - 1)
    (r, 64) :: (r + 64, 32) :: (s, roundUp (lmsSig1 codes 0) 16) :: pathNodes (r + 64) h2 (q % 2 ^ h2)

/-- Read the path for a value: each part at its place in the second buffer. -/
def askPath (i v : Nat) (j : Job) (l : List (Nat × Nat)) (b : Block) : Block :=
  let reqs := (l.foldl (fun (a : List Req × Nat) p =>
    (a.1 ++ (readReqs (.srcAgain i) (stallIdent b j.stall.val) (jobPrio j) (jobTurn j)
      (pieces (j.desc.aux + BitVec.ofNat 64 p.1) a.2 p.2)), a.2 + p.2)) ([], 0))
  offer j.port reqs.1 (modJob i (fun x => { x with leaf := some v, again := { want := reqs.2 } })
    (dropReqs (fun o => o == .srcAgain i) b))

/-- What `pathReads` has brought: the stored root of the tree that signs, the level-1 signature, and the path, `n` bytes of each
entry. -/
def readRoot (path : Bytes) : Bytes := slice path 64 32
def readSig (codes path : Bytes) : Bytes := slice path 96 (lmsSig1 codes 0)
def readPath (variant n : Nat) (codes path : Bytes) : Bytes :=
  (chunks 32 (path.drop (if variant == 3 then 96 + roundUp (lmsSig1 codes 0) 16 else 0))).flatMap fun x => x.take n

/-- The lower region does not serve leaf q: it holds another tree, or its tag over the root it stores fails (R348). -/
def regionBad (b : Block) (variant : Nat) (m : Bytes) (q : Nat) (path : Bytes) : Bool :=
  let jj := q / 2 ^ lmsH (lmsType (lmsCodes m) 2)
  let n := lmsN (lmsType (lmsCodes m) 2)
  variant == 3 && (field path 0 8 != jj || slice path 8 8 != regionTag b m jj ((readRoot path).take n))

/-- The value is taken: events of the last and the low leaves (R346, R348). -/
def takeLeaf (c q leaves : Nat) (root : Bytes) (b : Block) : Block :=
  let left := leaves - (q + 1)
  let low := left < 65536 && !((b.tack.cells.get c).lowRaised.contains root)
  let b1 := modCell c (fun x => { x with next := x.next + 1, queue := x.queue.drop 1, lowRaised := if low then x.lowRaised ++ [root] else x.lowRaised }) b
  let b2 := when low (raise evLeavesLow []) b1
  when (left == 0) (raise evLeavesExhausted []) b2

/-- The tree that signs leaf q of a key: its types, SEED, I, the leaf in it, and the root the check compares with. -/
structure SignTree where
  types : Bytes
  seed : Bytes
  ident : Bytes
  leaf : Nat
  root : Bytes
def signTree (variant : Nat) (m : Bytes) (q : Nat) (path : Bytes) : SignTree :=
  if variant == 3 then
    let h2 := lmsH (lmsType (lmsCodes m) 2)
    { types := lowerTypes m, seed := lowerSeed m (q / 2 ^ h2), ident := lowerIdent m (q / 2 ^ h2), leaf := q % 2 ^ h2, root := readRoot path }
  else { types := (lmsCodes m).take 8, seed := lmsSeed m, ident := lmsIdent m, leaf := q, root := lmsRootOf m }

/-- The path of the leaf: the two lowest nodes computed, the others from the cache. -/
def signPath (variant : Nat) (m : Bytes) (x : SignTree) (path : Bytes) : Bytes :=
  let n := lmsN (lmsType x.types 0)
  fit (2 * n) (Config.lmsPath x.types x.seed x.ident x.leaf 2) ++ readPath variant n (lmsCodes m) path

/-- The signature of a message by leaf q with randomizer `c`: HSS puts the level count before it, and for two levels the level-1
signature and the lower public key (R336). -/
def lmsSignature (variant : Nat) (m msg c : Bytes) (q : Nat) (path : Bytes) : Bytes :=
  let x := signTree variant m q path
  let n := lmsN (lmsType x.types 0)
  (if variant == 1 then [] else toBe 4 (variant - 2))
    ++ (if variant == 3 then readSig (lmsCodes m) path ++ treePublic x.types x.ident (x.root.take n) else [])
    ++ lmsOneSig x.types x.seed x.ident c msg x.leaf (signPath variant m x path)

/-- The root found from the leaf and its path is the expected one (R349). -/
def lmsChecks (variant : Nat) (m : Bytes) (q : Nat) (path : Bytes) : Bool :=
  let x := signTree variant m q path
  let n := lmsN (lmsType x.types 0)
  fit n (Config.lmsRootFrom x.types x.seed x.ident (signPath variant m x path) x.leaf) == x.root.take n

/-- The signature with value v, once its path has arrived (R347 to R349). -/
def lmsSignWith (t : Take) (i v : Nat) (j : Job) (m : Bytes) (b : Block) : Block :=
  let variant := j.desc.variant.toNat
  let q := v - lmsBase m
  let path := j.again.bytes
  if regionBad b variant m q path then pkReject i j .stateExhausted 0 b
  else
    let b1 := takeLeaf (lmsCell m) q (lmsLeaves variant (lmsCodes m)) (lmsRootOf m) b
    if !(lmsChecks variant m q path && t == .agree) then pkCheckFail i j t b1
    else pkWrite i j (lmsSignature variant m (haveSrc j) (drbgNow b (lmsN (lmsType (lmsCodes m) 0))) q path) (drew b1)

/-- The sign jobs that wait for a value of a cell, in the order they reached their leaf step (R346). -/
def leafQueue (b : Block) (c : Nat) : List Nat :=
  (b.tack.cells.get c).queue.filter fun o => b.live.any fun e => e.2.ord == o && e.2.stage == .running
/-- A job reaches its leaf step. -/
def joinQueue (c : Nat) (j : Job) (b : Block) : Block :=
  modCell c (fun x => { x with queue := if (leafQueue b c).contains j.ord then leafQueue b c else leafQueue b c ++ [j.ord] }) b

/-- LMS_SIGN: the value it may take, the reservation, the path, the signature (R346 to R349). A job behind another of its cell waits. -/
def leafStep (t : Take) (i : Nat) (j : Job) (b : Block) : Block :=
  let m := keyAt j 0
  let variant := j.desc.variant.toNat
  let c := lmsCell m
  let x := b.tack.cells.get c
  let v := if x.next < x.stop then x.next else x.value
  let gone := lmsLeaves variant (lmsCodes m) ≤ v - lmsBase m
  if (leafQueue b c).head? != some j.ord then b
  else if (x.known || x.next < x.stop) && gone then pkReject i j .stateExhausted 0 b
  else if x.next == x.stop then
    (if j.leafWait then b else if x.known then askLeaf i c 1 1024 b else askLeaf i c 0 0 b)
  else if j.leaf != some v then askPath i v j (pathReads variant (lmsCodes m) (v - lmsBase m)) b
  else if !j.again.full then b
  else lmsSignWith t i v j m b
def runLmsSign (t : Take) (i : Nat) (j : Job) (b : Block) : Block :=
  let b := useSys 0 b
  let m := keyAt j 0
  if j.leafFail then runError i .portError b
  else if !cacheHeadOk b j.desc.variant.toNat m j.aux.bytes then pkReject i j .stateExhausted 0 b
  else leafStep t i j (joinQueue (lmsCell m) j b)

/-- LMS_SIGN. -/
def execLmsSign (job : JobId) (t : Take) (s : State) := updReady s (pkReady 0x59 job.val (runLmsSign t job.val))

end Sys2Proof.Machine
end

