-- ==== Sys2Proof/Machine/Doorbell.lean ====
section
/-!
DEFINITION. The doorbell window (02): acceptance, producer and consumer writes, invalidation.
-/

namespace Sys2Proof.Machine

/-- The defined registers of a stall's page and those that take writes (R43). -/
def dbDefined (off : Nat) : Bool := off ≤ 0x18 && off % 4 == 0
def dbWritable (off : Nat) : Bool := off ≤ 0x14 && off % 4 == 0

/-- Whether the block accepts an access to a register of stall `n`'s page from `pid` (R48): `whole` is one aligned 32-bit access. -/
def dbAccepts (s : Stall) (pid : BitVec 20) (priv whole : Bool) : Bool :=
  whole && s.state != .free && (priv || s.pid == some pid)

/-- A dropped access raises DOORBELL_REJECTED (R49). -/
def dbReject (n offset : Nat) (pid : BitVec 20) (b : Block) : Block :=
  raise evDoorbellRejected (toLe 2 n ++ toLe 2 offset ++ toLe 4 pid.toNat) b

/-- A wake event leaves ASLEEP (R370); one that comes while the yard holds does after the hold (R373). -/
def wake (b : Block) : Block := modBoot (fun t => if holding b 0 then { t with wakeDue := true } else { t with asleep := false }) b

/-- Nartia's island wakes (R18). -/
def wakeYm (b : Block) : Block := modYm (fun y => { y with gated := false }) b

/-- Announced entries and the check of R53: whether the write fits the ring. -/
def doorbellFits (g : Ring) (v : BitVec 16) : Bool :=
  decide ((v - g.prod).toNat + (g.prod - g.cons).toNat ≤ 2 ^ g.k)

/-- An accepted write to `SQn_IDX` (R53). -/
def producerWrite (n r : Nat) (v : BitVec 16) (b : Block) : Block :=
  if doorbellFits (b.ring n r) v then modRing n r (fun g => { g with prod := v }) b
  else raise evRingLapped (toLe 2 n ++ toLe 1 r ++ toLe 2 v.toNat) (haltRing n r 1 b)

/-- The check of R65: whether the entries returned have been written. -/
def consumerFits (s : Stall) (v : BitVec 16) : Bool :=
  decide ((v - s.cqCons).toNat ≤ (s.cqProd - s.cqCons).toNat)

/-- An accepted write to `CQ_IDX` (R65). -/
def consumerWrite (n : Nat) (v : BitVec 16) (b : Block) : Block :=
  if consumerFits (b.stall n) v then modStall n (fun s => { s with cqCons := v }) b
  else raise evCqIndexError (toLe 2 n ++ toLe 2 v.toNat) (haltCq n b)

/-- Discard a ring's captured descriptors and mark its outstanding reads (R60). -/
def discardCaptured (n r : Nat) (b : Block) : Block :=
  dropReqs (fun o => match o with | .pblk s g _ => s.val == n && g.val == r | _ => false)
    (modRing n r (fun g => { g with captured := [], fetching := g.fetching.map fun f => (f.1, f.2.1, f.2.2.1, true) }) b)

/-- The rings a mask selects. -/
def maskRings (m : BitVec 4) : List Nat := [0, 1, 2, 3].filter fun r => m.getLsbD r

/-- An accepted write to `DC_INVALIDATE` (R46, R60); a mask of 0 has no effect. -/
def invalidate (n : Nat) (m : BitVec 4) (b : Block) : Block :=
  when (m != 0) (fun b => modStall n (fun s => { s with invMask := s.invMask ||| m })
    (each (maskRings m) (discardCaptured n) b)) b

/-- What a write to `SQn_IDX` does (R48 to R50, R53). -/
def doorbellWrite (n r : Nat) (v : BitVec 16) (pid : BitVec 20) (priv whole : Bool) (b : Block) : Block :=
  if dbAccepts (b.stall n) pid priv whole then producerWrite n r v (wake b) else dbReject n (4 * r) pid b

/-- What a write to `CQ_IDX` does (R48 to R50, R65). -/
def cqIdxWrite (n : Nat) (v : BitVec 16) (pid : BitVec 20) (priv whole : Bool) (b : Block) : Block :=
  if dbAccepts (b.stall n) pid priv whole then consumerWrite n v (wake b) else dbReject n 0x10 pid b

/-- What a write to `DC_INVALIDATE` does (R46, R48 to R50, R60). -/
def invalidateWrite (n : Nat) (m : BitVec 4) (pid : BitVec 20) (priv whole : Bool) (b : Block) : Block :=
  if dbAccepts (b.stall n) pid priv whole then invalidate n m (wake b) else dbReject n 0x14 pid b

/-- A write to any offset of a page: one that no register takes is dropped (R48, R49). -/
def pageWrite (n off : Nat) (v : BitVec 32) (pid : BitVec 20) (priv whole : Bool) (b : Block) : Block :=
  if !dbWritable off then dbReject n off pid b
  else if off < 0x10 then doorbellWrite n (off / 4) (v.extractLsb' 0 16) pid priv whole b
  else if off = 0x10 then cqIdxWrite n (v.extractLsb' 0 16) pid priv whole b
  else invalidateWrite n (v.extractLsb' 0 4) pid priv whole b

/-- The port islands or the yard hold: requests wait in the port island's FIFO (R13, R73). -/
def dbHeld (b : Block) : Bool := holding b 0 || holding b 22
/-- A request on `db_` costs the integrator a credit, and its response carries 0 when it is a write. The credit comes back once the request
has entered the port island, which takes none in while it holds (R539; assumption 103). -/
def dbAccess (v : BitVec 32) (b : Block) : Block :=
  { b with dbCredits := if holding b 22 then b.dbCredits - 1 else 8, dbRdata := v }

/-- A `db_` write command handled, whatever hold is in effect. -/
def handleDb (c : Instr) (b : Block) : Block :=
  match c with
  | .sqDoorbellWrite n r v pid priv whole => doorbellWrite n.val r.val v pid priv whole b
  | .cqConsumerWrite n v pid priv whole => cqIdxWrite n.val v pid priv whole b
  | .dcInvalidate n m pid priv whole => invalidateWrite n.val m pid priv whole b
  | _ => b

/-- A `db_` write: handled, or kept in the FIFO during a hold (R73); without a credit none can be sent (R539). Before `ready` it is
answered and dropped (R527). -/
def dbWrite (c : Instr) (b : Block) : Block :=
  if b.dbCredits == 0 then b
  else if !b.boot.ready then dbAccess 0 b
  else if dbHeld b then { dbAccess 0 b with dbFifo := b.dbFifo ++ [c] } else handleDb c (dbAccess 0 b)

/-- The waiting requests are handled in arrival order when the hold ends (R73), and the port islands return the credits of those they had not
taken in (R539). -/
def drainDb (b : Block) : Block :=
  let b1 := if holding b 22 then b else { b with dbCredits := 8 }
  if dbHeld b then b1 else each b1.dbFifo handleDb { b1 with dbFifo := [] }

/-- SQ_DOORBELL_WRITE. -/
def execSqDoorbellWrite (n : StallId) (r : RingId) (v : BitVec 16) (pid : BitVec 20) (priv whole : Bool) (s : State) :=
  upd s (dbWrite (.sqDoorbellWrite n r v pid priv whole))

/-- CQ_CONSUMER_WRITE. -/
def execCqConsumerWrite (n : StallId) (v : BitVec 16) (pid : BitVec 20) (priv whole : Bool) (s : State) :=
  upd s (dbWrite (.cqConsumerWrite n v pid priv whole))

/-- DC_INVALIDATE. -/
def execDcInvalidate (n : StallId) (m : BitVec 4) (pid : BitVec 20) (priv whole : Bool) (s : State) :=
  upd s (dbWrite (.dcInvalidate n m pid priv whole))

/-- The reads an invalidation waits for have returned (R60). -/
def invReady (b : Block) (n : Nat) : Bool :=
  (maskRings (b.stall n).invMask).all fun r => (b.ring n r).fetching.all fun f => !f.2.2.2

/-- Clear INV_PENDING once the last read of the selected rings has returned (R60). -/
def invalidateDone (n : Nat) (b : Block) : Block :=
  when (invReady b n) (modStall n fun s => { s with invMask := 0 }) b

/-- DC_INVALIDATE_DONE. -/
def execDcInvalidateDone (n : StallId) (s : State) := updOn s 0 (invalidateDone n.val)

end Sys2Proof.Machine
end

