-- ==== Sys2Proof/Machine/Mailbox.lean ====
section
/-!
DEFINITION. Mailbox pairs and notices (R376 to R389), command sheets and results (R390 to R398): how a command
comes to run and how it ends.
-/

namespace Sys2Proof.Machine

/-! ## Pairs -/

def Block.pair (b : Block) (p : Nat) : Mbox := b.ym.pairs.get p

/-- The mailbox registers, latches and access windows accept accesses from the end of start-up step 4 (R527). -/
def windowsOpen (b : Block) : Bool := 5 ≤ b.boot.step

/-- Bit 16 of a binding, and of an owner's record: the port. -/
def portBit (p : MPort) : Bool := p == .b

/-- A valid binding admits only its requester identity and port (R381). -/
def boundOut (m : Mbox) (x : Sender) : Bool :=
  m.bind.getLsbD 31 && !(m.bind.extractLsb' 0 16 == x.rid && m.bind.getLsbD 16 == portBit x.port)

/-- MBOX_DROPPED with the pair number (R379, R381). -/
def mboxDropped (p : Nat) (b : Block) : Block := raise evMboxDropped (toLe 1 p) b

/-- Answer a read on a management port (R539). -/
def answer (p : MPort) (v : BitVec 32) (b : Block) : Block :=
  modYm (fun y => if p = .a then { y with rdataA := v } else { y with rdataB := v }) b
/-- A write on a management port wakes the block (R370), and its response carries 0 (R539). -/
def mpWrite (x : Sender) (b : Block) : Block := answer x.port 0 (wake b)

/-- Credits that the integrator holds on a management port (R539). -/
def mpCredits (b : Block) (p : MPort) : Nat := if p = .a then b.mpaCredits else b.mpbCredits
def setCredits (p : MPort) (n : Nat) (b : Block) : Block := if p = .a then { b with mpaCredits := n } else { b with mpbCredits := n }
/-- A command that takes `n` requests on a management port: without a credit none is sent; while the port islands hold each request that has a
credit spends it, and they wait in the island's FIFO in their order; else they are handled by `f`, and their credits come back at once
(R13, R539; DEDUCED, assumption 103). -/
def mpRequest (n : Nat) (x : Sender) (c : Instr) (f : Block → Block) (b : Block) : Block :=
  if mpCredits b x.port == 0 then b
  else if holding b 22 then { setCredits x.port (mpCredits b x.port - n) b with mpFifo := b.mpFifo ++ [c] }
  else f b

/-- What a write to IN_TAG does (R379, R381). -/
def postNotice (p : Nat) (tag : BitVec 32) (x : Sender) (b : Block) : Block :=
  let m := b.pair p
  if boundOut m x || m.inFull then mboxDropped p (modPair p (fun m => { m with dropped := true }) b)
  else modPair p (fun m => { m with
    inTag := tag, inSince := b.now, reqId := x.rid, inPort := x.port, inPriv := x.priv, dropped := false, inFull := true }) b

/-- A write of an inbound mailbox wakes Nartia, posted or dropped (R18). -/
def inTagAccess (p : MboxId) (tag : BitVec 32) (x : Sender) (whole : Bool) (b : Block) : Block :=
  when (windowsOpen b && whole) (fun b => postNotice p.val tag x (wakeYm b)) (mpWrite x b)
/-- IN_TAG_WRITE. -/
def execInTagWrite (p : MboxId) (tag : BitVec 32) (x : Sender) (whole : Bool) (s : State) :=
  upd s (mpRequest 1 x (.inTagWrite p tag x whole) (inTagAccess p tag x whole))

/-- The outbound half acknowledged (R383, R384). -/
def ackOut (m : Mbox) : Mbox := { m with outFull := false, stale := false }

/-- A read of OUT_TAG (R381, R383). -/
def readOutTag (p : Nat) (x : Sender) (b : Block) : Block :=
  let m := b.pair p
  if boundOut m x then mboxDropped p (answer x.port 0 b)
  else answer x.port m.outTag (modPair p ackOut b)

/-- A read of OUT_TAG: before the end of step 4, and for any other access, 0 is read and nothing happens (R379, R527). -/
def outTagAccess (p : MboxId) (x : Sender) (whole : Bool) (b : Block) : Block :=
  if windowsOpen b && whole then readOutTag p.val x (wake b) else answer x.port 0 (wake b)
/-- OUT_TAG_READ. -/
def execOutTagRead (p : MboxId) (x : Sender) (whole : Bool) (s : State) :=
  upd s (mpRequest 1 x (.outTagRead p x whole) (outTagAccess p x whole))

/-- The received commands of a pair. -/
def pairCmds (b : Block) (p : Nat) : List (Nat × Cmd) := b.ym.cmds.filter fun e => e.2.pair.val == p

/-- The host side of a pair reset (R388). -/
def resetHost (m : Mbox) : Mbox := { m with inFull := false, outFull := false, note := 0, stale := false, queue := [] }

/-- A write of 1 to PAIR_RESET (R381, R388). -/
def pairResetBy (p : Nat) (x : Sender) (b : Block) : Block :=
  if boundOut (b.pair p) x then mboxDropped p b
  else modYm (fun y => { y with
      cmds := y.cmds.map fun e => (e.1, if e.2.pair.val == p then { e.2 with silent := true } else e.2)
      unwritten := y.unwritten.filter fun e => e.2.pair.val != p })
    (modPair p resetHost b)

/-- A write of PAIR_RESET. -/
def pairResetAccess (p : MboxId) (x : Sender) (whole : Bool) (b : Block) : Block :=
  when (windowsOpen b && whole) (pairResetBy p.val x) (mpWrite x b)
/-- PAIR_RESET. -/
def execPairReset (p : MboxId) (x : Sender) (whole : Bool) (s : State) :=
  upd s (mpRequest 1 x (.pairReset p x whole) (pairResetAccess p x whole))

/-- The notices of commands that could not be answered are posted or discarded. -/
def forgetUnwritten (q : Nat × Cmd → Bool) (b : Block) : Block := modYm (fun y => { y with unwritten := y.unwritten.filter fun e => !q e }) b

/-- Nartia posts the first queued notice of a pair whose outbound half is free (R383, R384). -/
def postOut (p : Nat) (b : Block) : Block :=
  let m := b.pair p
  match m.queue with
  | [] => b
  | (id, addr, tag, kind) :: rest =>
    when (!m.outFull && !m.stale)
      (fun b => forgetUnwritten (fun e => e.1 == id)
        (modPair p (fun m => { m with queue := rest, outPtr := addr, outTag := tag, note := kind, outFull := true, outSince := b.now }) b)) b

/-- NOTICE_POST. -/
def execNoticePost (p : MboxId) (s : State) := updOn s 20 (postOut p.val)

/-- An outbound notice has waited 10 ms (R384). -/
def unresponsive (p : Nat) (b : Block) : Block :=
  let m := b.pair p
  when (m.outFull && !m.stale) (fun b => raise evHostUnresponsive (toLe 1 p) (forgetUnwritten (fun e => e.2.pair.val == p)
    (modPair p (fun m => { m with stale := true, queue := [] }) { b with now := max b.now (m.outSince + 10000) }))) b

/-- HOST_UNRESPONSIVE. -/
def execHostUnresponsive (p : MboxId) (s : State) := updOn s 20 (unresponsive p.val)

/-! ## Commands -/

def Block.cmd (b : Block) (id : Nat) : Option Cmd := b.ym.cmds.lookup id
def modCmd (id : Nat) (f : Cmd → Cmd) (b : Block) : Block :=
  modYm (fun y => { y with cmds := y.cmds.map fun e => if e.1 == id then (e.1, f e.2) else e }) b
def dropCmd (id : Nat) (b : Block) : Block := modYm (fun y => { y with cmds := y.cmds.filter fun e => e.1 != id }) b

/-- Requests of an owner that wait or are outstanding. -/
def ownPending (q : Owner → Bool) (b : Block) : Nat :=
  let f := fun (st : PortSt) => (st.waiting.filter fun r => q r.owner).length + (st.out.filter fun g => q g.req.owner).length
  f b.dp0 + f b.dp1 + f b.rp

/-- Sheet header fields (R390). -/
def Cmd.op (c : Cmd) : Nat := field c.sheet.bytes 0 2
def Cmd.seq (c : Cmd) : Nat := field c.sheet.bytes 4 4
def Cmd.len (c : Cmd) : Nat := field c.sheet.bytes 8 4
def Cmd.resAddr (c : Cmd) : Addr := BitVec.ofNat 64 (field c.sheet.bytes 16 8)
def Cmd.resLen (c : Cmd) : Nat := field c.sheet.bytes 24 4
/-- The parameters: the sheet from byte 32 up to LEN. -/
def Cmd.params (c : Cmd) : Bytes := (c.sheet.bytes.take c.len).drop 32
/-- A parameter field. -/
def Cmd.par (c : Cmd) (off len : Nat) : Nat := field c.params off len

/-- Nartia's own reads and writes on `dp0_`, privileged (R390, R392, R540). -/
def ymRead (owner : Owner) (addr : Addr) (off len : Nat) (b : Block) : Block :=
  offer .dp0 (readReqs owner ymIdent 1 40 (pieces addr off len)) b
def ymWrite (owner : Owner) (addr : Addr) (data : Bytes) (b : Block) : Block :=
  offer .dp0 (writeReqs owner ymIdent 1 40 0 data (pieces addr 0 data.length)) b

/-- Queue the notice of command `id`, of kind `kind`; a STALE pair posts none (R384). -/
def queueNotice (p id : Nat) (addr : Addr) (tag : BitVec 32) (kind : Nat) (b : Block) : Block :=
  modPair p (fun m => if m.stale then m else { m with queue := m.queue ++ [(id, addr, tag, kind)] }) b

/-- A command is gone; its notice follows unless the pair was reset (R388). One whose result write failed is kept until its notice is
posted: a restart writes `ABORTED` for it (R386). -/
def endNotice (id kind : Nat) (b : Block) : Block :=
  match b.cmd id with
  | none => b
  | some c => dropCmd id (when (!c.silent) (fun b => queueNotice c.pair.val id c.sheetAddr c.tag kind
      (when (kind == 2 && 2 ≤ c.phase && !(b.pair c.pair.val).stale) (modYm fun y => { y with unwritten := y.unwritten ++ [(id, c)] }) b)) b)

/-- Notices after a restart, each of its kind, in order of posting, up to the first whose result is not written yet (R386). -/
def flushAborted (p : Nat) : Nat → Block → Block
  | 0, b => b
  | n + 1, b => match (pairCmds b p).find? fun e => e.2.aborted with
    | some (id, c) => if c.phase == 6 then flushAborted p n (endNotice id c.note b) else b
    | none => b

/-- Take in the inbound notice of a pair (R382, R390, R393, R397). -/
def receive (p : Nat) (b : Block) : Block :=
  let m := b.pair p
  if !m.inFull || 4 ≤ (pairCmds b p).length + m.queue.length then b
  else
    let b1 := modPair p (fun m => { m with inFull := false }) b
    let id := b.ym.nextCmd
    if m.inPtr.toNat % 64 != 0 then queueNotice p id m.inPtr m.inTag 2 (modYm (fun y => { y with nextCmd := id + 1 }) b1)
    else
      ymRead (.sheet id) m.inPtr 0 64 (modYm (fun y => { y with
        nextCmd := id + 1
        cmds := y.cmds ++ [(id, { pair := Fin.ofNat 8 p, tag := m.inTag, sheetAddr := m.inPtr, since := m.inSince
                                  sender := { rid := m.reqId, priv := m.inPriv, port := m.inPort }, sheet := { want := 64 } })] }) b1)

/-- NOTICE_RECEIVE. -/
def execNoticeReceive (p : MboxId) (s : State) := updOn s 20 fun b => when (!b.ym.gated) (receive p.val) b

/-! ## Ends -/

/-- The 16-byte result header (R391). -/
def resultHeader (b : Block) (c : Cmd) : Bytes :=
  toLe 2 c.result ++ toLe 2 c.detail ++ toLe 4 c.seq ++ toLe 4 c.rlen ++ toLe 4 (min (b.now - c.since) 0xFFFFFFFF)

/-- DURATION counts from the result write of the command that opened the session (R434). -/
def dateSession (c : Cmd) (b : Block) : Block :=
  when ((c.op == 0x0404 || c.op == 0x0405) && c.result == rcOk && b.ym.gate.undated)
    (modGate fun g => { g with undated := false, session := g.session.map fun x => (x.1, x.2.1, b.now + c.par 4 4 * 1000000) }) b
/-- Write the result header (R392). -/
def writeHeader (id : Nat) (b : Block) : Block :=
  match b.cmd id with
  | none => b
  | some c => dateSession c <| ymWrite (.header id) c.resAddr (resultHeader b c) (modCmd id (fun c => { c with phase := 5 }) b)

/-- Write a command's payload, or its header when it has none (R392). -/
def writeResult (id : Nat) (b : Block) : Block :=
  match b.cmd id with
  | none => b
  | some c =>
    if c.payload == [] then writeHeader id b
    else ymWrite (.payload id) (c.resAddr + 16) c.payload (modCmd id (fun c => { c with phase := 4 }) b)

/-- A command ends with a result, a detail, and a payload of which RLEN tells. -/
def endCmd (id result detail : Nat) (payload : Bytes) (b : Block) : Block :=
  writeResult id (modCmd id (fun c => { c with result, detail, payload, rlen := payload.length, keep := [], input := {} }) b)
/-- A command ends with OK. -/
def okCmd (id : Nat) (payload : Bytes) (b : Block) : Block := endCmd id rcOk 0 payload b
/-- A command fails. -/
def failCmd (id result detail : Nat) (b : Block) : Block := endCmd id result detail [] b
/-- A command whose result area is too small for a payload of `need` bytes (R391). -/
def spaceCmd (id need : Nat) (b : Block) : Block :=
  writeResult id (modCmd id (fun c => { c with result := rcResultSpace, detail := 0, payload := [], rlen := need, keep := [] }) b)

/-! ## Sheets -/

/-- The command codes of R399 to R408. -/
def cmdKnown (op : Nat) : Bool :=
  (0x0101 ≤ op && op ≤ 0x0106) || (0x0201 ≤ op && op ≤ 0x0206) || (0x0301 ≤ op && op ≤ 0x0303)
    || (0x0401 ≤ op && op ≤ 0x0406) || op == 0x0501 || op == 0x0502 || (0x0601 ≤ op && op ≤ 0x0603)
    || op == 0x0701 || op == 0x0702 || op == 0x0801 || op == 0x0802 || op == 0x0901 || op == 0x0902 || op == 0x0A01

/-- The lowest offset of `offs` whose byte is not zero. -/
def firstNonzero (l : Bytes) (offs : List Nat) : Option Nat := offs.find? fun o => l.getD o 0 != 0

/-- The first failing header byte (R390, R394). -/
def badHeader (h : Bytes) : Option Nat :=
  match firstNonzero h [2, 3] with
  | some o => some o
  | none => if field h 8 4 < 32 || 65536 < field h 8 4 then some 8 else firstNonzero h [12, 13, 14, 15, 28, 29, 30, 31]

/-- The sheet cannot carry a result (R393). -/
def noResult (c : Cmd) : Bool := c.resAddr == 0 || !alignedTo c.resAddr 16 || c.resLen < 16

/-- The whole sheet is there: an unknown code ends the command (R395). -/
def sheetRead (id : Nat) (c : Cmd) (b : Block) : Block :=
  if cmdKnown c.op then modCmd id (fun c => { c with phase := 2 }) b else failCmd id rcUnknown 0 b

/-- The first 64 bytes are there (R390, R393, R395). -/
def headRead (id : Nat) (c : Cmd) (b : Block) : Block :=
  if noResult c then endNotice id 2 b
  else match badHeader c.sheet.bytes with
    | some o => failCmd id rcBadSheet o b
    | none =>
      if c.len ≤ 64 then sheetRead id c b
      else ymRead (.sheet id) (c.sheetAddr + 64) 64 (roundUp c.len 64 - 64)
        (modCmd id (fun c => { c with phase := 1, sheet := { c.sheet with want := roundUp c.len 64 } }) b)

/-- A part of a sheet has arrived, or its read failed (R393). -/
def sheetStep (id : Nat) (b : Block) : Block :=
  match b.cmd id with
  | none => b
  | some c =>
    if c.sheet.err then endNotice id 2 (dropReqs (fun o => o == .sheet id) b)
    else if !c.sheet.full then b
    else if c.phase == 0 then headRead id c b
    else if c.phase == 1 then sheetRead id c b else b

/-! ## Groups and checks -/

/-- The group of a command (R396); a stall's own group by its number. -/
def groupOf (c : Cmd) : Option (Nat × Nat) :=
  let op := c.op
  if op == 0x0101 && c.par 0 2 == 0xFFFF then some (1, 0)
  else if 0x0101 ≤ op && op ≤ 0x0106 then some (0, c.par 0 2)
  else if op == 0x0202 || op == 0x0205 || op == 0x0206 then some (2, 0)
  else if op == 0x0201 || op == 0x0203 then some (3, 0)
  else if 0x0301 ≤ op && op ≤ 0x0303 then some (4, 0)
  else if op == 0x0401 || op == 0x0402 then some (5, 0)
  else if 0x0403 ≤ op && op ≤ 0x0406 then some (6, 0)
  else if op == 0x0601 || op == 0x0602 || op == 0x0801 || op == 0x0802 then some (7, 0)
  else if op == 0x0702 || op == 0x0901 || op == 0x0902 then some (8, 0)
  else none

/-- The read of cell 2 after `ready` has ended: until then gate commands wait in their group (R525). -/
def gateRead (b : Block) : Bool := b.ym.gate.known || b.ym.gate.retry

/-- A command may run: no command of its group received earlier is still unfinished (R396). -/
def mayRun (b : Block) (id : Nat) (c : Cmd) : Bool :=
  match groupOf c with
  | none => true
  | some g => (g != (6, 0) || gateRead b) && b.ym.cmds.all fun e => !(e.1 < id && !e.2.aborted && (e.2.phase < 2 || groupOf e.2 == some g))

/-- Stall commands waiting or running for a stall (R399). -/
def stallBusy (b : Block) (n : Nat) : Bool := b.ym.cmds.any fun e => 2 ≤ e.2.phase && groupOf e.2 == some (0, n)

/-- The gate is enforced (R149). -/
def gateEnforced (b : Block) : Bool := 2 ≤ b.lc

/-- The gate session, while its duration lasts, which begins with the result write of the command that opened it (R434). -/
def openSession (b : Block) : Option (Sender × BitVec 32 × Nat) := b.ym.gate.session.filter fun x => b.ym.gate.undated || b.now < x.2.2

/-- A debug session holds the port open in FIELD (R432, R489). -/
def debugSession (b : Block) : Bool := b.ym.gate.port && (openSession b).isSome
/-- The port is open once the life-cycle state has been sensed. -/
def tapOpen (b : Block) : Bool := b.boot.vdd && 2 < b.boot.step && (b.lc != 2 || debugSession b)
/-- A closed port executes only BYPASS and IDCODE; any other instruction selects the bypass register (R550). -/
def tapShut (ir : TapIr) : TapIr := match ir with | .other _ => .bypass | x => x
/-- The instruction the port executes. -/
def tapRuns (ir : TapIr) (b : Block) : TapIr := if tapOpen b then ir else tapShut ir
/-- The port has closed, if it has: an instruction that it no longer executes gives way to the bypass register (R550). -/
def tapFollows (b : Block) : Block := modBoot (fun t => { t with tapIr := tapRuns t.tapIr b }) b

/-- Two identities are one holder: requester identity and port (R434). -/
def sameHolder (x y : Sender) : Bool := x.rid == y.rid && x.port == y.port

/-- The sender holds a session whose scope has bit `k`, or the gate is not enforced (R395, R432). -/
def gatePasses (b : Block) (x : Sender) (k : Nat) : Bool :=
  !gateEnforced b || (match openSession b with
    | none => false
    | some (h, scope, _) => sameHolder h x && scope.getLsbD k)

/-- The right a command needs (R399 to R408). -/
inductive Right where
  | any | manager | gate (bit : Nat)
  deriving DecidableEq, Repr

/-- The first failing right. -/
def rightFails (b : Block) (x : Sender) : Right → Option Nat
  | .any => none
  | .manager => if x.priv then none else some rcNotPrivileged
  | .gate k => if !x.priv then some rcNotPrivileged else if gatePasses b x k then none else some rcGateRequired

/-- The lowest failing parameter offset: `used` are the listed fields, `need` the bytes the command needs, `errs`
the fields out of range (R390, R395). -/
def paramFails (l : Bytes) (used : List (Nat × Nat)) (need : Nat) (errs : List (Nat × Nat × Bool)) : Option Nat :=
  let res := (List.range l.length).find? fun o => l.getD o 0 != 0 && !(used.any fun u => u.1 ≤ o && o < u.1 + u.2)
  let bad := (errs.filter fun e => e.2.2 && e.1 + e.2.1 ≤ l.length).map fun e => e.1
  (res.toList ++ (if l.length < need then [l.length] else []) ++ bad).min?

/-- What a command states of itself for the checks of R395. -/
structure Checks where
  right : Right := .manager
  /-- Payload bytes it would write. -/
  pay : Nat := 0
  /-- The lowest failing parameter offset. -/
  bad : Option Nat := none
  /-- It is refused as SEALED (assumption 17). -/
  seals : Bool := false
  /-- It writes fuses or the tack room, and waits through a supply hold for it when `waits` (R398). -/
  writes : Bool := false
  waits : Bool := true
  /-- A WRONG_STATE detail, and the need of `pk_ready`. -/
  state : Option Nat := none
  program : Bool := false

/-- The checks before SUPPLY_HELD: result, detail, RLEN. -/
def checksBefore (b : Block) (c : Cmd) (k : Checks) : Option (Nat × Nat × Nat) :=
  match rightFails b c.sender k.right with
  | some r => some (r, 0, 0)
  | none =>
    if c.resLen < 16 + k.pay then some (rcResultSpace, 0, k.pay)
    else match k.bad with
      | some o => some (rcBadParameter, o, 0)
      | none => if k.seals then some (rcSealed, 0, 0) else none

/-- The checks after it. -/
def checksAfter (b : Block) (k : Checks) : Option (Nat × Nat × Nat) :=
  match k.state with
  | some d => some (rcWrongState, d, 0)
  | none => if k.program && !b.pack.ready then some (rcNoProgram, 0, 0) else none

/-- End a command that failed a check. -/
def failCheck (id : Nat) (r : Nat × Nat × Nat) (b : Block) : Block :=
  if r.1 == rcResultSpace then spaceCmd id r.2.2 b else failCmd id r.1 r.2.1 b

/-- Start a command: the checks of R395 in order; a command that must wait through a supply hold waits. -/
def startCmd (id : Nat) (c : Cmd) (k : Checks) (body : Cmd → Block → Block) (b : Block) : Block :=
  match checksBefore b c k with
  | some r => failCheck id r b
  | none =>
    if k.writes && anyHold b then
      (if k.waits then modCmd id (fun c => { c with waitSince := some (c.waitSince.getD b.now) }) b else failCmd id rcSupplyHeld 0 b)
    else match checksAfter b k with
      | some r => failCheck id r b
      | none => body c (modCmd id (fun c => { c with phase := 3, waitSince := none }) b)

/-- Run a command row: `is` tells its sheets, `checks` its checks, `body` its own steps. -/
def runCmd (is : Cmd → Bool) (checks : Block → Cmd → Checks) (body : Nat → Cmd → Block → Block) (id : Nat) (b : Block) : Block :=
  match b.cmd id with
  | none => b
  | some c =>
    if !is c || c.aborted then b
    else if c.phase == 2 && mayRun b id c then startCmd id c (checks b c) (body id) b
    else if c.phase == 3 then body id c b
    else b

/-- A command row runs on the yardmaster island. -/
def updCmd (s : State) (is : Cmd → Bool) (checks : Block → Cmd → Checks) (body : Nat → Cmd → Block → Block) (id : Nat) :
    Host.Outcome State Fault Refusal := updOn s 20 (runCmd is checks body id)

/-- The next step of a command. -/
def cmdStep (id k : Nat) (b : Block) : Block := modCmd id (fun c => { c with step := k }) b

/-- Ask the studbook on behalf of a command (R398). -/
def cmdAsk (id op cell arg k : Nat) (b : Block) : Block :=
  sbAsk { user := .cmd id, op, cell, arg } (modCmd id (fun c => { c with sb := 1, step := k }) b)

/-! ## The order of dictionary operations (R423, R425) -/

/-- A command's items arrive when Nartia takes it up, all together: they share one place among the operations of the windows (R423, R425;
DEDUCED, assumption 100). -/
def takeTurn (id : Nat) (b : Block) : Block :=
  match b.cmd id with
  | none => b
  | some c => when c.turn.isNone (fun b =>
      modCmd id (fun x => { x with turn := some b.ym.odNext }) (modYm (fun y => { y with odNext := y.odNext + 1 }) b)) b
/-- A command's items have arrived and are not all handled. -/
def itemsWait (c : Cmd) : Bool := !c.aborted && ((c.op == 0x0501 && c.phase == 2) || (c.op == 0x0502 && c.phase == 3))
/-- A dictionary operation that arrived before number `t` is not handled yet. -/
def opsBefore (b : Block) (t : Nat) : Bool :=
  (b.ym.winA.busy && b.ym.winA.turn < t) || (b.ym.winB.busy && b.ym.winB.turn < t)
    || b.ym.cmds.any fun e => itemsWait e.2 && e.2.turn.any fun k => k < t

/-! ## A reset of the yardmaster island (R386, R387) -/

/-- The requests of commands. -/
def cmdOwner (o : Owner) : Bool :=
  match o with
  | .sheet _ | .input _ | .image _ | .payload _ | .header _ => true
  | _ => false

/-- A full inbound notice becomes an aborted command without a result. -/
def abortInbound (p : Nat) (b : Block) : Block :=
  let m := b.pair p
  when m.inFull (fun b => modYm (fun y => { y with
      nextCmd := y.nextCmd + 1
      cmds := y.cmds ++ [(y.nextCmd, { pair := Fin.ofNat 8 p, tag := m.inTag, sheetAddr := m.inPtr, phase := 6, aborted := true, note := 1 })] })
    (modPair p (fun m => { m with inFull := false }) b)) b

/-- A received command: ABORTED is written once its sheet has been read, else only the notice follows. One that an earlier restart has done
with keeps its notice. -/
def abortCmd (id : Nat) (b : Block) : Block :=
  match b.cmd id with
  | none => b
  | some c =>
    if c.aborted && c.phase == 6 then b
    else if 2 ≤ c.phase && !noResult c then
      writeHeader id (modCmd id (fun c => { c with result := rcAborted, detail := 0, payload := [], rlen := 0, aborted := true, note := 1 }) b)
    else modCmd id (fun c => { c with phase := 6, aborted := true, note := 1 }) b

/-- Notices that a pair has queued keep their place in the order of posting: NOTE 0x0 for an acknowledged result, else 0x1, and ABORTED for
the command whose result write failed (R386). -/
def requeue (p : Nat) (b : Block) : Block :=
  let put := fun (l : List (Nat × Cmd)) (e : Nat × Addr × BitVec 32 × Nat) =>
    let c : Cmd := (b.ym.unwritten.lookup e.1).getD
      { pair := Fin.ofNat 8 p, tag := e.2.2.1, sheetAddr := e.2.1, phase := 6, aborted := true, note := min e.2.2.2 1 }
    l.takeWhile (·.1 < e.1) ++ (e.1, c) :: l.dropWhile (·.1 < e.1)
  modPair p (fun m => { m with queue := [] }) (modYm (fun y => { y with cmds := (b.pair p).queue.foldl put y.cmds }) b)

/-- An ADVANCE given up may have taken effect: its cell is read again before it is next used (R545); cell 3 always is (R300). -/
def loseAdvance (o : SbOp) (b : Block) : Block :=
  if o.op == 0 then b
  else if o.cell == 1 then modTack (fun t => { t with counterKnown := false }) b
  else if o.cell == 2 then modGate (fun g => { g with reread := true }) b
  else b

/-- What a command's answer tells of its cell: the update counter is cell 1 as last read or advanced, the floor cell 3, LEAF_CELL_VALUE a
leaf cell (R198, R330, R354, R408); an ADVANCE without an answer leaves the cell to be read again. -/
def cellRead (o : SbOp) (a : Option Nat) (b : Block) : Block :=
  match a with
  | none => loseAdvance o b
  | some v =>
    if o.cell == 1 then modTack (fun t => { t with updateCounter := v, counterKnown := true }) b
    else if o.cell == 3 then { b with floor := v }
    else if 4 ≤ o.cell then modTack (fun t => { t with cells := t.cells.mod o.cell fun x => { x with value := v } }) b
    else b

/-- Studbook operations of commands are given up (R545). -/
def dropCmdSb (b : Block) : Block :=
  let q := fun (o : SbOp) => match o.user with | .cmd _ | .gateRead => true | _ => false
  let b := each (b.sb.toList.filter q) loseAdvance b
  sbPump { b with sbQueue := b.sbQueue.filter fun o => !q o, sb := b.sb.filter fun o => !q o
                  sbDrop := if b.sb.any q then b.sbDrop + 1 else b.sbDrop }

/-- Nartia restarts: notices with NOTE 0x1 for what was full or received, on its pair and in order of posting. -/
def restartNartia (b : Block) : Block :=
  each (List.range 8) (fun p => flushAborted p (b.ym.cmds.length + 9 + (b.pair p).queue.length))
    (each ((b.ym.cmds ++ b.ym.unwritten).map Prod.fst) abortCmd (modYm (fun y => { y with unwritten := [] })
      (each (List.range 8) requeue (each (List.range 8) abortInbound (dropReqs cmdOwner (dropCmdSb
        (tapFollows (modGate (fun g => { g with session := none, undated := false, port := false }) b))))))))

/-! ## WRITE_WAIT_ALLOWANCE_EXPIRY (R398, R549) -/

/-- A command that has waited 50 ms through a supply hold, or whose burn has waited 50 ms for `vfz`, ends. -/
def waitExpired (id : Nat) (b : Block) : Block :=
  match b.cmd id with
  | none => b
  | some c => match c.waitSince with
    | none => b
    | some t =>
      let b1 := { b with now := max b.now (t + 50000) }
      if c.phase == 2 || c.op == 0x0202 || c.op == 0x0205 || c.op == 0x0206 then
        when ((c.phase == 2 || c.phase == 3) && anyHold b) (failCmd id rcSupplyHeld 0) b1
      else when (c.phase == 3 && !b.boot.vfz)
        (if c.op == 0x0402 then failCmd id rcForgeFailed 0 else if c.op == 0x0401 then failCmd id rcCheckFailed 6
         else failCmd id rcFuseFailed 0) b1

/-- WRITE_WAIT_ALLOWANCE_EXPIRY. -/
def execWriteWaitAllowanceExpiry (id : Nat) (s : State) := updReady s (waitExpired id)

end Sys2Proof.Machine
end

