-- ==== Sys2Proof/Machine/Movers.lean ====
section
/-!
DEFINITION. Chutes at their neighbours' side, flushes (R443 to R460), mover channels and the yard timers (R461 to R472).
-/

namespace Sys2Proof.Machine

/-! ## Items in and out -/

/-- Binding kind (R451). -/
def bindKind (c : Chute) : Nat := c.bind.toNat / 4096 % 4

/-- The job that holds an inbound chute starts, or goes on, with what has arrived. -/
def feedHolder (c : Nat) (b : Block) : Block :=
  match (b.chute c).holder with
  | none => b
  | some i => feedAndCheck i (settle i (dropIdles c b))

/-- An item beyond a full chute is dropped; the holding job ends with PORT_ERROR (R446). -/
def overrun (c : Nat) (b : Block) : Block :=
  let b1 := raise evChuteOverrun (toLe 1 c) (modChute c (fun x => { x with errors := satAdd 32 x.errors 1 }) b)
  match (b.chute c).holder with
  | none => b1
  | some i => errorIn i .portError b1

/-- The neighbour writes an item into an inbound chute (R444, R446, R455). -/
def itemWrite (c : Nat) (data : Bytes) (ctl : BitVec 16) (b : Block) : Block :=
  let it : Item := { data := fit 32 data, ctl := ctl &&& 0x03FF }
  if !it.valid then b
  else if 512 ≤ placesTaken (b.chute c) then overrun c b
  else feedHolder c (changeChute c (fun x => { x with items := x.items ++ [it] }) (wake b))

/-- CHUTE_ITEM_WRITE. -/
def execChuteItemWrite (c : RingId) (data : Bytes) (ctl : BitVec 16) (s : State) := updReady s (itemWrite c.val data ctl)

/-- What a read of an empty outbound chute returns (R448). -/
def emptyItem (c : Chute) : Item := if c.mode.getLsbD 8 then { data := c.idle, ctl := 0x09 } else { data := zeros 32, ctl := 0 }

/-- The neighbour reads an outbound chute (R448, R449); a hold of the chutes' island reads as empty (R472). -/
def itemRead (c : Nat) (b : Block) : Block :=
  let x := b.chute c
  match x.items with
  | i :: _ =>
    if readable x && !holding b 23 then
      let b1 := modChute c (fun x => applyFlush { popItem x with last := i }) b
      match x.holder with
      | some j => laneDone j (pushJob j b1)
      | none => b1
    else modChute c (fun x => { x with last := emptyItem x }) b
  | [] => modChute c (fun x => { x with last := emptyItem x }) b

/-- CHUTE_ITEM_READ. -/
def execChuteItemRead (c : RingId) (s : State) := updReady s (itemRead (4 + c.val))

/-! ## Flushes -/

/-- Items up to and including the last EOP. -/
def flushPoint (l : List Item) : Nat := ((l.mapIdx fun k i => if i.eop then k + 1 else 0).foldl max 0)

/-- A write of FLUSH (R459). -/
def flushChute (c : Nat) (b : Block) : Block :=
  modChute c (fun x => if flushPoint x.items = 0 then x else applyFlush { x with flush := some (flushPoint x.items) }) b

/-- CHUTE_FLUSH. CHUTE_CTRL is a manager's entry (R414, R471). -/
def execChuteFlush (c : ChuteId) (x : Sender) (s : State) := updReady s (when x.priv (flushChute c.val))

/-! ## Channels -/

/-- Grant kind of a channel (R471): 0 none, 1 manager, 2 stall. Channels 0 and 8 are the yardmaster's. -/
def grantKind (m : Mover) : Nat := m.grant.toNat / 2 ^ 14
def grantStall (m : Mover) : Nat := m.grant.toNat % 512
def ownChannel (m : Nat) : Bool := m == 0 || m == 8
/-- A channel's port (R22). -/
def moverPort (m : Nat) : Port := if m < 8 then .dp0 else .dp1
/-- The requests of a channel. -/
def moverReq (m : Nat) (o : Owner) : Bool :=
  match o with
  | .moverDesc k | .moverTable k | .moverData k | .moverStatus k => k.val == m
  | _ => false
def chanId (m : Nat) : ChanId := Fin.ofNat 16 m

/-- The chutes a descriptor names. -/
def moverIn (d : MDesc) : Option Nat := if d.mflags.getLsbD 0 then some (d.src.toNat % 4) else none
def moverOut (d : MDesc) : Option Nat := if d.mflags.getLsbD 1 then some (4 + d.dst.toNat % 4) else none

/-- A channel lets its chutes go: an unfinished inbound packet drains, an unfinished outbound one ends with the abort
marker (R455, R457). -/
def releaseChutes (m : Nat) (b : Block) : Block :=
  let x := b.mover m
  let b1 := match moverIn x.desc with
    | some c => if (b.chute c).mover == some (chanId m) then
        changeChute c (fun h => { h with mover := none, skipping := false, draining := !x.eop }) b else b
    | none => b
  match moverOut x.desc with
  | some c => if (b1.chute c).mover == some (chanId m) then
      modChute c (fun h => letChute { h with mover := none, items := if x.begun && x.outRest != [] then h.items ++ [abortItem] else h.items }) b1
    else b1
  | none => b1

/-- Start a walk of an IDLE channel, which makes the block ACTIVE (R370), or hold or lose the trigger (R466, R472). -/
def trigger (m : Nat) (b : Block) : Block :=
  when ((b.mover m).state = 1) wake <| modMover m (fun x =>
    if x.state = 1 then { x with state := 2, step := 0, ran := false }
    else if x.state = 2 then (if x.pendingTrig then { x with missed := satAdd 32 x.missed 1 } else { x with pendingTrig := true })
    else if x.state = 3 then { x with missed := satAdd 32 x.missed 1 } else x) b

/-- Leave the requests a channel has not issued. -/
def dropMover (m : Nat) (b : Block) : Block :=
  setPort (moverPort m) { b.port (moverPort m) with waiting := (b.port (moverPort m)).waiting.filter fun r => !moverReq m r.owner } b

/-- ENABLE cleared (R468): position and count are undefined afterwards. -/
def disableMover (m : Nat) (b : Block) : Block :=
  let b1 := dropMover m (releaseChutes m b)
  modMover m (fun x => { x with
    ctrl := x.ctrl &&& 0xFFFFFFFE, state := 0, pendingTrig := false, waitEnable := false, step := 0, desc := {}, data := {}, buf := {}
    taken := [], eop := false, chuteErr := none, outRest := [], begun := false, issued := false, table := []
    pos := BitVec.ofNat 64 (Config.freeNat b.free), doneCount := Config.freeNat (b.free + 1) % 2 ^ 32 }) (freed (freed b1))

/-- The identity a channel takes at its enable (R461). -/
def moverIdent (b : Block) (m : Nat) : Ident :=
  if grantKind (b.mover m) == 2 then stallIdent b (grantStall (b.mover m)) else ymIdent

/-- A channel is IDLE at MOVER_HEAD once its earlier transactions have returned (R466, R468). -/
def enableMover (m : Nat) (b : Block) : Block :=
  modMover m (fun x =>
    if grantKind x = 0 then x
    else if ownPending (moverReq m) b = 0 then { x with state := 1, pos := x.head, doneCount := 0, step := 0, waitEnable := false, ident := moverIdent b m }
    else { x with waitEnable := true }) b

/-- A write to MOVER_CTRL: `none` when refused (R471). -/
def moverCtrl (m : Nat) (v : BitVec 32) (b : Block) : Option Block :=
  if v.toNat / 16 % 4 = 3 then none
  else
    let was := (b.mover m).ctrl.getLsbD 0
    let b1 := modMover m (fun x => { x with ctrl := v &&& 0xF331 }) b
    let b2 := if v.getLsbD 0 then (if was then b1 else enableMover m b1) else if was then disableMover m b1 else b1
    some (if v.getLsbD 1 && v.getLsbD 0 then trigger m b2 else b2)

/-- A channel's write by the manager; channels 0 and 8 are read-only. -/
def moverWrite (m : Nat) (x : Sender) (v : BitVec 32) (b : Block) : Block :=
  if x.priv && !ownChannel m then (moverCtrl m v b).getD b else b

/-- MOVER_START: a write of START with the rest of MOVER_CTRL as it stands. -/
def execMoverStart (m : ChanId) (x : Sender) (s : State) := updOn s 0 fun b => moverWrite m.val x ((b.mover m.val).ctrl ||| 2) b
/-- MOVER_ENABLE: a write of MOVER_CTRL with ENABLE set. -/
def execMoverEnable (m : ChanId) (v : BitVec 32) (x : Sender) (s : State) := updOn s 0 (moverWrite m.val x (v ||| 1))
/-- MOVER_DISABLE: a write that clears ENABLE. -/
def execMoverDisable (m : ChanId) (x : Sender) (s : State) :=
  updOn s 0 fun b => moverWrite m.val x ((b.mover m.val).ctrl &&& 0xFFFFFFFE) b

/-- TIMER_TICK: the channels that wait for timer `t` are triggered (R466, R470), and Nartia wakes (R18). -/
def timerTick (t : Nat) (b : Block) : Block :=
  let now := max b.now (b.timers.get t).2
  each (List.range 16) (fun m b => when ((b.mover m).ctrl.toNat / 16 % 4 == 1 && (b.mover m).ctrl.toNat / 256 % 4 == t) (trigger m) b)
    (wakeYm (wake { b with now, timers := b.timers.mod t fun x => (x.1, now + x.1) }))
def execTimerTick (t : RingId) (s : State) := updOn s 0 (timerTick t.val)

/-! ## Descriptors (R462, R463) -/

/-- A descriptor's fields. -/
def parseMDesc (l : Bytes) : MDesc :=
  { mop := l.getD 0 0, mflags := l.getD 1 0, ways := l.getD 2 0, grain := field l 4 4, src := BitVec.ofNat 64 (field l 8 8)
    dst := BitVec.ofNat 64 (field l 16 8), len := field l 24 8, next := BitVec.ofNat 64 (field l 32 8), own := l.getD 48 0
    resv := 8 ≤ field l 1 1 || field l 3 1 != 0 || !allZero (slice l 40 8) || field l 49 1 != 0 || !allZero (slice l 58 6) }

/-- A chute a channel may not use. -/
def chuteDenied (b : Block) (m : Nat) (c : Option Nat) : Bool :=
  match c with
  | none => false
  | some c => bindKind (b.chute c) != 3 || !(b.mover m).ident.priv

/-- The first failing check of R463. -/
def mdescFails (b : Block) (m : Nat) (d : MDesc) : Option Status :=
  let braid := d.mop == 2 || d.mop == 3
  let ways := d.ways.toNat
  if !(1 ≤ d.mop.toNat && d.mop.toNat ≤ 3) then some .opcodeUnknown
  else if d.resv || (braid && d.mflags.toNat % 4 != 0) || chuteDenied b m (moverIn d) || chuteDenied b m (moverOut d) then some .flagsInvalid
  else if (if braid then ways < 2 || 16 < ways else ways != 1) then some .lengthOutOfRange
  else if (!(moverIn d).isSome && !alignedTo d.src 64) || (!(moverOut d).isSome && !alignedTo d.dst 64) || !alignedTo d.next 64
      || d.len % 64 != 0 || d.len < 64 || 2 ^ 40 < d.len || (braid && (d.grain % 64 != 0 || d.grain < 64 || 65536 < d.grain)) then some .misaligned
  else none

/-- A descriptor is to be ended with a status and a count of bytes moved. -/
def moverEnds (m : Nat) (st : Status) (moved : Nat) (b : Block) : Block :=
  modMover m (fun x => { x with step := 4, mstatus := st, moved }) b

/-- Ended by an error in the move: the bytes moved by then are not stated, a free value. -/
def moverBreaks (m : Nat) (st : Status) (b : Block) : Block :=
  moverEnds m st (Config.freeNat b.free % ((b.mover m).desc.len + 1)) (freed (dropMover m b))

/-- The end of a walk (R466). -/
def walkEnds (m : Nat) (pos : Addr) (b : Block) : Block :=
  let x := b.mover m
  let b1 := modMover m (fun x => { x with state := 1, step := 0, pos, pendingTrig := false }) b
  let b2 := if x.pendingTrig then trigger m b1 else b1
  if x.ran then each (List.range 16) (fun k b => when ((b.mover k).ctrl.toNat / 16 % 4 == 2 && (b.mover k).ctrl.toNat / 4096 == m) (trigger k) b) b2
  else b2

/-- A channel's reads and writes. -/
def moverRead (m : Nat) (owner : Owner) (addr : Addr) (off len : Nat) (b : Block) : Block :=
  offer (moverPort m) (readReqs owner (b.mover m).ident 1 (41 + m) (pieces addr off len)) b
def moverPut (m : Nat) (owner : Owner) (addr : Addr) (data : Bytes) (b : Block) : Block :=
  offer (moverPort m) (writeReqs owner (b.mover m).ident 1 (41 + m) 0 data (pieces addr 0 data.length)) b

/-- A stall's channel starts no descriptor while its stall does not run (R469). -/
def mayWalk (b : Block) (m : Nat) : Bool :=
  (b.mover m).ident.priv ||
    ((b.stall (b.mover m).ident.stall.toNat).state == .active || (b.stall (b.mover m).ident.stall.toNat).state == .halted)

/-- A descriptor has been read. -/
def descThere (m : Nat) (b : Block) : Block :=
  let x := b.mover m
  let d := parseMDesc x.buf.bytes
  if x.buf.err then moverEnds m .portError 0 (modMover m (fun x => { x with desc := {}, ran := true }) b)
  else if d.own == 0 then walkEnds m x.pos b
  else
    let b1 := modMover m (fun x => { x with desc := d, ran := true, issued := false, data := {}, taken := [], eop := false, chuteErr := none
                                            outRest := [], begun := false, table := [] }) b
    match mdescFails b m d with
    | some st => moverEnds m st 0 b1
    | none =>
      if d.mop == 1 then modMover m (fun x => { x with step := 3 }) b1
      else moverRead m (.moverTable (chanId m)) (if d.mop == 2 then d.dst else d.src) 0 (8 * d.ways.toNat)
        (modMover m (fun x => { x with step := 2, buf := { want := 8 * d.ways.toNat } }) b1)

/-- A way table has been read. -/
def tableThere (m : Nat) (b : Block) : Block :=
  let x := b.mover m
  let t := (List.range x.desc.ways.toNat).map fun w => BitVec.ofNat 64 (field x.buf.bytes (8 * w) 8)
  if x.buf.err then moverEnds m .portError 0 b
  else if t.any fun a => !alignedTo a 64 then moverEnds m .misaligned 0 b
  else modMover m (fun x => { x with step := 3, table := t }) b

/-- MOVER_WALK: the next step of a walk before the move. -/
def moverWalk (m : Nat) (b : Block) : Block :=
  let x := b.mover m
  if x.state != 2 then b
  else if x.step = 0 then
    when (mayWalk b m) (fun b => moverRead m (.moverDesc (chanId m)) x.pos 0 64 (modMover m (fun x => { x with step := 1, buf := { want := 64 } }) b)) b
  else if x.step = 1 then when ((x.buf.full || x.buf.err) && mayWalk b m) (descThere m) b
  else if x.step = 2 then when (x.buf.full || x.buf.err) (tableThere m) b
  else b
def execMoverWalk (m : ChanId) (s : State) := updOn s 0 (moverWalk m.val)

/-! ## Moves (R464, R465) -/

/-- Take one item of a packet for a channel (R453, R464). -/
def moverItem (m c : Nat) (i : Item) (b : Block) : Block :=
  let x := b.mover m
  let first := !(b.chute c).inPacket
  let tot := x.taken.length + i.bytes.length
  if i.isIdle then modChute c popItem b
  else if first && !i.sop then
    when (!(b.chute c).skipping) (framing c) (modChute c (fun h => { popItem h with inPacket := false, skipping := true }) b)
  else if !first && i.sop then
    modMover m (fun x => { x with chuteErr := some .portError, eop := true }) (modChute c breakOff b)
  else
    let bad : Option Status :=
      if i.isAbort then some .portError else if x.desc.len < tot || (x.desc.len == tot && !i.eop) then some .lengthMismatch else none
    modMover m (fun x => { x with taken := x.taken ++ i.bytes, eop := i.eop, chuteErr := bad })
      (modChute c (fun h => { popItem h with inPacket := !i.eop, skipping := false }) b)

/-- Take what the chute offers. -/
def moverItems (m c : Nat) : Nat → Block → Block
  | 0, b => b
  | n + 1, b =>
    let x := b.mover m
    if x.eop || x.chuteErr.isSome || !(readable (b.chute c) || idleNext (b.chute c)) || holding b 23 then b
    else match (b.chute c).items with
      | [] => b
      | i :: _ => moverItems m c n (moverItem m c i b)

/-- A chute free for a channel, or already its own (R452). -/
def chuteReady (b : Block) (m : Nat) (c : Option Nat) : Bool :=
  match c with
  | none => true
  | some c => let h := b.chute c
    h.mover == some (chanId m) || (h.mover.isNone && h.holder.isNone && !h.draining)
def takeChute (m : Nat) (c : Option Nat) (b : Block) : Block :=
  match c with
  | none => b
  | some c => modChute c (fun h => { h with mover := some (chanId m) }) b

/-- Grain `i` of a braid: way, offset in the way, bytes. -/
def grainOf (d : MDesc) (i : Nat) : Nat × Nat × Nat :=
  (i % d.ways.toNat, i / d.ways.toNat * d.grain, min d.grain (d.len - i * d.grain))
def grains (d : MDesc) : List Nat := List.range (ceilDiv d.len d.grain)

/-- Issue the reads of a move. -/
def moverReads (m : Nat) (b : Block) : Block :=
  let x := b.mover m
  let d := x.desc
  let b1 := modMover m (fun x => { x with issued := true, data := { want := if (moverIn d).isSome then 0 else d.len } }) b
  if (moverIn d).isSome then b1
  else if d.mop == 3 then
    each (grains d) (fun i b => let g := grainOf d i
      moverRead m (.moverData (chanId m)) (x.table.getD g.1 0 + BitVec.ofNat 64 g.2.1) (i * d.grain) g.2.2 b) b1
  else moverRead m (.moverData (chanId m)) d.src 0 d.len b1

/-- Write the data of a move to memory. -/
def moverWrites (m : Nat) (data : Bytes) (b : Block) : Block :=
  let x := b.mover m
  let d := x.desc
  if d.mop == 2 then
    each (grains d) (fun i b => let g := grainOf d i
      moverPut m (.moverData (chanId m)) (x.table.getD g.1 0 + BitVec.ofNat 64 g.2.1) (slice data (i * d.grain) g.2.2) b) b
  else moverPut m (.moverData (chanId m)) d.dst data b

/-- Put a packet into an outbound chute while there is room (R443, R446, R456). -/
def moverPush (m c : Nat) : Nat → Block → Block
  | 0, b => b
  | n + 1, b =>
    let x := b.mover m
    if x.outRest == [] || 509 ≤ placesTaken (b.chute c) || holding b 23 then b
    else
      let rest := x.outRest.drop 32
      let chunk := x.outRest.take 32
      moverPush m c n (modMover m (fun x => { x with outRest := rest, begun := true })
        (modChute c (fun h => { h with items := h.items ++ [{ data := fit 32 chunk, ctl := itemCtl chunk.length (rest == []) (!x.begun) }] }) b))

/-- The source is complete: write it, then the descriptor is to be ended with DONE. -/
def moverOutput (m : Nat) (b : Block) : Block :=
  let x := b.mover m
  let d := x.desc
  let src := if (moverIn d).isSome then x.taken else x.data.bytes
  let moved := if (moverIn d).isSome then src.length else d.len
  match moverOut d with
  | none => moverEnds m .done moved (moverWrites m (fit (roundUp src.length 64) src) b)
  | some c =>
    let b1 := if x.begun then b else modMover m (fun x => { x with outRest := fit d.len src }) b
    let b2 := moverPush m c (d.len / 32 + 1) b1
    if (b2.mover m).outRest == [] then moverEnds m .done moved b2 else b2

/-- The source data is there. -/
def moverSrcDone (x : Mover) : Bool := if (moverIn x.desc).isSome then x.eop && x.chuteErr.isNone else x.data.full

/-- The next step of a move of kind `mop`. -/
def moveStep (mop : Byte) (m : Nat) (b : Block) : Block :=
  let x := b.mover m
  if x.state != 2 || x.step != 3 || x.desc.mop != mop then b
  else if !x.issued then
    when (chuteReady b m (moverIn x.desc) && chuteReady b m (moverOut x.desc))
      (fun b => moverReads m (takeChute m (moverIn x.desc) (takeChute m (moverOut x.desc) b))) b
  else
    let b1 := match moverIn x.desc with | some c => moverItems m c ((b.chute c).items.length + 1) b | none => b
    let y := b1.mover m
    if y.data.err then moverBreaks m .portError b1
    else match y.chuteErr with
      | some st => moverBreaks m st b1
      | none => when (moverSrcDone y) (moverOutput m) b1

/-- COPY. -/
def execCopy (m : ChanId) (s : State) := updOn s 0 (moveStep 1 m.val)
/-- BRAID. -/
def execBraid (m : ChanId) (s : State) := updOn s 0 (moveStep 2 m.val)
/-- UNBRAID. -/
def execUnbraid (m : ChanId) (s : State) := updOn s 0 (moveStep 3 m.val)

/-! ## The end of a descriptor (R464, R466, R467) -/

/-- Bytes 48 to 63 of an ended descriptor. -/
def statusBytes (x : Mover) : Bytes := [0, 0] ++ toLe 2 x.mstatus.code ++ toLe 6 x.moved ++ zeros 6

/-- What follows the status write. -/
def moverNext (m : Nat) (b : Block) : Block :=
  let x := b.mover m
  let b1 := releaseChutes m b
  if x.mstatus != .done then
    raise evMoverHalted (toLe 1 m ++ toLe 2 x.mstatus.code) (modMover m (fun x => { x with state := 3, step := 0, pendingTrig := false }) b1)
  else
    let b2 := modMover m (fun x => { x with doneCount := satAdd 32 x.doneCount 1 }) b1
    let next := if x.desc.next == 0 then x.head else x.desc.next
    if x.desc.mflags.getLsbD 2 || x.desc.next == 0 then walkEnds m next b2
    else modMover m (fun x => { x with pos := next, step := 0 }) b2

/-- MOVER_DESCRIPTOR_END: the status write once the data writes are acknowledged, and what follows it. -/
def moverDescEnd (m : Nat) (b : Block) : Block :=
  let x := b.mover m
  if x.state != 2 || ownPending (fun o => o == .moverData (chanId m) || o == .moverStatus (chanId m)) b != 0 then b
  else if x.step = 4 then
    moverPut m (.moverStatus (chanId m)) (x.pos + 48) (statusBytes x) (modMover m (fun x => { x with step := 5 }) b)
  else if x.step = 5 then moverNext m b
  else b
def execMoverDescriptorEnd (m : ChanId) (s : State) := updOn s 0 (moverDescEnd m.val)

/-! ## FLUSH_NOW (R460) -/

/-- A write of FLUSH_NOW: every item, the put-back bytes and a partial item are discarded; a reader inside a packet is
given an abort marker; the channel that holds the chute ends its descriptor. When the EOP of its packet was among the items nothing of that
packet is left to drain (R455). -/
def flushNow (c : Nat) (b : Block) : Block :=
  let x := b.chute c
  let b1 := modChute c (fun h => { h with items := if 4 ≤ c && h.inPacket then [abortItem] else [], drained := drainedAfter h h.items.length
                                          putBack := [], landing := [], skipping := false, flush := none
                                          inPacket := 4 ≤ c && h.inPacket, released := 0 }) b
  match x.mover with
  | some m => moverBreaks m.val .portError (modMover m.val (fun y =>
      if 4 ≤ c then { y with begun := false, outRest := [] } else { y with eop := y.eop || 0 < packets x.items }) b1)
  | none => b1

/-- CHUTE_FLUSH_NOW: accepted for a chute of binding kind 3 alone. -/
def execChuteFlushNow (c : ChuteId) (x : Sender) (s : State) :=
  updReady s fun b => when (x.priv && bindKind (b.chute c.val) == 3) (flushNow c.val) b

end Sys2Proof.Machine
end

