-- ==== Sys2Proof/Machine/StallCmds.lean ====
section
/-!
DEFINITION. The stall commands (R29 to R40, R140 to R142, R399).
-/

namespace Sys2Proof.Machine

/-- State codes (R29). -/
def StallState.code : StallState → Nat
  | .free => 0 | .bound => 1 | .active => 2 | .quiescing => 3 | .quiesced => 4 | .halted => 5

/-- The reservation a stall takes by default: 8, or what the others leave (R196). -/
def defaultReserve (b : Block) (n : Nat) : Nat := min 8 (8192 - (reservedSum b - (b.stall n).reservedSlots))

/-- A stall's row at its defaults (R41), its statistics and nonce count kept (R212, R562). -/
def defaultStall (r : Nat) (s : Stall) : Stall :=
  { reservedSlots := r, nonceCount := s.nonceCount, jobsDone := s.jobsDone, jobsFailed := s.jobsFailed, demoted := s.demoted
    tapMismatches := s.tapMismatches, irqErrors := s.irqErrors, cqRetries := s.cqRetries }

/-- Requests of a stall's descriptor cache. -/
def cacheReq (n : Nat) (o : Owner) : Bool :=
  match o with
  | .desc s _ _ => s.val == n
  | .pblk s _ _ => s.val == n
  | _ => false

/-- The stall a command names. -/
def stallPar (c : Cmd) : Nat := c.par 0 2

/-- Clear every halt bit and HALT_CAUSE. -/
def clearHalts (s : Stall) : Stall :=
  { s with cqHalted := false, haltCause := 0
           rings := [0, 1, 2, 3].foldl (fun t r => t.mod r fun g => { g with halted := false }) s.rings }

/-! ## Create -/

/-- FREE becomes QUIESCED: defaults, indices 0, no process identifier, full urgent budgets (R30, R364). -/
def createStall (n : Nat) (b : Block) : Block :=
  refill n (modStall n (fun s => { defaultStall (defaultReserve b n) s with
    state := .quiesced, tokensAt := yardNow b, tokens := (2 ^ 40, 2 ^ 40, 2 ^ 40) }) b)

/-- The lowest stall that is FREE and has no command of its own group (R399). -/
def lowestFree (b : Block) : Option Nat := (List.range 512).find? fun n => (b.stall n).state == .free && !stallBusy b n

/-- STALL_CREATE. -/
def createChecks (b : Block) (c : Cmd) : Checks :=
  let n := stallPar c
  { pay := 2, bad := paramFails c.params [(0, 2)] 2 [(0, 2, 512 ≤ n && n != 0xFFFF)]
    state := if n < 512 && (b.stall n).state != .free then some (b.stall n).state.code else none }
def createBody (id : Nat) (c : Cmd) (b : Block) : Block :=
  let n := stallPar c
  if n < 512 then okCmd id (toLe 2 n) (createStall n b)
  else match lowestFree b with
    | some m => okCmd id (toLe 2 m) (createStall m b)
    | none => failCmd id rcNoSlot 0 b
def execStallCreate (cmd : Nat) (s : State) := updCmd s (fun c => c.op == 0x0101) createChecks createBody cmd

/-! ## The checks of R31 -/

/-- Base and bytes of the five rings. -/
def ringSpans (s : Stall) : List (Addr × Nat) :=
  [0, 1, 2, 3].map (fun r => ((s.ring r).base, (s.ring r).k)) ++ [(s.cqBase, s.cqK)]
/-- Two rings share a byte. -/
def spansMeet (x y : Addr × Nat) : Bool :=
  x.1.toNat < y.1.toNat + 64 * 2 ^ y.2 && y.1.toNat < x.1.toNat + 64 * 2 ^ x.2
/-- Some two of a list share a byte. -/
def someMeet : List (Addr × Nat) → Bool
  | [] => false
  | x :: l => l.any (spansMeet x) || someMeet l

/-- The first failing check of R31, numbered as R399 numbers it. -/
def bindFails (s : Stall) : Option Nat :=
  if (ringSpans s).any fun x => x.1 == 0 || !alignedTo x.1 4096 then some 1
  else if (ringSpans s).any fun x => x.2 < 4 || 15 < x.2 then some 2
  else if someMeet (ringSpans s) then some 3
  else match s.wasActive with
    | some w => if (s.cqBase, s.cqK) != w && !(s.cqProd == 0 && s.cqCons == 0) then some 4 else none
    | none => none

/-! ## Bind, resume, reset, destroy -/

/-- Parameters that name a stall and, beside it, the fields `more`. -/
def stallBad (c : Cmd) (more : List (Nat × Nat)) (need : Nat) (errs : List (Nat × Nat × Bool)) : Option Nat :=
  paramFails c.params ((0, 2) :: more) need ((0, 2, 512 ≤ stallPar c) :: errs)
/-- WRONG_STATE unless the stall is in one of the states. -/
def inStates (b : Block) (c : Cmd) (l : List StallState) : Option Nat :=
  if l.contains (b.stall (stallPar c)).state then none else some (b.stall (stallPar c)).state.code

/-- STALL_BIND. -/
def bindChecks (b : Block) (c : Cmd) : Checks :=
  { bad := stallBad c [(4, 4)] 8 [(6, 1, 16 ≤ c.par 6 1), (7, 1, c.par 7 1 != 0)], state := inStates b c [.quiesced] }
def bindBody (id : Nat) (c : Cmd) (b : Block) : Block :=
  let n := stallPar c
  match bindFails (b.stall n) with
  | some k => failCmd id rcCheckFailed k b
  | none => okCmd id [] (modStall n (fun s => { s with state := .bound, pid := some (BitVec.ofNat 20 (c.par 4 4)) }) b)
def execStallBind (cmd : Nat) (s : State) := updCmd s (fun c => c.op == 0x0102) bindChecks bindBody cmd

/-- STALL_RESUME. -/
def resumeChecks (b : Block) (c : Cmd) : Checks :=
  let s := b.stall (stallPar c)
  { bad := stallBad c [] 2 []
    state := if s.state == .quiesced && s.pid.isNone then some 4 else inStates b c [.bound, .halted, .quiesced] }
def resumeStall (n : Nat) (b : Block) : Block :=
  wake (modStall n (fun s => { clearHalts s with state := .active, wasActive := some (s.cqBase, s.cqK) }) b)
def resumeBody (id : Nat) (c : Cmd) (b : Block) : Block :=
  let n := stallPar c
  let s := b.stall n
  match (if s.state == .quiesced then bindFails s else none) with
  | some k => failCmd id rcCheckFailed k b
  | none => okCmd id [] (resumeStall n b)
def execStallResume (cmd : Nat) (s : State) := updCmd s (fun c => c.op == 0x0104) resumeChecks resumeBody cmd

/-- STALL_RESET: indices, cache, halts, coalescing state and tie-off pages (R38). -/
def resetRing (g : Ring) : Ring := { base := g.base, k := g.k }
def resetStall (n : Nat) (b : Block) : Block :=
  modStall n (fun s => { clearHalts s with
    rings := [0, 1, 2, 3].foldl (fun t r => t.mod r resetRing) s.rings
    cqProd := 0, cqCons := 0, cqIssue := 0, cqAcked := [], irqPending := 0, irqSince := none, wasActive := none })
    (dropReqs (cacheReq n) b)
def quiescedChecks (writes : Bool) (b : Block) (c : Cmd) : Checks :=
  { bad := stallBad c [] 2 [], writes, state := inStates b c [.quiesced] }
def resetBody (id : Nat) (c : Cmd) (b : Block) : Block := okCmd id [] (resetStall (stallPar c) b)
def execStallReset (cmd : Nat) (s : State) := updCmd s (fun c => c.op == 0x0105) (quiescedChecks false) resetBody cmd

/-- The channels granted to a stall lose ENABLE and their grant (R469). -/
def dropChannels (n : Nat) (b : Block) : Block :=
  each (List.range 16) (fun m b =>
    let granted := grantKind (b.mover m) == 2 && grantStall (b.mover m) == n
    let runs := (b.mover m).ctrl.getLsbD 0 && (granted || ((b.mover m).state != 0 && !(b.mover m).ident.priv && (b.mover m).ident.stall.toNat == n))
    when granted (modMover m fun x => { x with grant := 0 }) (when runs (disableMover m) b)) b

/-- STALL_DESTROY (R39, R184). Its stall-key slot is tagged anew, under the barn key, whose own tag is checked first (R189). -/
def destroyStall (n : Nat) (b : Block) : Block :=
  let b0 := checkSys 0 (dropChannels n (dropReqs (cacheReq n) b))
  let b1 := when (!skTagOk b0 n && (b0.sk n).state != 2) (skMarkBad n) b0
  let b2 := skRetag n (modSk n (fun k => { k with tenancyGen := k.tenancyGen + 1 }) b1)
  modStall n (defaultStall (defaultReserve b n)) b2
def destroyBody (id : Nat) (c : Cmd) (b : Block) : Block := okCmd id [] (destroyStall (stallPar c) b)
def execStallDestroy (cmd : Nat) (s : State) := updCmd s (fun c => c.op == 0x0106) (quiescedChecks true) destroyBody cmd

/-! ## Quiesce (R33, R140, R141) -/

def quiesceChecks (b : Block) (c : Cmd) : Checks :=
  { bad := stallBad c [(2, 1)] 3 [(2, 1, 1 < c.par 2 1)], state := inStates b c [.bound, .active, .halted] }

/-- BOUND is QUIESCED at once; a running stall is QUIESCING until nothing is in flight. -/
def startQuiesce (n : Nat) (b : Block) : Block :=
  quiesceDone n (modStall n (fun s => { s with state := if s.state = .bound then .quiesced else .quiescing }) b)

/-- Whether a job has not started. -/
def notStarted (j : Job) : Bool := j.stage == .waiting
/-- Whether a job has started and not finished: on an engine, in a frame, or waiting for its last writes (R27, R140). -/
def inRun (j : Job) : Bool := match j.stage with | .running | .retry | .hitched _ | .draining => true | _ => false

/-- Every dispatched job of a stall is aborted (R140). -/
def abortJobs (n : Nat) (b : Block) : Block :=
  let l := jobsOf b n
  let w := l.filter fun e => notStarted e.2
  let r := l.filter fun e => inRun e.2
  tryIssue n (each (w ++ r) (fun e => failRope e.2 .abortedQuiesce)
    (each r (fun e => runError e.1 .abortedQuiesce) (each w (fun e => endOne e.1 .abortedQuiesce) b)))

/-- The command's result follows when the stall reaches QUIESCED. -/
def quiesceBody (hard : Bool) (id : Nat) (c : Cmd) (b : Block) : Block :=
  let n := stallPar c
  if c.step == 0 then
    let b1 := cmdStep id 1 (when (hard && (b.stall n).state != .bound) (abortJobs n) (startQuiesce n b))
    when ((b1.stall n).state == .quiesced) (okCmd id []) b1
  else when ((b.stall n).state == .quiesced) (okCmd id []) b

/-- STALL_QUIESCE with MODE 0, and with a MODE that is out of range. -/
def execStallQuiesceSoft (cmd : Nat) (s : State) := updCmd s (fun c => c.op == 0x0103 && c.par 2 1 != 1) quiesceChecks (quiesceBody false) cmd
/-- STALL_QUIESCE with MODE 1. -/
def execStallQuiesceHard (cmd : Nat) (s : State) := updCmd s (fun c => c.op == 0x0103 && c.par 2 1 == 1) quiesceChecks (quiesceBody true) cmd

end Sys2Proof.Machine
end

