-- ==== Sys2Proof/Machine/KeyCmds.lean ====
section
/-!
DEFINITION. The key commands (R169, R179 to R195, R400 to R403): import, generation, signed updates, images,
attestation, destruction, custodians.
-/

namespace Sys2Proof.Machine

/-! ## Import and generation (R169, R401) -/

/-- The fields both commands take. -/
def newTarget (c : Cmd) : Nat := c.par 0 2
def newOwner (c : Cmd) : BitVec 16 := BitVec.ofNat 16 (c.par 2 2)
def newGrants (c : Cmd) : List (BitVec 16) := (List.range 8).map fun i => BitVec.ofNat 16 (c.par (4 + 2 * i) 2)
def newAlg (c : Cmd) : Nat := c.par 20 2
def newSize (c : Cmd) : Nat := c.par 22 2
def newGlobal (c : Cmd) : Bool := (newOwner c).getLsbD 15
/-- Whether a code names an algorithm these commands accept (R162, R313, R332): an RSA, ML-KEM or ML-DSA key can be imported, and
KEY_GENERATE makes none (R312, R333). -/
def newAlgOk (imp : Bool) (a : Nat) : Bool :=
  [0x01, 0x02, 0x03, 0x04, 0x10, 0x11, 0x12, 0x13, 0x14, 0x15, 0x23].contains a || (imp && [0x18, 0x20, 0x21].contains a)
/-- A byte that holds reserved bits 14 to 9 of an owner or grant entry. -/
def resvOwner (c : Cmd) (off : Nat) : Nat × Nat × Bool := (off + 1, 1, c.par (off + 1) 1 / 2 % 64 != 0)

/-- Fields out of range (R400, R401). -/
def newErrs (imp : Bool) (b : Block) (c : Cmd) : List (Nat × Nat × Bool) :=
  [(0, 2, 8192 ≤ newTarget c && newTarget c != 0xFFFF), resvOwner c 2]
    ++ ((List.range 8).map fun i => resvOwner c (4 + 2 * i))
    ++ ((List.range 8).map fun i => (4 + 2 * i, 2, !newGlobal c && ((newGrants c).getD i 0).getLsbD 15))
    ++ [(20, 2, !newAlgOk imp (newAlg c)), (22, 2, newAlgOk imp (newAlg c) && (materialLen b (newAlg c) (newSize c)).isNone)
       , (24, 1, 32 ≤ c.par 24 1), (25, 1, c.par 25 1 != 0), (27, 1, c.par 27 1 != 0), (32, 1, 4 ≤ c.par 32 1)
       , (33, 1, c.par 33 1 != 0), (34, 1, c.par 34 1 != 0), (35, 1, c.par 35 1 != 0), (36, 4, c.par 36 4 != 0)]
    ++ (List.range 12).map fun i => (40 + i, 1, c.par (40 + i) 1 != 0)

/-- The target slot is occupied or kept for a job's key. -/
def targetTaken (b : Block) (c : Cmd) : Bool :=
  newTarget c != 0xFFFF && ((b.slot (newTarget c)).occupied || spokenFor b (newTarget c))

def newChecks (imp : Bool) (b : Block) (c : Cmd) : Checks :=
  let n := c.par 52 2
  { pay := 8
    bad := if imp then paramFails c.params [(0, 54), (64, n)] (64 + n) (newErrs imp b c ++ [(52, 2, privateLen b (newAlg c) (newSize c) != some n)])
           else paramFails c.params [(0, 52)] 52 (newErrs imp b c)
    seals := sealedPin b, writes := true, waits := false
    state := if targetTaken b c then some 0 else none, program := 0x10 ≤ newAlg c }

/-- The value checks of R205, R313 and R314 on private material. -/
def rsaOk (size : Nat) (m : Bytes) : Bool :=
  let k := size / 8
  let e := leNat ((m.take 8).reverse)
  let p := rsaPart m k 0
  let q := rsaPart m k 1
  e % 2 == 1 && 3 ≤ e && p % 2 == 1 && q % 2 == 1 && 2 ^ (size - 1) ≤ p * q && p * q < 2 ^ size
    && e * rsaPart m k 2 % (p - 1) == 1 % (p - 1) && e * rsaPart m k 3 % (q - 1) == 1 % (q - 1) && q * rsaPart m k 4 % p == 1 % p
def materialOk (b : Block) (alg size : Nat) (m : Bytes) : Bool :=
  !xtsHalvesEqual alg m &&
  match alg with
  | 0x10 => 1 ≤ beNat m && beNat m < (nistCurve (nistOf size)).n
  | 0x15 => match curveOfTag b size with | some c => 1 ≤ beNat m && beNat m < recNum c.record 376 | none => false
  | 0x18 => rsaOk size m
  | _ => true

/-- The attributes of the new key. -/
def newSlot (imp : Bool) (b : Block) (c : Cmd) : Slot :=
  let a : Slot :=
    { alg := newAlg c, size := newSize c, engineMask := BitVec.ofNat 8 (c.par 24 1), uses := BitVec.ofNat 16 (c.par 26 2)
      useLimit := BitVec.ofNat 32 (c.par 28 4), owner := newOwner c
      kflags := kPinned ||| (if imp then (if c.par 32 1 % 2 == 1 then kExportable else 0) else kInside) }
  if newGlobal c then { a with grants := newGrants c, parent := globalParent } else stallKeyChild b ((newOwner c).toNat % 512) a

/-- Handle and GEN of an installed key. -/
def handlePay (b : Block) (i : Nat) : Bytes := toLe 4 (handleOf b i) ++ toLe 4 (b.slot i).gen.toNat

/-- What a waiting command meets at each of its steps, as at its first (R169, R401). -/
def newRefused (b : Block) (c : Cmd) : Option (Nat × Nat) :=
  if sealedPin b then some (rcSealed, 0) else if anyHold b then some (rcSupplyHeld, 0) else if targetTaken b c then some (rcWrongState, 0)
  else if 0x10 ≤ newAlg c && !b.pack.ready then some (rcNoProgram, 0) else none

/-- It waits for randomness, which the key's mask needs (R488), and a key pair for a free core, which computes its public part (R314,
R333). -/
def newWaits (b : Block) (c : Cmd) : Bool := noEntropy b || (0x10 ≤ newAlg c && (freeCore b).isNone)

/-- Install the new key, when slots can be taken and the material passes. KEY_GENERATE draws again, at its next step, while the material
fails a check, as an XTS key with equal halves does (R205, R314). -/
def newKeyOf (imp : Bool) (id : Nat) (c : Cmd) (b : Block) : Block :=
  let n := (materialLen b (newAlg c) (newSize c)).getD 0
  let who := if newGlobal c then none else some ((newOwner c).toNat % 512)
  match takeSlots who (ceilDiv n 64) true (if newTarget c == 0xFFFF then none else some (newTarget c)) b with
  | none => failCmd id rcNoSlot 0 b
  | some (l, b1) =>
    let m := slice c.params 64 (c.par 52 2)
    if imp && !materialOk b (newAlg c) (newSize c) m then failCmd id rcKeyRefused 0 b
    else if newWaits b c then b
    else
      let x := if imp then m else genMaterial b1 (newAlg c) (newSize c)
      let b2 := writeKey (newSlot imp b1 c) (wholeMaterial b1 (newAlg c) (newSize c) x) l (if imp then b1 else drew b1)
      if !imp && !materialOk b (newAlg c) (newSize c) x then drew b else okCmd id (handlePay b2 (l.headD 0)) b2

def newBody (imp : Bool) (id : Nat) (c : Cmd) (b : Block) : Block :=
  match newRefused b c with
  | some r => failCmd id r.1 r.2 b
  | none => newKeyOf imp id c b

def newKeyCmd (imp : Bool) (op cmd : Nat) (s : State) := updOn s 20 (runCmd (fun c => c.op == op) (newChecks imp) (newBody imp) cmd)

/-- KEY_IMPORT_CLEAR. -/
def execKeyImportClear (cmd : Nat) (s : State) := newKeyCmd true 0x0201 cmd s
/-- KEY_GENERATE, the command. -/
def execKeyGenerate (cmd : Nat) (s : State) := newKeyCmd false 0x0203 cmd s

/-! ## Images (R186, R187) -/

def imageLen : Nat := 24784
def imageKey (b : Block) : Bytes := (b.tack.sys.get 1).content
def custodian (b : Block) (i : Nat) : Bytes := (b.tack.sys.get (5 + i)).content

/-- The current tack-room image. -/
def imageOf (b : Block) : Bytes :=
  let head := [0x4D, 0x54, 0x52, 0x49, 1, 0, 0, 0] ++ toLe 8 b.tack.updateCounter ++ fit 16 (serialOf b) ++ drbgNow b 12 ++ zeros 20
  let keys := (List.range 512).flatMap fun n => toLe 1 (b.sk n).state ++ zeros 7 ++ fit 32 (b.sk n).material ++ fit 8 (b.sk n).fp
  let cust := (List.range 4).flatMap fun i => fit 32 (custodian b i)
  head ++ fit 24720 (Config.gcmSeal (imageKey b) (slice head 32 12) head (keys ++ cust))

/-- One stall-key slot from its image record; a key whose material is unchanged keeps its generation (assumption 20). -/
def loadKey (n : Nat) (r : Bytes) (b : Block) : Block :=
  let valid := field r 0 1 == 1
  let m := if valid then slice r 8 32 else zeros 32
  skRetag n (modSk n (fun k => { k with
    state := if valid then 1 else 0, material := m, fp := if valid then slice r 40 8 else zeros 8
    keyGen := if k.material == m then k.keyGen else k.keyGen + 1 }) b)
/-- A custodian's fingerprint is written or cleared; a BAD slot stays BAD until a restore (R185, R189). -/
def setCustodian (i : Nat) (x : Bytes) (b : Block) : Block :=
  let bad := (b.tack.sys.get (5 + i)).bad
  modTack (fun t => { t with sys := t.sys.mod (5 + i) fun s => { s with bad } }) (setSys (5 + i) x b)
/-- Load stall keys and fingerprints from an opened image. -/
def loadImage (pt : Bytes) (b : Block) : Block :=
  each (List.range 4) (fun i => let f := slice pt (24576 + 32 * i) 32; setSys (5 + i) (if allZero f then [] else f))
    (each (List.range 512) (fun n => loadKey n (slice pt (48 * n) 48)) b)

/-! ## Signed updates (R179 to R184, R402) -/

def updIn (c : Cmd) : Addr := BitVec.ofNat 64 (c.par 8 8)
def updLen (c : Cmd) : Nat := c.par 16 4
def updOut (c : Cmd) : Addr := BitVec.ofNat 64 (c.par 24 8)

def updChecks (_ : Block) (c : Cmd) : Checks :=
  { right := if c.par 0 1 == 0 then .any else .manager, pay := 10, writes := true
    bad := paramFails c.params [(0, 1), (8, 8), (16, 4), (24, 8)] 32
      [(0, 1, 1 < c.par 0 1), (8, 8, c.par 8 8 % 16 != 0), (16, 4, c.par 0 1 == 1 && updLen c != imageLen), (24, 8, c.par 24 8 % 16 != 0)] }

/-- The form of a message (R402). -/
def msgLmsLen (m : Bytes) : Nat := field m 34 2
def formOk (len : Nat) (m : Bytes) : Bool :=
  m.take 4 == [0x4D, 0x55, 0x50, 0x44] && field m 4 1 == 1 && (field m 5 1 == 1 || field m 5 1 == 2) && field m 6 2 ≤ 511
    && field m 32 1 ≤ 3 && 1 ≤ msgLmsLen m && msgLmsLen m ≤ 16384 && len == 1488 + roundUp (msgLmsLen m) 16
    && (field m 5 1 == 1 || allZero (slice m 64 1168))

/-- Conditions 2 to 4 of R182: the first that fails. -/
def msgFails (b : Block) (m : Bytes) : Option Nat :=
  let cust := custodian b (field m 32 1)
  if field m 33 1 != 0 || !allZero (slice m 36 28) || slice m 8 16 != serialOf b then some 2
  else if cust == [] || (b.tack.sys.get (5 + field m 32 1)).bad || sha3 (slice m 1232 160) != cust then some 3
  else if !(p384Verifies (slice m 1232 96) (m.take 1392) (slice m 1392 96)
      && lmsVerifies (slice m 1328 64) (m.take 1392) (slice m 1488 (msgLmsLen m))) then some 4
  else none

/-- The stall key an INSTALL message carries, when it decapsulates (R182). -/
def msgKey (b : Block) (m : Bytes) : Option Bytes :=
  let s := updateSecrets (b.tack.sys.get 4).content (slice m 64 1088) (slice m 1152 32)
  (Config.gcmOpen (kmac256 s (m.take 64) 32 (ascii "mbaora update")) (zeros 12) (m.take 64) (slice m 1184 48)).map (fit 32)

/-- Install or destroy a stall key (R184). -/
def installSk (n : Nat) (key : Bytes) (b : Block) : Block :=
  skRetag n (modSk n (fun k => { k with material := key, fp := skFp key, state := 1, keyGen := k.keyGen + 1 }) b)
def destroySk (n : Nat) (b : Block) : Block :=
  skRetag n (modSk n (fun k => { k with material := zeros 32, fp := zeros 8, state := 0, keyGen := k.keyGen + 1 }) b)

/-- The change of a command under R183; it ends a replay (R187). The barn key, under which the slot's tag is computed, is used: its own tag
is checked first (R189). -/
def applyChange (c : Cmd) (b : Block) : Block :=
  let b := checkSys 0 b
  let b1 :=
    if c.op == 0x0202 then
      let m := c.input.bytes
      if field m 5 1 == 1 then (match msgKey b m with | some k => installSk (field m 6 2) k b | none => b) else destroySk (field m 6 2) b
    else if c.op == 0x0205 then destroySk (c.par 0 4 % 512) b
    else setCustodian (c.par 0 1) (if c.par 1 1 == 1 then sha3 (slice c.params 16 160) else []) b
  modTack (fun t => { t with replay := false }) b1

/-- Result payload of an update (R400). -/
def updPay (b : Block) (c : Cmd) (image : Bool) : Bytes :=
  toLe 8 b.tack.updateCounter ++ (if c.op == 0x0202 then toLe 1 b.tack.replay.toNat ++ toLe 1 image.toNat else [])

/-- Where a command's image goes. -/
def imageAddr (c : Cmd) : Addr := if c.op == 0x0202 then updOut c else BitVec.ofNat 64 (c.par 8 8)

/-- Make the change and write the new image (steps 3 and 4 of R183); also when the system slots have been zeroed since the ADVANCE, under the
emptied image key (DESIGN CHOICE, assumption 114). -/
def changeAndImage (id : Nat) (c : Cmd) (b : Block) : Block :=
  let b1 := useClassC (applyChange c b)
  ymWrite (.image id) (imageAddr c) (imageOf b1) (cmdStep id 4 (drew b1))

/-- A command's writes of the tack room wait while any island holds (R398, R485). -/
def tackWrite (id : Nat) (f : Block → Block) (b : Block) : Block :=
  if anyHold b then modCmd id (fun c => { c with waitSince := some (c.waitSince.getD b.now) }) b else f b

/-- A change writes the tack room and draws its image's nonce (R186, R488). -/
def changeWrite (id : Nat) (c : Cmd) (b : Block) : Block := if noEntropy b then b else tackWrite id (changeAndImage id c) b

/-- Step 2 of R183: ADVANCE of cell 1, or none in a replay. -/
def advanceAndChange (id : Nat) (c : Cmd) (b : Block) : Block :=
  if b.tack.replay then changeWrite id c b else cmdAsk id 1 1 1 3 b

/-- A command whose ADVANCE has been answered, or whose image writes are acknowledged (R183, R398). -/
def changeTail (id : Nat) (c : Cmd) (b : Block) : Block :=
  if c.step == 3 then
    if c.sb == 2 then changeWrite id c b else when (c.sb == 3) (failCmd id rcStudbookFailed 0) b
  else when (c.step == 4 && ownPending (fun o => o == .image id) b == 0) (okCmd id (updPay b c (c.note == 0))) b

/-- Ask for cell 1 when the counter is not known (R545); `f` goes on once it is. -/
def withCounter (id : Nat) (c : Cmd) (f : Block → Block) (b : Block) : Block :=
  if b.tack.counterKnown then f b
  else if c.step != 2 || c.sb == 2 then cmdAsk id 0 1 0 2 b
  else when (c.sb == 3) (failCmd id rcStudbookFailed 0) b

/-- Conditions 5 and 6 of R182, then the change. -/
def msgCount (id : Nat) (c : Cmd) (b : Block) : Block :=
  let m := c.input.bytes
  let b := useSys 4 b
  if field m 24 8 != b.tack.updateCounter + (if b.tack.replay then 0 else 1) then failCmd id rcCheckFailed 5 b
  else if field m 5 1 == 1 && (msgKey b m).isNone then failCmd id rcCheckFailed 6 b
  else advanceAndChange id c b

/-- A message that has arrived: its form, NO_PROGRAM, conditions 2 to 4, then the counter. -/
def msgRead (id : Nat) (c : Cmd) (b : Block) : Block :=
  let m := c.input.bytes
  let b := useSys (5 + field m 32 1 % 4) b
  if c.input.err then failCmd id rcCheckFailed 8 b
  else if !formOk (updLen c) m then failCmd id rcCheckFailed 7 b
  else if field m 5 1 == 1 && !b.pack.ready then failCmd id rcNoProgram 0 b
  else match msgFails b m with
    | some k => failCmd id rcCheckFailed k b
    | none => withCounter id c (msgCount id c) b

/-- Read a message, no longer than any can be. -/
def msgAsk (id : Nat) (c : Cmd) (b : Block) : Block :=
  if b.lc != 2 then failCmd id rcCheckFailed 1 b
  else
    let n := min (updLen c) 17872
    if n == 0 then failCmd id rcCheckFailed 7 b
    else ymRead (.input id) (updIn c) 0 n (modCmd id (fun c => { c with step := 1, input := { want := n } }) b)

/-- The row a message belongs to: KIND 0x02 is DESTROY's, everything else INSTALL's. -/
def msgMine (install : Bool) (c : Cmd) : Bool :=
  c.step == 0 || (c.step == 1 && !(c.input.full || c.input.err)) || (field c.input.bytes 5 1 == 2) != install
def updateBody (install : Bool) (id : Nat) (c : Cmd) (b : Block) : Block :=
  if !msgMine install c then b
  else if c.step == 0 then msgAsk id c b
  else if c.step == 1 then when (c.input.full || c.input.err) (msgRead id c) b
  else if c.step == 2 then withCounter id c (msgCount id c) b
  else changeTail id c b
def isUpdate (c : Cmd) : Bool := c.op == 0x0202 && c.par 0 1 != 1

/-- INSTALL. -/
def execInstall (cmd : Nat) (s : State) := updCmd s isUpdate updChecks (updateBody true) cmd
/-- DESTROY. -/
def execDestroy (cmd : Nat) (s : State) := updCmd s isUpdate updChecks (updateBody false) cmd

/-- What an image opens to: in FIELD alone, under an image key that is held and not BAD (R180, R187). -/
def imageOpens (b : Block) (x : Bytes) : Option Bytes :=
  if b.lc == 2 && barnHeld b && imageKey b != [] && !(b.tack.sys.get 1).bad then
    Config.gcmOpen (imageKey b) (slice x 32 12) (x.take 64) (x.drop 64) else none

/-- An image that opens, of this part: its counter is judged, and it is loaded (R187, R402). -/
def imageCount (id : Nat) (c : Cmd) (pt : Bytes) (b : Block) : Block :=
  let n := field c.input.bytes 8 8
  if n == b.tack.updateCounter || n + 1 == b.tack.updateCounter then
    tackWrite id (fun b =>
      let b1 := modTack (fun t => { t with replay := n != b.tack.updateCounter }) (loadImage pt b)
      okCmd id (updPay b1 c false) b1) b
  else failCmd id rcCheckFailed 18 b

/-- An image that has been read: whether it opens and whose it is come before the counter, which may have to be read first (R180, R187,
R402). -/
def imageJudge (id : Nat) (c : Cmd) (b : Block) : Block :=
  let x := c.input.bytes
  match imageOpens b x with
  | none => failCmd id rcCheckFailed 16 b
  | some pt => if slice x 16 16 != serialOf b then failCmd id rcCheckFailed 17 b else withCounter id c (imageCount id c pt) b

def restoreBody (id : Nat) (c : Cmd) (b : Block) : Block :=
  if c.step == 0 then ymRead (.input id) (updIn c) 0 imageLen (modCmd id (fun c => { c with step := 1, input := { want := imageLen } }) b)
  else if c.input.err then failCmd id rcCheckFailed 19 b
  else when c.input.full (fun b => imageJudge id c (useSys 1 b)) b

/-- TACK_ROOM_IMAGE_RESTORE. -/
def execTackRoomImageRestore (cmd : Nat) (s : State) := updCmd s (fun c => c.op == 0x0202 && c.par 0 1 == 1) updChecks restoreBody cmd

/-! ## Destruction and custodians (R185, R191, R403) -/

/-- A handle that names no key of KEY_DESTROY (R157, R403). -/
def destroyBad (b : Block) (h : Nat) : Bool :=
  match workingOf b h with
  | some i => !(b.slot i).valid || (b.slot i).runPart
  | none => !((stallKeyOf h).isSome || (h / 2 ^ 20 == 2 && h / 16 % 2 ^ 16 == 0))
def destroyChecks (b : Block) (c : Cmd) : Checks :=
  let h := c.par 0 4
  { right := .gate 1, pay := 8, writes := true
    bad := paramFails c.params [(0, 4), (8, 8)] 16 [(0, 4, destroyBad b h), (8, 8, c.par 8 8 % 16 != 0)]
    state := if h / 2 ^ 20 == 2 then some 0
      else match stallKeyOf h with | some m => if (b.sk m).state == 0 then some 0 else none | none => none }
def keyDestroyBody (id : Nat) (c : Cmd) (b : Block) : Block :=
  if c.step != 0 then (if c.step == 2 then withCounter id c (advanceAndChange id c) b else changeTail id c b)
  else match workingOf b (c.par 0 4) with
    | some i => let b1 := dropKey i b; okCmd id (updPay b1 c false) b1
    | none => withCounter id c (advanceAndChange id c) b
/-- KEY_DESTROY. -/
def execKeyDestroy (cmd : Nat) (s : State) := updCmd s (fun c => c.op == 0x0205) destroyChecks keyDestroyBody cmd

def custodianChecks (b : Block) (c : Cmd) : Checks :=
  { right := .gate 1, pay := 8, writes := true, seals := !barnHeld b
    bad := paramFails c.params [(0, 1), (1, 1), (8, 8), (16, 160)] 176
      [(0, 1, 3 < c.par 0 1), (1, 1, c.par 1 1 != 1 && c.par 1 1 != 2), (8, 8, c.par 8 8 % 16 != 0)] }
def custodianBody (id : Nat) (c : Cmd) (b : Block) : Block :=
  if c.step == 0 || c.step == 2 then withCounter id c (advanceAndChange id c) b else changeTail id c b
/-- CUSTODIAN_ENROLL: OP 1, or an OP out of range. -/
def execCustodianEnroll (cmd : Nat) (s : State) := updCmd s (fun c => c.op == 0x0206 && c.par 1 1 != 2) custodianChecks custodianBody cmd
/-- CUSTODIAN_CLEAR: OP 2. -/
def execCustodianClear (cmd : Nat) (s : State) := updCmd s (fun c => c.op == 0x0206 && c.par 1 1 == 2) custodianChecks custodianBody cmd

/-- What a command leaves behind although Nartia restarts: a change whose ADVANCE is acknowledged completes, its image lost; the gate's
count is the cell's; a PACK_LOAD that has begun to write the cores leaves no pack loaded (R387, R412, R545). The counter and the floor
stand since the studbook's answer. A PACK_LOAD whose result is not acknowledged ends with ABORTED too, and leaves no pack. An OD_WRITE that
has begun an item's burn makes all of its changes. Changes wait for the end of a supply hold (R485). -/
def completeChange (e : Nat × Cmd) (b : Block) : Block :=
  let c := e.2
  let later := modYm fun y => { y with changesDue := y.changesDue ++ [c] }
  if c.aborted then b
  else if c.op == 0x0303 then when (3 ≤ c.phase && c.phase ≤ 5 && c.step == 6) (fun b => { b with pack := {} }) b
  else if c.phase != 3 then b
  else if c.op == 0x0502 then when c.waitSince.isSome later b
  else if c.sb != 2 then b
  else if c.step == 3 && (c.op == 0x0202 || c.op == 0x0205 || c.op == 0x0206) then (if anyHold b then later b else applyChange c b)
  else if (c.step == 2 || c.step == 4) && (c.op == 0x0404 || c.op == 0x0405) then
    modGate (fun g => { g with cell := c.sbVal, fails := c.sbVal % 256 }) b
  else b

/-! ## Attestation (R194, R195) -/

/-- CBOR heads and items of RFC 8949, in preferred serialization (assumption 21). -/
def cborHead (major n : Nat) : Bytes :=
  if n < 24 then toLe 1 (major * 32 + n)
  else if n < 2 ^ 8 then toLe 1 (major * 32 + 24) ++ toBe 1 n
  else if n < 2 ^ 16 then toLe 1 (major * 32 + 25) ++ toBe 2 n
  else if n < 2 ^ 32 then toLe 1 (major * 32 + 26) ++ toBe 4 n
  else toLe 1 (major * 32 + 27) ++ toBe 8 n
def cborUint (n : Nat) : Bytes := cborHead 0 n
def cborBytes (x : Bytes) : Bytes := cborHead 2 x.length ++ x
def cborArray (l : List Bytes) : Bytes := cborHead 4 l.length ++ l.flatten
def cborBool (x : Bool) : Bytes := if x then [0xF5] else [0xF4]
def cborMap (l : List (Nat × Bytes)) : Bytes := cborHead 5 l.length ++ l.flatMap fun e => cborUint e.1 ++ e.2

/-- What the handle of an attestation names: a working slot, a stall-key slot, or the identity material. -/
inductive Subject where
  | working (i : Nat) | stallKey (m : Nat) | identity
  deriving DecidableEq, Repr
def attestSubject (b : Block) (h : Nat) : Option Subject :=
  match workingOf b h, stallKeyOf h with
  | some i, _ => if (b.slot i).valid && !(b.slot i).runPart then some (.working i) else none
  | none, some m => some (.stallKey m)
  | none, none => if h == 2 ^ 21 + 3 then some .identity else none

/-- [kind, fingerprint] from a key up to its stall key. A parent is the slot its handle names: of an orphaned key that the sweep has not
reached, the chain shows what that slot holds now (DESIGN CHOICE, assumption 95). -/
def chainOf (b : Block) : Nat → Nat → List Bytes
  | 0, _ => []
  | n + 1, i =>
    let s := b.slot i
    let me := cborArray [cborUint 0, cborBytes (keyFp b (keyMaterial b i))]
    let p := s.parent.toNat % 2 ^ 24
    if s.isGlobal || s.parent.toNat / 2 ^ 24 == 0 then [me]
    else if s.parent.toNat / 2 ^ 24 == 1 then [me, cborArray [cborUint 1, cborBytes (b.sk (p % 512)).fp]]
    else me :: chainOf b n (p % 8192)

/-- Bytes of material before the public key of a key pair; a key on a curve that is no longer loaded keeps its lengths. -/
def publicAt (b : Block) (s : Slot) : Option Nat :=
  if s.alg == 0x23 then (materialLen b s.alg s.size).map (· / 2)
  else if s.alg == 0x15 then some ((privateLen b s.alg s.size).getD s.priv)
  else privateLen b s.alg s.size
/-- The public key of a key pair. An RSA key is n, big-endian, then the 8 bytes of e (assumption 58). -/
def publicOf (b : Block) (i : Nat) : List (Nat × Bytes) :=
  let s := b.slot i
  let m := keyMaterial b i
  if s.alg < 0x10 then []
  else if s.alg == 0x22 then [(15, cborBytes (lmsPublic s.size m))]
  else if s.alg == 0x18 then [(15, cborBytes (toBe (s.size / 8) (rsaPart m (s.size / 8) 0 * rsaPart m (s.size / 8) 1) ++ m.take 8))]
  else match publicAt b s with
    | some n => [(15, cborBytes (m.drop n))]
    | none => []

def identityKey (b : Block) : Bytes := (b.tack.sys.get 3).content
/-- The two identity public keys. -/
def identityPub (b : Block) : Bytes := identityKeys (identityKey b)
/-- IDENTITY_FP (R559). -/
def identityFp (b : Block) : Bytes := if identityKey b == [] then zeros 32 else sha3 (identityPub b)
/-- VERSION (R2). -/
def versionWord : Nat := 0x00020100 + Config.patchLevel.toNat

/-- The payload map of R195. -/
def attestMap (b : Block) (c : Cmd) (x : Subject) : Bytes :=
  let nonce := slice c.params 32 (c.par 4 1)
  let head := [(1, cborBytes (fit 16 (serialOf b))), (2, cborUint b.lc), (3, cborUint versionWord), (4, cborUint (c.par 0 4))]
  let tail := [(16, cborBytes nonce), (17, cborUint b.boot.epoch)]
  match x with
  | .identity => cborMap (head ++ [(15, cborBytes (identityPub b))] ++ tail)
  | .stallKey m => cborMap (head ++ [(5, cborUint 5), (6, cborUint 256), (7, cborUint 8), (8, cborUint 0x30), (9, cborUint m)
      , (12, cborBool false), (14, cborArray [cborArray [cborUint 1, cborBytes (b.sk m).fp]])] ++ tail)
  | .working i =>
    let s := b.slot i
    cborMap (head ++ [(5, cborUint s.alg), (6, cborUint s.size), (7, cborUint s.engineMask.toNat), (8, cborUint s.uses.toNat)
      , (9, if s.isGlobal then [0x20] else cborUint s.ownerStall)]
      ++ (if s.isGlobal then [(10, cborArray ((s.grants.filter fun g => g.getLsbD 15).map fun g => cborUint (g.toNat % 512)))] else [])
      ++ [(11, cborBool (has s.kflags kInside)), (12, cborBool (has s.kflags kExportable))]
      ++ (if s.useLimit = 0xFFFFFFFF then [] else [(13, cborUint s.useLimit.toNat)])
      ++ [(14, cborArray (chainOf b 4 i))] ++ publicOf b i ++ tail)

/-- A protected header: algorithm and kid. -/
def protectedHead (b : Block) (alg : Bytes) : Bytes := cborHead 5 2 ++ cborUint 1 ++ alg ++ cborUint 4 ++ cborBytes (identityFp b)
/-- What a signature signs: the Sig_structure of RFC 9052. -/
def sigStructure (p payload : Bytes) : Bytes :=
  cborArray [cborHead 3 9 ++ ascii "Signature", cborBytes [], cborBytes p, cborBytes [], cborBytes payload]
/-- One COSE_Signature under a protected header. -/
def coseSig (p sig : Bytes) : Bytes := cborArray [cborBytes p, cborHead 5 0, cborBytes sig]
/-- The COSE_Sign structure: ES384 (−35), then ML-DSA-65 (−49), with a per-message secret and an rnd of their own. -/
def statement (b : Block) (c : Cmd) (x : Subject) : Bytes :=
  let payload := attestMap b c x
  let p1 := protectedHead b (cborHead 1 34)
  let p2 := protectedHead b (cborHead 1 48)
  let m := identityKey b
  cborHead 6 98 ++ cborArray [cborBytes [], cborHead 5 0, cborBytes payload
    , cborArray [coseSig p1 (identityEs384 m (sigStructure p1 payload) (drbgNow b 56)),
                 coseSig p2 (identityMlDsa m (sigStructure p2 payload) (drbgNow (drew b) 32))]]

def attestChecks (b : Block) (c : Cmd) : Checks :=
  let n := c.par 4 1
  { pay := 4, seals := !barnHeld b, program := true
    bad := paramFails c.params [(0, 4), (4, 1), (8, 8), (16, 4), (32, 64)] (32 + n)
      [(0, 4, (attestSubject b (c.par 0 4)).isNone), (4, 1, n < 8 || 64 < n), (8, 8, c.par 8 8 % 16 != 0)] }
/-- The identity material, and the stall key that the named key rests on, are used (R189). -/
def useAttested (h : Nat) (b : Block) : Block :=
  let b := useSys 3 b
  match attestSubject b h with
  | some (.stallKey m) => checkSk m b
  | some (.working i) => if (b.slot i).isGlobal then b else checkSk (b.slot i).ownerStall b
  | _ => b
def attestBody (id : Nat) (c : Cmd) (b : Block) : Block :=
  if c.step != 0 then
    when (ownPending (fun o => o == .image id) b == 0) (fun b => if c.note != 0 then endNotice id 2 b else okCmd id c.keep b) b
  else if noEntropy b then b
  else
  let b := useAttested (c.par 0 4) b
  match attestSubject b (c.par 0 4) with
    | none => b
    | some x =>
      let st := statement b c x
      if c.par 16 4 < st.length then spaceCmd id st.length b
      else ymWrite (.image id) (BitVec.ofNat 64 (c.par 8 8)) st (modCmd id (fun c => { c with step := 1, keep := toLe 4 st.length }) (drew (drew b)))
/-- KEY_ATTEST. -/
def execKeyAttest (cmd : Nat) (s : State) := updCmd s (fun c => c.op == 0x0204) attestChecks attestBody cmd

end Sys2Proof.Machine
end

