-- ==== Sys2Proof/Machine/Fuses.lean ====
section
/-!
DEFINITION. The fuse array (R145 to R148, R503, R522, R549): sensing and burning. The only operations that
write fuse cells are here.
-/

namespace Sys2Proof.Machine

/-- `n` bytes of a fuse region from bit `off`. -/
def fuseBytes {w : Nat} (v : BitVec w) (off n : Nat) : Bytes := toLe n (v.toNat / 2 ^ off)

/-- A field held in two copies of `n` bytes from bit `off`: its value when burnt, and whether it is damaged (R145, R522). -/
def twoCopy {w : Nat} (v : BitVec w) (off n : Nat) : Option Bytes × Bool :=
  let x := fuseBytes v off n
  if x != fuseBytes v (off + 8 * n) n then (none, true) else if allZero x then (none, false) else (some x, false)

/-- Burnt copies of an eight-copy field. -/
def eightCount {w : Nat} (v : BitVec w) (off : Nat) : Nat := ((List.range 8).filter fun i => v.getLsbD (off + i)).length
/-- Five or more burnt copies count as burnt; one to seven are damage (R145, R522). -/
def eightBurnt {w : Nat} (v : BitVec w) (off : Nat) : Bool := 5 ≤ eightCount v off
def eightDamaged {w : Nat} (v : BitVec w) (off : Nat) : Bool := 1 ≤ eightCount v off && eightCount v off ≤ 7

/-- A bit vector from its bits, lowest first. -/
def bitsOf (w : Nat) (l : List Bool) : BitVec w := BitVec.ofNat w (l.foldr (fun x n => x.toNat + 2 * n) 0)

/-- The check code of WEAR_BASE is right (R503). -/
def wearOk (base : Bytes) (check : Bytes) : Bool := !allZero base && check == (sha3 base).take 24

/-- FUSE_DAMAGE (R522). -/
def damageOf (f : FuseArray) : BitVec 15 :=
  bitsOf 15 ([0, 1, 2, 3].map (fun r => (twoCopy f.roots (512 * r) 32).2)
    ++ [ (twoCopy f.gateKeyHash 0 32).2, (twoCopy f.gatePwHash 0 32).2, (twoCopy f.packKeyHash 0 32).2, (twoCopy f.serial 0 16).2
       , (twoCopy f.srcRetire 0 16).2, eightDamaged f.tether 0
       , f.wearBase != 0 && !wearOk (fuseBytes f.wearBase 0 264) (fuseBytes f.wearBase 2112 24) ]
    ++ [0, 1, 2, 3].map fun g => eightDamaged f.lcGroups (8 * g))

/-- The array as it is sensed: with REPAIR burnt, spare cells stand for some; which, its format does not say (R519; assumption 49). -/
def corrected (f : FuseArray) : FuseArray :=
  if f.repair == 0 then f
  else
    let fix := fun {w : Nat} (k : Nat) (v : BitVec w) => BitVec.ofNat w (Config.repaired f.repair.toNat k v.toNat)
    { lcGroups := fix 0 f.lcGroups, roots := fix 1 f.roots, gateKeyHash := fix 2 f.gateKeyHash, gatePwHash := fix 3 f.gatePwHash
      packKeyHash := fix 4 f.packKeyHash, serial := fix 5 f.serial, srcRetire := fix 6 f.srcRetire, tether := fix 7 f.tether
      wearBase := fix 8 f.wearBase, repair := f.repair }
/-- What the corrected cells say (R145, R522). -/
def senseCells (f : FuseArray) : Sensed :=
  { lc := bitsOf 4 ([0, 1, 2, 3].map fun g => eightBurnt f.lcGroups (8 * g))
    roots := [0, 1, 2, 3].map fun r => (twoCopy f.roots (512 * r) 32).1
    gateKeyHash := (twoCopy f.gateKeyHash 0 32).1
    gatePwHash := (twoCopy f.gatePwHash 0 32).1
    packKeyHash := (twoCopy f.packKeyHash 0 32).1
    serial := (twoCopy f.serial 0 16).1
    srcRetire := f.srcRetire.extractLsb' 0 128 &&& f.srcRetire.extractLsb' 128 128
    tether := eightBurnt f.tether 0
    wearBase := (List.range 22).map fun i => fuseBytes f.wearBase (96 * i) 12
    wearCheck := fuseBytes f.wearBase 2112 24
    wearUsable := wearOk (fuseBytes f.wearBase 0 264) (fuseBytes f.wearBase 2112 24)
    damage := damageOf f }
/-- Start-up step 2: the array is sensed once, with its correction (R519, R522). -/
def sense (f : FuseArray) : Sensed := senseCells (corrected f)

/-! ## Burning -/

/-- Two copies of a value side by side. -/
def dup (n : Nat) (x : Bytes) : Nat := leNat (fit n x ++ fit n x)

/-- The cells a burn of `x` sets, all copies together, as a number over the field's region. -/
def burnMask (fld : FuseField) (x : Bytes) : Nat :=
  match fld with
  | .lcGroup g => 0xFF * 2 ^ (8 * g.val)
  | .roots => leNat ([0, 1, 2, 3].flatMap fun r => slice x (32 * r) 32 ++ slice x (32 * r) 32)
  | .gateKeyHash | .gatePwHash | .packKeyHash => dup 32 x
  | .serial | .srcRetire => dup 16 x
  | .tether => if allZero x then 0 else 0xFF
  | .wearBase i => leNat (fit 12 x) * 2 ^ (96 * i.val)
  | .wearCheck => leNat (fit 24 x) * 2 ^ 2112

/-- Set the cells of a mask. -/
def setCells (fld : FuseField) (m : Nat) (f : FuseArray) : FuseArray :=
  match fld with
  | .lcGroup _ => { f with lcGroups := f.lcGroups ||| BitVec.ofNat 32 m }
  | .roots => { f with roots := f.roots ||| BitVec.ofNat 2048 m }
  | .gateKeyHash => { f with gateKeyHash := f.gateKeyHash ||| BitVec.ofNat 512 m }
  | .gatePwHash => { f with gatePwHash := f.gatePwHash ||| BitVec.ofNat 512 m }
  | .packKeyHash => { f with packKeyHash := f.packKeyHash ||| BitVec.ofNat 512 m }
  | .serial => { f with serial := f.serial ||| BitVec.ofNat 256 m }
  | .srcRetire => { f with srcRetire := f.srcRetire ||| BitVec.ofNat 256 m }
  | .tether => { f with tether := f.tether ||| BitVec.ofNat 8 m }
  | .wearBase _ | .wearCheck => { f with wearBase := f.wearBase ||| BitVec.ofNat 2304 m }

/-- Whether any cell of a field is burnt. -/
def touched (fld : FuseField) (f : FuseArray) : Bool :=
  match fld with
  | .lcGroup g => f.lcGroups &&& BitVec.ofNat 32 (0xFF * 2 ^ (8 * g.val)) != 0
  | .roots => f.roots != 0
  | .gateKeyHash => f.gateKeyHash != 0
  | .gatePwHash => f.gatePwHash != 0
  | .packKeyHash => f.packKeyHash != 0
  | .serial => f.serial != 0
  | .srcRetire => f.srcRetire != 0
  | .tether => f.tether != 0
  | .wearBase i => !allZero (fuseBytes f.wearBase (96 * i.val) 12)
  | .wearCheck => !allZero (fuseBytes f.wearBase 2112 24)

/-- The lowest set bit of a number. -/
def lowBit (n : Nat) : Nat := n ^^^ (n &&& (n - 1))
/-- The cells of the roots that a burn which pauses, or goes wrong, has set: some of them, but never the first of the identity root's second
copy, while the same cell of its first copy is set as soon as any of that root is, and always when the burn goes wrong. The copies of that root
then disagree whatever an earlier pause has set, so the part never has a consistent root set (R147; assumption 59). -/
def partRoots (wrong : Bool) (m free : Nat) : Nat :=
  let spare := lowBit (m / 2 ^ 1792)
  let y := (m &&& free) &&& (2 ^ 2048 - 1 - spare * 2 ^ 1792)
  if wrong || y / 2 ^ 1536 != 0 then y ||| spare * 2 ^ 1536 else y
/-- The cells after a burn: all of them, or, when the burn goes wrong or pauses, some of them, a free choice (R549). -/
def burnCells (how : Burn) (fld : FuseField) (x : Bytes) (b : Block) (f : FuseArray) : FuseArray :=
  setCells fld (match how with
    | .good => burnMask fld x
    | _ => if fld = .roots then partRoots (how == .bad) (burnMask fld x) (Config.freeNat b.free) else burnMask fld x &&& Config.freeNat b.free) f

/-- What the block senses of a field after its burn. -/
def senseField (fld : FuseField) (f : FuseArray) (z : Sensed) : Sensed :=
  let n := sense f
  match fld with
  | .lcGroup _ => { z with lc := n.lc }
  | .roots => { z with roots := n.roots }
  | .gateKeyHash => { z with gateKeyHash := n.gateKeyHash }
  | .gatePwHash => { z with gatePwHash := n.gatePwHash }
  | .packKeyHash => { z with packKeyHash := n.packKeyHash }
  | .serial => { z with serial := n.serial }
  | .srcRetire => { z with srcRetire := n.srcRetire }
  | .tether => { z with tether := n.tether }
  | .wearBase _ => { z with wearBase := n.wearBase }
  | .wearCheck => { z with wearCheck := n.wearCheck }

/-- A burn of a field: the cells, and the block once it has sensed them again; `vfz` may leave its range. -/
def burn (how : Burn) (fld : FuseField) (x : Bytes) (s : State) : State :=
  let f := burnCells how fld x s.blk s.fuse
  let z := { s.blk.sensed with spent := fld :: s.blk.sensed.spent }
  { s with fuse := f
           blk := match how with
             | .good => { s.blk with sensed := senseField fld f z }
             | .bad => { freed s.blk with sensed := if fld matches .lcGroup _ | .roots then z else senseField fld f z }
             | .vfzLost => { freed s.blk with sensed := z, boot := { s.blk.boot with vfz := false } } }

/-- A field still accepts its one write (R148, R561). -/
def unwritten (s : State) (fld : FuseField) : Bool := !touched fld s.fuse && !s.blk.sensed.spent.contains fld

/-- A burn may begin: `vfz` within range and no supply hold (R147, R151, R477). -/
def burnReady (b : Block) : Bool := b.boot.vfz && !anyHold b

end Sys2Proof.Machine
end

