-- ==== Sys2Proof/Machine/Wear.lean ====
section
/-!
DEFINITION. Ageing and re-rating (R502 to R515): the correction of gauge readings, the margin and the step
rule, remaining life, the groom period, and the commands and deadlines that measure. The clock generators are
written here and by resets alone.
-/

namespace Sys2Proof.Machine

def modWear (i : Nat) (f : Wear → Wear) (b : Block) : Block := { b with wear := b.wear.mod i f }

/-- Baseline of gauge `g` of island `i` (R503). -/
def baseline (b : Block) (i g : Nat) : Nat := field (b.sensed.wearBase.getD i []) (2 * g) 2
/-- The baselines can be used: their check code is tested at start-up only (R505, R561). -/
def baseUsable (b : Block) : Bool := b.sensed.wearUsable

/-- Junction temperature that the ratio of an island's two oscillators gives, in 0.1 degree; it needs no baseline (R502, R505). -/
def tjNow (lo hi : Nat) : Int := Config.tjOf lo hi
/-- The margin M of six readings (R502). -/
def marginOf (tj : Int) (g : Gauges) : Int :=
  let at105 := fun (c : Int) => Config.canaryAt105 c tj g.vdd
  min (min (at105 g.c0) (at105 g.c1)) (min (at105 g.c2) (at105 g.c3))
/-- One oscillator's part of D. -/
def slowed (f0 f : Nat) : Nat := 1000 * (f0 - f) / f0
/-- The degradation D (R502); not computed without baselines (R505). -/
def degradation (b : Block) (i : Nat) (tj : Int) (g : Gauges) : Nat :=
  if baseUsable b then
    max (slowed (baseline b i 4) (Config.oscLoAt85 g.oscLo tj)) (slowed (baseline b i 5) (Config.oscHiAt85 g.oscHi tj))
  else 0

/-- The step rule of R506: margin and ratio after it. -/
def rerateGo : Nat → Int → Nat → Int × Nat
  | 0, m, r => (m, r)
  | n + 1, m, r =>
    if m < 30 && 70 < r then rerateGo n (1000 - ((1000 - m) * (r - 2 : Nat)).tdiv r) (r - 2) else (m, r)

/-- The sliding average over the samples of the last 24 powered hours (R504). -/
def averageTj (l : List Int) : Int := l.sum / l.length
/-- A sample taken at time `now` joins the history; those of 24 hours ago and before leave it. -/
def addSample (now : Nat) (tj : Int) (w : Wear) : Wear :=
  let h := ((now, tj) :: w.hist).filter fun x => now < x.1 + 86400000000
  { w with hist := h, tjAvg := averageTj (h.map Prod.snd) }

/-- e to the power `x`, by as many terms of its series that the rest is below 10^-50 of it. -/
def expQ (x : Rat) : Rat := (List.range (120 + 8 * (max x (-x)).ceil.toNat)).foldr (fun n e => 1 + x / (n + 1 : Nat) * e) 1
/-- Equivalent hours at which the degradation reaches `d` in 0.1 %. -/
def hoursAt (d : Rat) : Rat := 219000 * (d / 80) ^ 5
/-- L of R511 in 0.1 years, truncated, for a ratio of 100 %, from D, the margin m and the average Tj in 0.1 degree (assumption 23). -/
def lifeTenths (d : Nat) (m tj : Int) : Nat :=
  let dEnd : Rat := 1000 * (970 / 1000 * (1 + (d : Rat) / 1000) / ((1000 - m) / 1000) - 1)
  let tEq := hoursAt d
  let tEnd := hoursAt (max dEnd 0)
  let t : Rat := (2731 + tj : Int) / 10 + 5 / 100
  let af := expQ (58023 / 10 * (1 / (35815 / 100) - 1 / t))
  if m == 1000 || t ≤ 0 then Config.lifeOutside d m tj
  else if tEnd ≤ tEq then 0
  else (10 * ((tEnd - tEq) / (af * 8760))).floor.toNat

/-- Remaining life (R511), 0xFFFF when unknown (R505). -/
def lifeOf (b : Block) (d : Nat) (m : Int) (r : Nat) (tj : Int) : Nat :=
  if !baseUsable b then 0xFFFF else if r < 100 then 0 else min 0xFFFE (lifeTenths d m tj)

/-- The groom period in ms for an average temperature (R510). -/
def groomFor (tj : Int) : Nat :=
  if 1100 ≤ tj then 125 else if 1000 ≤ tj then 250 else if 920 ≤ tj then 500 else if 780 ≤ tj then 1000
  else if 680 ≤ tj then 2000 else if 550 ≤ tj then 4000 else 8000

/-- An engine leaves service as a failed `SELFTEST` takes it; budgets are refilled at the rate in force until now (R364, R410, R507). -/
def loseEngine (i : Nat) (b : Block) : Block :=
  if 1 ≤ i && i ≤ 8 then fence (i - 1) (fun x => { x with fencedFault := true }) b
  else if i == 9 || i == 10 then modIsland (i - 9) (fun x => { x with inService := false }) (refillAll b)
  else if 11 ≤ i && i ≤ 18 then modCore (i - 11) (fun x => { x with inService := false }) (refillAll b)
  else b

/-- LIFE_LOW with the island and its remaining life (R507, R512). -/
def raiseLife (i l : Nat) (b : Block) : Block :=
  raise evLifeLow (toLe 1 i ++ toLe 2 l) (modWear i (fun w => { w with lifeLowRaised := true }) b)

/-- The events and the loss of service that follow a measurement. -/
def wearEvents (i : Nat) (old new : Nat) (m : Int) (l : Nat) (b : Block) : Block :=
  let b1 := when (new != old) (fun b => raise evRerated (toLe 1 i ++ toLe 1 old ++ toLe 1 new)
    { b with rerates := satAdd 32 b.rerates 1 }) b
  if new == 70 && m < 30 then raiseLife i 0 (loseEngine i b1)
  else when (l < 30 && !(b.wear.get i).lifeLowRaised) (raiseLife i l) b1

/-- Measure an island and re-rate it (R502, R504, R506); in a hold the measurement is abandoned (R514). -/
def measureOne (sample : Bool) (s : State) (x : Fin 22 × Gauges) : State :=
  let i := x.1.val
  let b := s.blk
  if holding b i then { s with blk := modWear i (fun w => { w with rerun := true, rerunAt := none }) b }
  else
    let tj := tjNow x.2.oscLo x.2.oscHi
    let old := s.clk.target.get i
    let mr := rerateGo 15 (marginOf tj x.2) (s.clk.ratio.get i)
    let new := min old mr.2
    let d := degradation b i tj x.2
    let w1 := if sample then addSample b.now tj (b.wear.get i) else b.wear.get i
    let l := lifeOf b d mr.1 new w1.tjAvg
    { s with clk := { s.clk with target := s.clk.target.set i new }
             blk := wearEvents i old new mr.1 l (modWear i (fun _ => { w1 with margin := mr.1, degradation := d, life := l
                                                                               rerun := false, rerunAt := none }) b) }

/-- Every island that has gauges. -/
def everyIsland : List (Fin 22) := List.finRange 22
/-- Measure several islands, each by its own readings. -/
def measure (sample : Bool) (l : List (Fin 22)) (g : Vector Gauges 22) (s : State) : State :=
  (l.map fun i => (i, g.get i)).foldl (measureOne sample) s

/-- A new groom period, applied from the next sweep on (R510). -/
def setGroom (b : Block) : Block := modTack (fun t => { t with groomNext := groomFor (b.wear.get 19).tjAvg }) b

/-- A wear-gauge deadline wakes the block and the yardmaster island (R18, R370). -/
def gaugeWake (b : Block) : Block := wake (wakeYm b)

/-- WEAR_SCHEDULED_MEASUREMENT: every island, 24 powered hours after the one before; for 100 µs it runs (R504, R510). -/
def execWearScheduledMeasurement (g : Vector Gauges 22) (s : State) : Host.Outcome State Fault Refusal :=
  if !s.blk.boot.ready || holding s.blk 20 then .next s
  else
    let t := max s.blk.now s.blk.wearDue
    let b := gaugeWake { s.blk with now := t, wearDue := t + 86400000000 }
    let s1 := measure false everyIsland g { s with blk := each everyIsland (fun i => modWear i.val fun w => { w with runsTill := t + 100 }) b }
    .next { s1 with blk := setGroom s1.blk }

/-- WEAR_MEASUREMENT_RERUN: a measurement abandoned in a hold runs again 1 ms after it (R514). -/
def execWearMeasurementRerun (i : Fin 22) (g : Gauges) (s : State) : Host.Outcome State Fault Refusal :=
  match (s.blk.wear.get i.val).rerunAt with
  | none => .next s
  | some t =>
    if s.blk.boot.ready && !holding s.blk 20 then
      .next (measureOne false { s with blk := gaugeWake { s.blk with now := max s.blk.now t } } (i, g))
    else .next s

/-- The ratio an island runs at moves to the one decided; at that edge its window detector's expected count and limits and its delay-line
limit move to the new clock (R508). -/
def reachRatio (i : Nat) (c : Clocks) : Clocks :=
  { c with ratio := c.ratio.set i (c.target.get i), watched := c.watched.set i (c.target.get i) }

/-- CLOCK_RATIO_CHANGE; not while the island holds (R514). -/
def execClockRatioChange (i : Fin 22) (s : State) : Host.Outcome State Fault Refusal :=
  if holding s.blk i.val then .next s else .next { s with clk := reachRatio i.val s.clk }

/-- The oscillators of every island are read for its temperature. -/
def sampleAll (r : Vector (Nat × Nat) 22) (b : Block) : Block :=
  each everyIsland (fun i b => modWear i.val (addSample b.now (tjNow (r.get i).1 (r.get i).2)) b) b
/-- TEMPERATURE_SAMPLE, every 60 s (R504). -/
def execTemperatureSample (r : Vector (Nat × Nat) 22) (s : State) := updOn s 20 fun b =>
  let t := max b.now b.tempDue
  sampleAll r (gaugeWake { b with now := t, tempDue := t + 60000000 })

/-! ## WEAR_MEASURE and WEAR_REPORT (R408) -/

/-- The 8-byte record of an island. -/
def wearRecord (s : State) (i : Nat) : Bytes :=
  let w := s.blk.wear.get i
  toLe 2 (w.margin % 65536).toNat ++ toLe 1 (s.clk.ratio.get i) ++ [0] ++ toLe 2 w.life ++ [0, 0]

/-- Islands a mask names. -/
def namedIslands (c : Cmd) : List Nat := (List.range 22).filter fun i => (c.par 0 4).testBit i

def wearChecks (_ : Block) (c : Cmd) : Checks :=
  { pay := 8 * (namedIslands c).length, bad := paramFails c.params [(0, 4)] 4 [(2, 1, 64 ≤ c.par 2 1), (3, 1, c.par 3 1 != 0)] }

/-- First the named islands are measured; the result follows once no measurement of them is to run again. -/
def wearBody (s : State) (id : Nat) (c : Cmd) (b : Block) : Block :=
  if c.step == 0 then cmdStep id 1 b
  else when ((namedIslands c).all fun i => !(b.wear.get i).rerun) (okCmd id ((namedIslands c).flatMap (wearRecord s))) b

/-- Whether a command has just begun. -/
def begun (id : Nat) (b b1 : Block) : Bool :=
  match b.cmd id, b1.cmd id with
  | some c, some c1 => c.phase == 2 && c1.phase == 3
  | _, _ => false

/-- Islands a command measures: those it names whose scheduled measurement neither runs nor waits to run again; of the others it takes the
result of that one (R514). -/
def ownIslands (c : Cmd) (b : Block) : List (Fin 22) :=
  everyIsland.filter fun i => (namedIslands c).contains i.val && !(b.wear.get i.val).rerun && decide ((b.wear.get i.val).runsTill ≤ b.now)
/-- WEAR_MEASURE. -/
def execWearMeasure (cmd : Nat) (g : Vector Gauges 22) (s : State) : Host.Outcome State Fault Refusal :=
  if !s.blk.boot.ready || holding s.blk 20 then .next s
  else
    let b := runCmd (fun c => c.op == 0x0602) wearChecks (wearBody s) cmd s.blk
    if begun cmd s.blk b then
      .next (measure false (match s.blk.cmd cmd with | some c => ownIslands c s.blk | none => []) g { s with blk := b })
    else .next { s with blk := b }

/-- WEAR_REPORT. -/
def execWearReport (cmd : Nat) (s : State) :=
  updCmd s (fun c => c.op == 0x0603) (fun _ c => { right := .any, pay := 176, bad := paramFails c.params [] 0 [] })
    (fun id _ b => okCmd id ((List.range 22).flatMap (wearRecord s)) b) cmd

end Sys2Proof.Machine
end

