-- ==== Sys2Proof/Machine/Resets.lean ====
section
/-!
DEFINITION. System keys (R149 to R156), zeroing of keys (R152, R433, R491, R551), resets of the block and of
one island (R483, R516 to R518, R548).
-/

namespace Sys2Proof.Machine

/-! ## System keys (R154) -/

/-- Derive every system key, draw the state key, then compute the tags of every class C slot under the new barn key (R154, R189, R519
step 7). -/
def deriveSystem (b : Block) : Block :=
  match barnOf b with
  | none => b
  | some k =>
    let b1 := drew (each [1, 2, 3, 4] (fun i b => match sysOf b i with | some x => setSys i x b | none => b) (setSys 0 k b))
    each (b1.tack.stallKeys.ents.map Prod.fst) skRetag b1

/-! ## Zeroing (R152, R433, R491, R551) -/

/-- Every working slot is zeroed; keys that were there are destroyed (R161). -/
def zeroWorking (b : Block) : Block :=
  each ((b.tack.slots.ents.filter fun e => e.2.occupied).map Prod.fst) (fun i b => genRose i (modSlot i clearedSlot b)) b

/-- Every stall-key slot is zeroed, its generations kept (R163). -/
def zeroStallKeys (b : Block) : Block :=
  each (b.tack.stallKeys.ents.map Prod.fst) (fun n => modSk n fun k =>
    { keyGen := if k.state = 0 then k.keyGen else k.keyGen + 1, tenancyGen := k.tenancyGen }) b

/-- Every working, stall-key and system slot is zeroed. -/
def zeroSlots (b : Block) : Block :=
  zeroStallKeys (zeroWorking (modTack (fun t => { t with sys := { dflt := {} } }) b))

/-- A job a PURGE stops: it holds a key or waits in step 4a, where a key-pair generation waits for the slots of its key (R491); one that
drains holds its key until its engine lets go. -/
def purged (j : Job) : Bool :=
  (j.stage == .waiting && (attrAddr j.desc).isSome && !j.attrDone) || takesKey j.desc && ((j.stage == .draining && j.keys != []) || j.stage == .waiting || j.stage == .running || j.stage == .retry || (j.stage matches .hitched _))

/-- It ends with KEYS_SEALED: a started one by the run-stage row, one not started with no byte written (R103, R491). -/
def purgeJob (i : Nat) (b : Block) : Block :=
  match b.job i with
  | none => b
  | some j => if !purged j then b else if j.started then runError i .keysSealed b else endJob i .keysSealed b

def purgeJobs (b : Block) : Block := each (b.live.map Prod.fst) purgeJob b

/-- The slots and the jobs of a PURGE, and of the opening of debug access (R433, R491, R551). -/
def zeroKeys (b : Block) : Block := purgeJobs (zeroSlots b)

/-- Tie-off pages and region S of every core (R551). -/
def zeroPages (b : Block) : Block :=
  each (b.stalls.ents.map Prod.fst) (fun n => modStall n fun s =>
      { s with rings := [0, 1, 2, 3].foldl (fun t r => t.mod r fun g => { g with page := { g.page with hitch := {}, recovery := {} } }) s.rings })
    { b with cores := (List.range 8).foldl (fun t c => t.mod c fun x => { x with regionS := [] }) b.cores }

/-! ## Resets of the block (R516 to R518, R548) -/

/-- Outstanding requests of a port, whose responses are to be discarded. -/
def discardPort (p : PortSt) : PortSt :=
  { out := p.out.map fun g => { g with req := { g.req with owner := .discard } } }

/-- The block as a reset leaves it: the lean-to, its event path, the retired sources and the pins stay. -/
def bareBlock (step : Nat) (b : Block) : Block :=
  { boot :=
      { step, vdd := b.boot.vdd, vbk := b.boot.vbk, vfz := b.boot.vfz, clkRef := b.boot.clkRef, vddOk := b.boot.vddOk, scan := false
        backup := b.boot.backup, tapState := b.boot.tapState, tapIr := tapShut b.boot.tapIr, tapOut := b.boot.tapOut }
    sensed := { srcRetire := b.sensed.srcRetire }
    lt := b.lt, draws := b.draws, free := b.free, now := b.now }

/-- The ring port without the requests whose acknowledgements have come and wait in its FIFO. -/
def answeredOut (b : Block) : PortSt := { b.rp with out := b.rp.out.filter fun g => !b.rpFifo.any fun a => a.1 == g.tag }
/-- Responses on `sb_` that are still to come and will be discarded. -/
def sbOut (b : Block) : Nat := b.sbDrop + (if b.sb.isSome then 1 else 0)
/-- Whether any response is still to come. -/
def anyOut (b : Block) : Bool := !(b.dp0.out.isEmpty && b.dp1.out.isEmpty && (answeredOut b).out.isEmpty && sbOut b == 0)

/-- A warm reset: ports keep their handshakes, `RESET_COUNT` and `LAST_RESET_CODE` record it (R517, R548). A start-up that has stopped stays
stopped: only `rst_n` or the removal of `vdd` ends that (R523; DEDUCED, assumption 101). -/
def warmBlock (cause : Nat) (b : Block) : Block :=
  let r := bareBlock 2 b
  { r with
    boot := if b.boot.stopped then { r.boot with stopped := true, step := b.boot.step, cause := b.boot.cause } else r.boot
    dp0 := discardPort b.dp0, dp1 := discardPort b.dp1, rp := discardPort (answeredOut b), portDrain := anyOut b
    sbDrop := sbOut b
    lt := { b.lt with resetCount := satAdd 32 b.lt.resetCount 1, lastReset := BitVec.ofNat 16 cause } }

/-- A warm reset of the block; clock ratios return to 100 % (R514). -/
def warmReset (cause : Nat) (s : State) : State := { s with clk := {}, blk := warmBlock cause s.blk }

/-- Causes beside event codes (R500). -/
def causeLifecycle := 0xFF01
def causeLtPor := 0xFF02
def causeScan := 0xFF03

/-- The DEBUG session that held the test port open has ended: the port's closing while `scan_mode` is high resets the block (R551, R555). -/
def scanClosed (b : Block) (s : State) : State :=
  if s.blk.boot.scan && b.ym.gate.port && !s.blk.ym.gate.port && b.lc == 2 then warmReset causeScan s else s
/-- As `scanClosed`, for a meaning that may end a session. -/
def closing (s : State) (o : Host.Outcome State Fault Refusal) : Host.Outcome State Fault Refusal :=
  match o with
  | .next t => .next (scanClosed s.blk t)
  | x => x

/-- The life-cycle command whose warm reset is due has written its result (R152). -/
def lifecycleWritten (b : Block) : Bool := b.ym.cmds.all fun e => !(e.2.op == 0x0401 && 3 ≤ e.2.phase)

/-- WARM_RESET: the one that follows a life-cycle advance (R152). Other warm resets are part of their cause. -/
def execWarmReset (s : State) : Host.Outcome State Fault Refusal :=
  if s.blk.boot.warmDue && lifecycleWritten s.blk then .next (warmReset causeLifecycle s) else .next s

/-- COLD_RESET: `rst_n`, which also returns handshakes and credits to their reset state, or `vdd` applied. -/
def coldBlock (c : ColdCause) (b : Block) : Block :=
  match c with
  | .rstN => let r := bareBlock 1 b; { r with boot := { r.boot with tapOut := 0 } }
  | .vdd => let r := bareBlock 1 b; { r with boot := { r.boot with vdd := true, backup := false } }
def execColdReset (c : ColdCause) (s : State) : Host.Outcome State Fault Refusal := .next { s with clk := {}, blk := coldBlock c s.blk }

/-- LT_RESET (R473, R548): the lean-to is cleared; while `vdd` is present a warm reset follows (R516). -/
def execLtReset (s : State) : Host.Outcome State Fault Refusal :=
  let s1 := { s with blk := { s.blk with lt := {}, boot := { s.blk.boot with vbk := true } } }
  .next (if s.blk.boot.vdd then warmReset causeLtPor s1 else s1)

/-- VDD_REMOVE (R474, R553): work is lost, the lean-to goes on alone; events still on their way to it are lost. -/
def unpowered (b : Block) : Block :=
  let r := bareBlock 1 b
  { r with boot := { r.boot with vdd := false, vfz := false, clkRef := false, backup := true, tapState := .testLogicReset, tapIr := .idcode, tapOut := 0 }
           lt := { b.lt with fifo := b.lt.fifo.filter fun e => e.source < 8 } }
def execVddRemove (s : State) : Host.Outcome State Fault Refusal := .next { s with clk := {}, blk := unpowered s.blk }

/-- VBK_LOSS (R552): without either supply the lean-to loses its contents. -/
def execVbkLoss (s : State) := upd s fun b => when (!b.boot.vdd) (fun b => { b with lt := {}, boot := { b.boot with vbk := false } }) b

/-! ## Resets of one island (R139, R243, R304, R483) -/

/-- A lane that is reset no longer has the job. -/
def loseLane (i : Nat) (b : Block) : Block :=
  match (b.job i).bind fun j => j.engine with
  | some (.lane _) => freeEngine i b
  | _ => b

/-- A job the island holds, whatever it still drains, ends with ISLAND_RESET (R139): a lane loses it at once, and the yard writes the
zeros (R243). -/
def resetJob (i : Nat) (b : Block) : Block :=
  match b.job i with
  | none => b
  | some j => when (j.engine.isSome && j.stage != .ended && j.stage != .issued)
      (if j.started then fun b => loseLane i (runError i .islandReset b) else endJob i .islandReset) b

/-- Jobs on the engines of an island. -/
def islandJobs (b : Block) (i : Nat) : List Nat :=
  if 1 ≤ i && i ≤ 8 then (b.lane (i - 1)).jobs
  else if i == 9 || i == 10 then (List.range 8).filterMap fun k => b.digestJobs.get (8 * (i - 9) + k)
  else if 11 ≤ i && i ≤ 18 then (b.coreJobs.get (i - 11)).toList
  else []

/-- The island's own state: lane generator, digest cache, core regions; the microcode of a loaded pack is then written back (R304). -/
def clearIsland (i : Nat) (b : Block) : Block :=
  if 1 ≤ i && i ≤ 8 then modLane (i - 1) (fun x => { x with generator := [], paused := false }) b
  else if i == 9 || i == 10 then modIsland (i - 9) (fun x => { x with cache := [], purge := [] }) b
  else if 11 ≤ i && i ≤ 18 then
    modCore (i - 11) (fun x => { x with regionS := [], regionP := [], regionQ := [], microcode := [], state := if b.pack.ready then 2 else 0 }) b
  else b

/-- A sign job's reservation waits for an ADVANCE that a hold of any island keeps back (R353). -/
def advanceHeld (b : Block) (j : Job) : Bool :=
  j.leafWait && b.sbQueue.any fun o => o.op != 0 && (match o.user with | .leaf c => j.desc.op == 0x59 && c == lmsCell (keyAt j 0) | _ => false)
/-- A hold of island `i` is one job `k` spans (R139, R243, R353, R472, R485). -/
def holdSpans (b : Block) (i k : Nat) (j : Job) : Bool :=
  i == 0 || i == 19 || i == 22 || advanceHeld b j
    || (match j.engine with
        | some (.lane l) => i == 1 + l.val || (j.desc.op == 0x18 && i == 2 + l.val)
        | some e => i == engineIsland e
        | none => false)
    || (i == 23 && ((inChute j.desc).toList ++ (outChute j.desc).toList).any fun c => (b.chute c).holder == some k)
/-- Mark the jobs a hold of an island touches. -/
def markHeld (i : Nat) (b : Block) : Block :=
  each (b.live.filter fun e => holdSpans b i e.1 e.2) (fun e => modJob e.1 fun j => { j with supplyHold := true }) b
/-- The yard's clocks freeze while it holds: urgent budgets and interrupt timers go on from where they stood (R70, R373). -/
def thawTimes (since : Nat) (b : Block) : Block :=
  each (b.stalls.ents.map Prod.fst) (fun n => modStall n fun s =>
    { s with tokensAt := s.tokensAt + (b.now - since), irqSince := s.irqSince.map (· + (b.now - since)) }) b
/-- The yard goes on after its hold: what a lowered threshold made due is sent, and a wake that came in it is done (R373). -/
def yardGoesOn (b : Block) : Block :=
  when b.boot.wakeDue (fun b => wake (modBoot (fun t => { t with wakeDue := false }) b)) (each (b.stalls.ents.map Prod.fst) irqCheck b)
/-- After a hold of their island chutes drain and take the output that waits for them (R472). -/
def chutesGoOn (b : Block) : Block :=
  each (List.range 8) (fun c b => match (b.chute c).holder with | some i => laneDone i (pushJob i (changeChute c id b)) | none => changeChute c id b) b
/-- A measurement abandoned in the hold of its island runs again 1 ms after the hold (R514). -/
def rerunSoon (i : Nat) (b : Block) : Block :=
  { b with wear := b.wear.mod i fun w => if w.rerun then { w with rerunAt := some (b.now + 1000) } else w }
/-- Writes of the tack room that a hold of any island kept back: keys of jobs that have failed go, and changes whose command a restart of
Nartia has ended are made (R104, R387, R485). -/
def tackGoesOn (b : Block) : Block :=
  when (!anyHold b) (fun b =>
    each (b.ym.changesDue.filter fun c => c.op != 0x0502) applyChange
      (each b.tack.dropsDue dropInstalled (modYm (fun y => { y with changesDue := y.changesDue.filter fun c => c.op == 0x0502 })
        (modTack (fun t => { t with dropsDue := [] }) b)))) b
/-- The end of a supply hold: jobs that spanned it are marked, and what waited goes on (R73, R373, R485). -/
def endHold (i : Nat) (b : Block) : Block :=
  match b.holds.get i with
  | none => b
  | some t =>
    let b1 := when (i == 0) (thawTimes t) (rerunSoon i { markHeld i b with holds := b.holds.set i none })
    sbPump (lanesDone (goOn (pumpAll (drainDb (drainRp (when (i == 23) chutesGoOn (when (i == 0) yardGoesOn (tackGoesOn b1))))))))

/-- Reset of an engine island (R139, R243, R483). -/
def engineReset (i : Nat) (b : Block) : Block := endHold i (clearIsland i (each (islandJobs b i) resetJob b))

/-- A burn that has begun and paused runs on without its command (R387). -/
def leftBurn (b : Block) : Option (FuseField × Bytes) :=
  (b.ym.cmds.filterMap fun e =>
    if e.2.phase == 3 && e.2.step == 1 && e.2.waitSince.isSome then
      (if e.2.op == 0x0401 then some (FuseField.lcGroup (Fin.ofNat 4 (e.2.par 0 1 - 1)), ([] : Bytes))
       else if e.2.op == 0x0402 then some (FuseField.roots, e.2.keep) else none)
    else none).head?

/-- An unfinished SELFTEST has made no change: its engines are as they were (R387). -/
def undoTest (e : Nat × Cmd) (b : Block) : Block :=
  let c := e.2
  let named := fun (k : Nat) => (c.par 0 4).testBit k
  let served := fun (k : Nat) => (leNat c.keep).testBit k
  if !(c.op == 0x0601 && c.phase == 3 && c.step == 1) then b
  else
    let lane := fun (x : Lane) => { x with testing := false, leaving := x.leaving && !x.forTest, forTest := false }
    let b1 := each ((List.range 8).filter named) (fun l => modLane l lane) (refillAll b)
    let b2 := each ([0, 1].filter fun k => served (8 + k)) (fun k => modIsland k fun x => { x with inService := true }) b1
    let b3 := each ((List.range 8).filter fun k => served (16 + k)) (fun k => modCore k fun x => { x with inService := true }) b2
    { b3 with unwrapFenced := b3.unwrapFenced && !served 24, entropyFenced := b3.entropyFenced && !served 25
              bridgesFenced := b3.bridgesFenced && !served 26 }

/-- Reset of the yardmaster island: changes whose ADVANCE is acknowledged complete, an unfinished CURVE_UNLOAD has made no change, then
Nartia restarts (R386, R387). -/
def ymReset (b : Block) : Block :=
  let b1 := restartNartia (each b.ym.cmds undoTest (each (b.ym.cmds ++ b.ym.unwritten) completeChange b))
  endHold 20 { b1 with curves := (List.range 32).foldl (fun t k => t.mod k fun x => if x.state == 2 then { x with state := 1 } else x) b1.curves
                       pack := { b1.pack with withheld := false }
                       cores := (List.range 8).foldl (fun t k => t.mod k fun x => if x.state == 3 then { x with state := 0 } else x) b1.cores
                       boot := { b1.boot with burnLeft := b1.boot.burnLeft.or (leftBurn b) } }

/-- Restart of the entropy island (R488). -/
def entropyRestart (b : Block) : Block := endHold 21 (modBoot (fun t => { t with entropyPaused := !t.entropyStopped }) b)

end Sys2Proof.Machine
end

