-- ==== Sys2Proof/Machine/Monitors.lean ====
section
/-!
DEFINITION. Monitors (R476 to R488): tamper inputs, clock, supply and entropy monitors, and the lean-to's own
detectors. What a detector saw is the command; what the block does about it is its effect.
-/

namespace Sys2Proof.Machine

/-- The lean-to runs: on `vdd` or on backup (R473). -/
def leanToAlive (b : Block) : Bool := b.boot.vdd || b.boot.vbk

/-! ## Arrival in the lean-to (R490, R491, R494) -/

/-- The latch key is zeroed. -/
def dropLatchKey (b : Block) : Block := modLt (fun l => { l with latchKey := none }) b

/-- The response of an event takes effect as it arrives: HOLD and SEAL stand while it is among the tick's events; a
PURGE zeroes keys. -/
def applyResponse (e : Event) (b : Block) : Block :=
  when (e.resp == 3) (fun b => if b.boot.vdd then zeroKeys (dropLatchKey b) else dropLatchKey b) b

/-- A monitor event wakes the block and the yardmaster (R18, R370). -/
def eventWake (b : Block) : Block := wake (wakeYm b)

/-- The oldest event on its way reaches the lean-to. -/
def arriveOne (b : Block) : Block :=
  match b.lt.fifo with
  | [] => b
  | e :: rest => eventWake (applyResponse e (modLt (fun l => { l with fifo := rest, tickEvents := l.tickEvents ++ [e] }) b))
/-- The oldest event on its way reaches the lean-to; a MONITOR_SPLIT in one tick with the CLOCK_FAULT that follows it (R482, R501). -/
def arrive (b : Block) : Block :=
  if (b.lt.fifo.head?.map fun e => e.code) == some evMonitorSplit then arriveOne (arriveOne b) else arriveOne b

/-! ## The lean-to's detectors (R478, R479, R484, R547) -/

def setFired (k : Nat) (v : Bool) (b : Block) : Block :=
  modLt (fun l => { l with fired := if v then l.fired ||| (1#8 <<< k) else l.fired &&& ~~~(1#8 <<< k) }) b

/-- An armed source 0 to 5 that has not fired fires once. -/
def fireTamper (code src armBit : Nat) (b : Block) : Block :=
  when (leanToAlive b && b.lt.arm.getLsbD armBit && !b.lt.fired.getLsbD src) (fun b => raiseSource code src [] (setFired src true b)) b

/-- TAMPER_STATIC. -/
def execTamperStatic (i : RingId) (s : State) := upd s (fireTamper evTamperStatic i.val i.val)
/-- In each of the last `n` ticks `tpi`, `seen` with the latest tick lowest, was the bit that the pair had driven the tick before (R479). -/
def meshMatches (x : Mesh) (n : Nat) (seen : Nat) : List Bool := (List.range n).map fun k => seen.testBit k == x.drove.getLsbD (k + 1)
/-- TAMPER_MESH: a mismatch in each of two consecutive ticks of a pair whose generator is seeded. -/
def execTamperMesh (g : MeshSeen) (s : State) :=
  upd s fun b => let x := b.lt.mesh.get g.mesh.val
    when (x.seeded && (meshMatches x 2 g.tpi.toNat).all (· == false)) (fireTamper evTamperMesh (4 + g.mesh.val) (8 + g.mesh.val)) b
/-- TAMPER_INPUT_REARM. -/
def execTamperInputRearm (i : RingId) (s : State) := upd s fun b => when (leanToAlive b) (setFired i.val false) b
/-- MESH_REARM: 32 consecutive ticks have matched. -/
def execMeshRearm (g : MeshRun) (s : State) :=
  upd s fun b => when (leanToAlive b && (meshMatches (b.lt.mesh.get g.mesh.val) 32 g.tpi.toNat).all (· == true)) (setFired (4 + g.mesh.val) false) b

/-- VBK_LOW. -/
def execVbkLow (s : State) := upd s fun b =>
  when (leanToAlive b && b.lt.arm.getLsbD 10 && !b.lt.vbkLow)
    (fun b => raiseSource evVbkLow 6 [] (modLt (fun l => { l with vbkLow := true }) b)) b
/-- VBK_LOW_CLEAR. -/
def execVbkLowClear (s : State) := upd s fun b => when (leanToAlive b) (modLt fun l => { l with vbkLow := false }) b

/-- LT_CLOCK_FAULT: source 7 is always armed; the tick counter moves to the internal oscillator. -/
def execLtClockFault (s : State) := upd s fun b =>
  when (leanToAlive b && !b.lt.clockBad) (fun b => raiseSource evLtClockFault 7 [] (modLt (fun l => { l with clockBad := true }) b)) b
/-- CLK_LT_IN_RANGE. -/
def execClkLtInRange (s : State) := upd s fun b => when (leanToAlive b) (modLt fun l => { l with clockBad := false }) b

/-! ## Clock monitors (R481 to R483) -/

/-- Detectors are armed from start-up step 3 on (R519). -/
def armedMonitors (b : Block) : Bool := b.boot.vdd && 4 ≤ b.boot.step
/-- A supply warning or reset level counts from step 2 on (R531). -/
def armedSupply (b : Block) : Bool := b.boot.vdd && 2 ≤ b.boot.step

/-- The expected count of a window of 4,096 cycles at the ratio the monitors hold, in hundredths of an edge in the time of 4,096 cycles at
nominal (R481). -/
def expectedEdges (r : Nat) : Nat := 4096 * r
/-- The window detector reports too fast, more than 6 % above; too slow, more than 10 % below; for the port and chute islands, whose
expected period is the shortest allowed, absent instead (R481). -/
def tooFast (r : Nat) (e : Nat) : Bool := 106 * expectedEdges r < 10000 * e
def tooSlow (i r : Nat) (e : Nat) : Bool := if 22 ≤ i then e == 0 else 10000 * e < 90 * expectedEdges r
/-- The delay-line limit: a cycle shorter than 90 % of the current period, in 0.01 % of the nominal one (R481, R508). -/
def shortCycle (r : Nat) (c : Nat) : Bool := c * r < 900000

/-- What the detectors of an island report of what its clock does: the source that reports a fault, and whether they disagree (R481,
R482). The delay line reports as soon as it sees a short cycle, the window at its end; a retired detector has no say (R477). -/
def clockReport (b : Block) (c : Clocks) (i : Nat) (g : ClockSeen) : Option (Nat × Bool) :=
  let r := c.watched.get i
  let n := (g.cycles.filter (shortCycle r)).length
  let wOn := !retired b (16 + 4 * i)
  let dOn := !retired b (17 + 4 * i)
  let fast := tooFast r g.edges
  let slow := tooSlow i r g.edges
  if 0 < n && dOn then some (17 + 4 * i, 16 ≤ n && !fast && !slow && wOn)
  else if (fast || slow) && wOn then some (16 + 4 * i, fast && n == 0 && dOn)
  else none

/-- The events of a clock fault. -/
def clockEvents (i src : Nat) (split : Bool) (b : Block) : Block :=
  raiseSource evClockFault src [] (when split (raiseSource evMonitorSplit (16 + 4 * i) (toLe 1 i)) b)

/-- An engine that a clock fault has reset during start-up takes part again from its own step 4: it may fail the test of its SRAM, else it is
measured as at step 5 (R523, R531). -/
def engineAgain (i : Nat) (g : ClockSeen) (s : State) : State :=
  if s.blk.boot.ready || s.blk.boot.stopped then s
  else if !g.sramOk then { s with blk := loseEngine i (modBoot (fun t => { t with engineLost := true }) s.blk) }
  else measureOne true s (Fin.ofNat 22 i, g.gauges)
/-- What a clock fault resets (R483); a reset island restarts at the ratio decided for it (R514). During start-up a fault of the yardmaster
is a warm reset (R531). -/
def clockReset (i : Nat) (g : ClockSeen) (s : State) : State :=
  if 1 ≤ i && i ≤ 18 then engineAgain i g { s with clk := reachRatio i s.clk, blk := engineReset i s.blk }
  else if i == 20 && s.blk.boot.ready then { s with clk := reachRatio i s.clk, blk := ymReset s.blk }
  else if i == 21 then { s with clk := reachRatio i s.clk, blk := entropyRestart s.blk }
  else warmReset evClockFault s

/-- CLOCK_FAULT: what the island's clock does is seen; when a detector fires, its events are raised and the island is reset. -/
def execClockFault (i : IslandId) (g : ClockSeen) (s : State) : Host.Outcome State Fault Refusal :=
  match clockReport s.blk s.clk i.val g with
  | some (src, split) =>
    if armedMonitors s.blk then
      .next (scanClosed s.blk (clockReset i.val g { s with blk := clockEvents i.val src split s.blk }))
    else .next s
  | none => .next s

/-! ## Supply monitors (R485, R486) -/

/-- SUPPLY_WARN: the island holds; the block is not ASLEEP in a hold (R555). -/
def supplyWarn (i : Nat) (b : Block) : Block :=
  when (armedSupply b && !retired b (18 + 4 * i) && !holding b i)
    (fun b => raiseSource evSupplyWarn (18 + 4 * i) [] (markHeld i (modBoot (fun t => { t with asleep := false })
      { b with holds := b.holds.set i (some b.now) }))) b
def execSupplyWarn (i : IslandId) (s : State) := upd s (supplyWarn i.val)

/-! ## Entropy (R488) -/

/-- ENTROPY_FAIL: a health test fails, and the island restarts. -/
def entropyFail (b : Block) : Block :=
  when (b.boot.vdd && 7 ≤ b.boot.step && !noEntropy b) (fun b => raiseSource evEntropyFail 8 [] (entropyRestart b)) b
def execEntropyFail (s : State) := upd s entropyFail

/-- Jobs at a request for randomness end once the island has stopped: those for the entropy island itself, and those on
lanes that wait for a reseed. -/
def endStarved (b : Block) : Block :=
  endEntropyJobs (each (b.live.map Prod.fst) tapStarved (each (lanes8.filter fun l => (b.lane l).paused) (fun l b => each (b.lane l).jobs (fun i => runError i .islandReset) b) b))

/-- ENTROPY_RESTART_DONE, in start-up too: a pass resumes all; the third failure within one boot stops the island. -/
def entropyDone (pass : Bool) (b : Block) : Block :=
  when (b.boot.entropyPaused) (fun b =>
    if pass then goOn (tapsDue (modBoot (fun t => { t with entropyPaused := false }) b))
    else if b.boot.entropyRestarts < 2 then modBoot (fun t => { t with entropyRestarts := t.entropyRestarts + 1 }) b
    else goOn (endStarved (modBoot (fun t => { t with entropyRestarts := 3, entropyPaused := false, entropyStopped := true }) b))) b
def execEntropyRestartDone (pass : Bool) (s : State) := upd s fun b => when (b.boot.vdd && !holding b 21) (entropyDone pass) b

/-- LANE_RESEED: 256 bits from the DRBG, or a late reseed that pauses the lane (R220). -/
def laneReseed (l : Nat) (late : Bool) (b : Block) : Block :=
  if b.boot.entropyStopped then each (b.lane l).jobs (fun i => runError i .islandReset) (modLane l (fun x => { x with paused := true }) b)
  else if late then
    when (!(b.lane l).paused) (modLane l fun x => { x with paused := true, reseedsLate := satAdd 32 x.reseedsLate 1 }) b
  else when (!b.boot.entropyPaused && !holding b 21)
    (fun b => drew (modLane l (fun x => { x with paused := false, generator := drbgNow b 32 }) b)) b
def execLaneReseed (l : LaneId) (late : Bool) (s : State) := updOn s (1 + l.val) (laneReseed l.val late)

end Sys2Proof.Machine
end

