-- ==== Sys2Proof/Machine/Studbook.lean ====
section
/-!
DEFINITION. Answers of the studbook and their absence (R347, R398, R440, R519 step 9, R525, R545), and the rise
of `ready` (R416, R519 step 10, R524).
-/

namespace Sys2Proof.Machine

/-! ## READY -/

/-- Each timer's first tick falls a period after `ready` (R416, R470). -/
def startTimers (b : Block) : Block :=
  { b with timers := [0, 1, 2, 3].foldl (fun t k => t.mod k fun x => (x.1, b.now + x.1)) b.timers }

/-- Its HOLD applies from the moment `ready` rises: every event on its way has reached the lean-to (R524). -/
def degradedAtReady (b : Block) : Block := let b1 := raise evLanesDegraded [] b; each b1.lt.fifo (fun _ => arrive) b1

/-- Nartia reads a cell after `ready`: 1, 2 and 3 in that order, each once the one before it has been read or given up, within an allowance of
its own (R398, R525). -/
def askAfter (cell : Nat) (b : Block) : Block := when (cell ≤ 3) (sbAsk { user := .afterReady cell, cell }) b

/-- Step 10: `ready` rises, then the studbook is read (R519, R524, R525). -/
def riseReady (b : Block) : Block :=
  askAfter 1
    (when (5 ≤ lanesFenced b) degradedAtReady
      (startTimers { b with rerates := 0, wearDue := b.now + 86400000000, tempDue := b.now + 60000000
                            boot := { b.boot with step := 10, ready := true, readyAt := b.now, bootTime := b.now - b.boot.bootTime } }))

/-- Step 9 ends: the epoch, or none (R213, R523). -/
def epochAnswer (a : Option Nat) (b : Block) : Block :=
  riseReady (modBoot (fun t => match a with
    | none => { t with noEpoch := true, nonceState := 1 }
    | some v => if v ≤ 0xFFFFFFFF then { t with epoch := v, nonceState := 0 } else { t with noEpoch := true, nonceState := 2 }) b)

/-- The studbook's answer at step 9: while the yard or the yardmaster holds it waits, and `ready` rises after the hold (R531). -/
def bootAnswer (a : Option Nat) (b : Block) : Block :=
  if holding b 0 || holding b 20 then modBoot (fun t => { t with epochDue := some a }) b else epochAnswer a b
/-- Start-up goes on after a hold. -/
def epochGoesOn (b : Block) : Block :=
  match b.boot.epochDue with
  | none => b
  | some a => if holding b 0 || holding b 20 then b else epochAnswer a (modBoot (fun t => { t with epochDue := none }) b)

/-! ## The gate's cell (R438 to R440) -/

/-- Lockout in µs for `f` failures (R439). -/
def lockoutUs (f : Nat) : Nat := if f < 3 then 0 else min (60 * 2 ^ (f - 3)) 3600 * 1000000

/-- Cell 2 has been read: a lockout runs from the rise of `ready`; a read that failed locks the gate for 3,600 s. -/
def gateAnswer (again : Bool) (a : Option Nat) (b : Block) : Block :=
  match a with
  | some v =>
    let stop := b.boot.readyAt + lockoutUs (v % 256)
    modGate (fun g => { g with cell := v, fails := v % 256, known := true, retry := false
                               lockoutEnd := if b.now < stop then some stop else none }) b
  | none => modGate (fun g => { g with retry := true, lockoutEnd := some ((if again then b.now else b.boot.readyAt) + 3600000000) }) b

/-! ## Leaf cells (R346, R347) -/

/-- Change the jobs that wait for a leaf cell. -/
def leafCellOf (j : Job) : Option Nat :=
  if j.desc.op == 0x58 && j.desc.variant != 0x04 then some j.desc.aLen
  else if j.desc.op == 0x59 then some (lmsCell (keyAt j 0)) else none
def modLeafJobs (c : Nat) (f : Job → Job) (b : Block) : Block :=
  each (b.live.filter fun e => e.2.leafWait && leafCellOf e.2 == some c) (fun e => modJob e.1 f) b

/-- A leaf cell's operation is answered, or given up. -/
def leafAnswer (c op : Nat) (a : Option Nat) (b : Block) : Block :=
  match a with
  | none => modLeafJobs c (fun j => { j with leafWait := false, leafFail := true }) (modCell c (fun x => { x with known := false }) b)
  | some v =>
    if op == 0 then
      modLeafJobs c (fun j => { j with leafWait := false, leaf := if j.desc.op == 0x58 then some v else j.leaf })
        (modCell c (fun x => { x with value := v, known := true }) b)
    else
      modLeafJobs c (fun j => { j with leafWait := false })
        (modCell c (fun x => { x with value := v, known := true, next := v - 1024, stop := v }) b)

/-! ## Answers -/

/-- What the one who asked does with an answer, or without one. -/
def sbAnswer (o : SbOp) (a : Option Nat) (b : Block) : Block :=
  match o.user with
  | .boot => bootAnswer a b
  | .afterReady c =>
    askAfter (c + 1) (if c == 1 then (match a with
        | some v => modTack (fun t => { t with updateCounter := v, counterKnown := true }) b
        | none => b)
      else if c == 2 then gateAnswer false a b
      else (match a with | some v => { b with floor := v } | none => b))
  | .gateRead => gateAnswer true a b
  | .cmd id => modCmd id (fun c => { c with sb := if a.isSome then 2 else 3, sbVal := a.getD 0 }) (cellRead o a b)
  | .leaf c => leafAnswer c o.op a b

/-- A response to an operation already given up is discarded (R545); the next may then be issued (R536). -/
def lateResponse (b : Block) : Block := drained (sbPump { b with sbDrop := b.sbDrop - 1 })

/-- SB_RESPONSE. -/
def sbResponse (late err : Bool) (v : Nat) (b : Block) : Block :=
  if late then lateResponse b
  else match b.sb with
    | none => b
    | some o => sbPump (sbAnswer o (if err then none else some v) { b with sb := none })
def execSbResponse (late err : Bool) (v : BitVec 64) (s : State) := upd s (sbResponse late err v.toNat)

/-- STUDBOOK_TIMEOUT: the operation outstanding, or one a supply hold keeps back, is given up after 50 ms. -/
def sbTimeout (b : Block) : Block :=
  match b.sb, b.sbQueue with
  | some o, _ => sbPump (sbAnswer o none { b with sb := none, sbDrop := b.sbDrop + 1, now := max b.now (o.since + 50000) })
  | none, o :: rest => sbPump (sbAnswer o none { b with sbQueue := rest, now := max b.now (o.since + 50000) })
  | none, [] => b
def execStudbookTimeout (s : State) := upd s sbTimeout

end Sys2Proof.Machine
end

