-- ==== Sys2Proof/Machine/Boot.lean ====
section
/-!
DEFINITION. Start-up steps 1 to 9 (R519 to R523), power states and the test port (R18, R370, R550 to R552).
-/

namespace Sys2Proof.Machine

/-- Start-up stops (R523): every key slot is empty. -/
def stopAt (step cause : Nat) (s : State) : State :=
  { s with blk := zeroSlots (modBoot (fun t => { t with step, cause, stopped := true }) s.blk) }

/-- Engines of islands 1 to 18 that fail at step 3 or 4 go out of service (R523). -/
def loseEngines (l : List (Fin 24)) (b : Block) : Block :=
  let l1 := l.filter fun i => 1 ≤ i.val && i.val ≤ 18
  when (l1 != []) (modBoot fun t => { t with engineLost := true }) (each l1 (fun i => loseEngine i.val) b)

/-- One of the yard, the tack room and the yardmaster is in a list. -/
def vital (l : List (Fin 24)) : Bool := l.any fun i => i.val == 0 || i.val == 19 || i.val == 20

/-- The first step of a boot: LT_RESTARTED is its first event (R495, R521). -/
def openLeanTo (b : Block) : Block :=
  when b.lt.restarted (fun b => raise evLtRestarted [] (modLt (fun l => { l with restarted := false }) b)) b

/-- Step 5: gauges and groom period (R504, R510). -/
def startWear (o : StartObs) (s : State) : State :=
  let s1 := measure true everyIsland o.gauges s
  { s1 with blk := modTack (fun t => { t with groomPeriod := t.groomNext }) (setGroom s1.blk) }

/-- Step 6: the entropy island, which a failed generator lock counts as three failed attempts (R523). -/
def startEntropy (o : StartObs) (b : Block) : Block :=
  if o.entropyOk && !(o.lockFails ++ o.sramFails).any (fun i => i.val == 21) then b
  else raiseSource evEntropyFail 8 [] (modBoot (fun t => { t with entropyStopped := true, entropyLost := true }) b)

/-- An empty latch key is filled, the mesh generators are seeded (R475, R479). -/
def seedLeanTo (b : Block) : Block :=
  let b1 := if b.lt.latchKey.isNone then drew (modLt (fun l => { l with latchKey := some (drbgNow b 32) }) b) else b
  let seed := drbgNow b1 8
  let sown := fun (k : Nat) (x : Mesh) => { x with seeded := true, gen := BitVec.ofNat 32 (field seed (4 * k) 4) }
  drew (modLt (fun l => { l with mesh := (l.mesh.mod 0 (sown 0)).mod 1 (sown 1) }) b1)

/-- Step 7: the life-cycle decision and the system keys (R153, R154, R475, R523). -/
def startKeys (t : Take) (b : Block) : Block :=
  let b1 := if b.boot.entropyStopped then b
    else if t = .split then raise evDecisionSplit [] (seedLeanTo b)
    else if t = .cut then seedLeanTo b
    else deriveSystem (seedLeanTo b)
  modBoot (fun x => { x with noBarnKey := !barnHeld b1 }) b1

/-- Step 9: ADVANCE of cell 0 by one. -/
def askEpoch (b : Block) : Block := sbAsk { user := .boot, op := 1, cell := 0, arg := 1 } (modBoot (fun t => { t with step := 9, sealClear := true }) b)

/-- Steps 5 to 9. -/
def startLate (o : StartObs) (s : State) : State :=
  let s1 := startWear o s
  let s2 := { s1 with blk := startKeys o.lifecycle (startEntropy o s1.blk) }
  if !o.romOk then stopAt 8 4 s2 else { s2 with blk := askEpoch s2.blk }

/-- Steps 2 to 4: fuses are sensed, generators lock, SRAM is tested and zero-filled. -/
def startSteps (o : StartObs) (s : State) : State :=
  let b := modBoot (fun t => { t with obs := none, cause := 0, bootTime := if t.obs.isSome then t.bootTime else s.blk.now }) (openLeanTo s.blk)
  let s1 := { s with blk := { b with sensed := sense s.fuse, now := b.now + o.elapsed } }
  if vital o.lockFails then stopAt 3 2 s1
  else
    let s2 := { s1 with blk := loseEngines o.lockFails s1.blk }
    if vital o.sramFails then stopAt 4 3 s2
    else startLate o { s2 with blk := loseEngines o.sramFails (modBoot (fun t => { t with step := 5 }) s2.blk) }

/-- Start-up begins at step 1 after a cold reset, at step 2 after a warm one; in a supply hold it waits (R531). -/
def mayBoot (b : Block) : Bool := b.boot.vdd && !b.boot.stopped && (b.boot.step == 1 || b.boot.step == 2) && !anyHold b

/-- Step 1 waits until `vdd` at every island is above its warning level and `clk_ref` is within range (R519, R523). -/
def stepOneWaits (o : StartObs) (b : Block) : Bool := b.boot.step == 1 && !(b.boot.clkRef && o.vddOk)
/-- START_UP: steps 1 to 8 with what they find, then the studbook of step 9. -/
def execStartUp (o : StartObs) (s : State) : Host.Outcome State Fault Refusal :=
  if !mayBoot s.blk then .next s
  else if stepOneWaits o s.blk then .next { s with blk := modBoot (fun t => { t with
    obs := some o, vddOk := o.vddOk, cause := 1, bootTime := if t.obs.isSome then t.bootTime else s.blk.now }) s.blk }
  else .next (startSteps o s)

/-- CLK_REF_WITHIN_RANGE: both conditions of step 1 hold, and it ends. -/
def execClkRefWithinRange (s : State) : Host.Outcome State Fault Refusal :=
  let s1 := { s with blk := modBoot (fun t => { t with clkRef := t.vdd, vddOk := t.vdd }) s.blk }
  match s.blk.boot.obs with
  | some o => if mayBoot s1.blk then .next (startSteps o s1) else .next s1
  | none => .next s1

/-! ## Power states (R18, R370, R552) -/

/-- A fetchable ring holds an announced, unconsumed descriptor. -/
def workAnnounced (b : Block) : Bool :=
  b.stalls.ents.any fun e => [0, 1, 2, 3].any fun r => fetchable b e.1 r && announced (e.2.ring r) != 0
/-- A mover channel or chute moves data. -/
def dataMoves (b : Block) : Bool :=
  (b.movers.ents.any fun e => e.2.state == 2) || b.chutes.ents.any fun e => e.2.items != [] || e.2.holder.isSome || e.2.draining
/-- The block is ACTIVE. -/
def isActive (b : Block) : Bool := b.live != [] || workAnnounced b || dataMoves b

/-- SLEEP_ENTER: IDLE has lasted SLEEP_DELAY; in a supply hold the block is not ASLEEP (R555). -/
def execSleepEnter (s : State) := updOn s 0 fun b =>
  when (!isActive b && !b.boot.asleep && !anyHold b) (fun b => { b with now := b.now + b.ym.sleepDelay, boot := { b.boot with asleep := true } }) b

/-- WAKE_IN wakes the block from ASLEEP; otherwise, and so in start-up and in a supply hold, it has no effect (R552, R555). -/
def execWakeIn (s : State) := updReady s fun b => when (!anyHold b) wake b

/-- Nartia has nothing to do: no command received or posted, no notice to post, no window operation. -/
def ymIdleNow (b : Block) : Bool :=
  b.ym.cmds.isEmpty && !b.ym.winA.busy && !b.ym.winB.busy && (List.range 8).all fun p => !(b.pair p).inFull && (b.pair p).queue == []

/-- YM_POWER_GATE: the island has been idle for YM_IDLE (R18). -/
def execYmPowerGate (s : State) := updOn s 20 fun b =>
  when (ymIdleNow b && !b.ym.gated) (fun b => modYm (fun y => { y with gated := true }) { b with now := b.now + b.ym.idleTime }) b

/-! ## The test port (R146, R550, R551) -/

/-- The controller's next state under `tap_tms` (R550, IEEE 1149.1). -/
def tapNext : TapState → Bool → TapState
  | .testLogicReset, tms => if tms then .testLogicReset else .runTestIdle
  | .runTestIdle, tms | .updateDr, tms | .updateIr, tms => if tms then .selectDr else .runTestIdle
  | .selectDr, tms => if tms then .selectIr else .captureDr
  | .captureDr, tms | .shiftDr, tms => if tms then .exit1Dr else .shiftDr
  | .exit1Dr, tms => if tms then .updateDr else .pauseDr
  | .pauseDr, tms => if tms then .exit2Dr else .pauseDr
  | .exit2Dr, tms => if tms then .updateDr else .shiftDr
  | .selectIr, tms => if tms then .testLogicReset else .captureIr
  | .captureIr, tms | .shiftIr, tms => if tms then .exit1Ir else .shiftIr
  | .exit1Ir, tms => if tms then .updateIr else .pauseIr
  | .pauseIr, tms => if tms then .exit2Ir else .pauseIr
  | .exit2Ir, tms => if tms then .updateIr else .shiftIr
/-- The `tap_tms` levels by which an 8-bit instruction is shifted in from Run-Test/Idle and takes effect, there and back. -/
def irWalk : List Bool := [true, true, false, false] ++ List.replicate 7 false ++ [true, true, false]
/-- The controller after the shift of an instruction: it is back in Run-Test/Idle, from whose reset it starts when it stands elsewhere. -/
def tapShifted (t : TapState) : TapState :=
  irWalk.foldl tapNext (if t == .runTestIdle then t else [true, true, true, true, true, false].foldl tapNext t)

/-- IDCODE (R550). -/
def idcode : BitVec 32 := 0x4D424F41

/-- An instruction is shifted in, and its register captured; what the networks behind an open port's other instructions capture is not
described: a free value (assumption 50). `tap_trst_n` resets the controller, whose instruction is then IDCODE (R534, R550). -/
def tapSelect (ir : TapIr) (b : Block) : Block :=
  let b1 := modBoot (fun t => { t with tapState := tapShifted t.tapState, tapIr := tapRuns ir b }) b
  match tapRuns ir b with
  | .trst => modBoot (fun t => { t with tapState := .testLogicReset, tapIr := .idcode }) b
  | .idcode => modBoot (fun t => { t with tapOut := idcode }) b1
  | .bypass => modBoot (fun t => { t with tapOut := 0 }) b1
  | .other _ => freed (modBoot (fun t => { t with tapOut := BitVec.ofNat 32 (Config.freeNat b.free) }) b1)
/-- TAP_INSTRUCTION. -/
def execTapInstruction (ir : TapIr) (s : State) := upd s fun b => when b.boot.vdd (tapSelect ir) b

/-- The first scan shift or BIST access since the last reset zeroes key state (R551). -/
def scanFirst (b : Block) : Block := raise evDebugOpened [] (zeroPages (zeroKeys (modBoot (fun t => { t with scanUsed := true }) b)))
/-- The port executes one of the instructions that only an open one does: scan, memory BIST access or the internal network (R550). -/
def tapDeep (b : Block) : Bool := tapOpen b && (match b.boot.tapIr with | .other _ => true | _ => false)
/-- SCAN_ACCESS through the open port, under an instruction that gives it; a scan raises `scan_mode`. -/
def scanAccess (k : ScanKind) (b : Block) : Block :=
  when (tapDeep b) (fun b =>
    let b1 := when (!b.boot.scanUsed) scanFirst b
    when (k == .scan) (modBoot fun t => { t with scan := true }) b1) b
def execScanAccess (k : ScanKind) (s : State) := upd s (scanAccess k)

/-- SCAN_MODE_FALL: the fall of `scan_mode`, or the port's closing while it is high, resets the block. -/
def execScanModeFall (s : State) : Host.Outcome State Fault Refusal := if s.blk.boot.scan then .next (warmReset causeScan s) else .next s

end Sys2Proof.Machine
end

