-- ==== Sys2Proof/Machine/Gate.lean ====
section
/-!
DEFINITION. The life-cycle commands (R147, R151, R152, R406) and the gate (R407, R432 to R440).
-/

namespace Sys2Proof.Machine

/-! ## Burns of the life-cycle commands (R387, R549) -/

/-- A burn that has been sensed as written: a transition zeroes the slots and makes the warm reset due, new roots
give the system keys (R147, R152). -/
def afterBurn (fld : FuseField) (b : Block) : Block :=
  match fld with
  | .lcGroup _ => modBoot (fun t => { t with warmDue := true }) (zeroSlots b)
  | .roots => if b.boot.scanUsed then b else deriveSystem b
  | _ => b

/-- The burn of a command that has come to it, once `vfz` is in range and no hold stands; a lost `vfz` pauses it. -/
def burnCmd (op fail id : Nat) (fld : Cmd → FuseField) (how : Burn) (s : State) : State :=
  match s.blk.cmd id with
  | none => s
  | some c =>
    if c.op == op && c.phase == 3 && c.step == 1 && !c.aborted && burnReady s.blk then
      let s1 := burn how (fld c) c.keep s
      { s1 with blk := match how with
          | .good => okCmd id [] (afterBurn (fld c) s1.blk)
          | .bad => failCmd id fail 0 s1.blk
          | .vfzLost => modCmd id (fun c => { c with waitSince := some s1.blk.now }) s1.blk }
    else s

/-- Run a step of the yardmaster island on the whole state. -/
def onYm (f : Block → Block) (s : State) : State :=
  { s with blk := when (s.blk.boot.ready && !holding s.blk 20) f s.blk }

/-- A paused burn whose command is gone runs to its end (R387). -/
def finishBurn (how : Burn) (s : State) : State :=
  match s.blk.boot.burnLeft with
  | none => s
  | some (fld, x) =>
    if !burnReady s.blk then s
    else
      let s1 := burn how fld x s
      match how with
      | .vfzLost => s1
      | .bad => { s1 with blk := modBoot (fun t => { t with burnLeft := none }) s1.blk }
      | .good => { s1 with blk := afterBurn fld (modBoot (fun t => { t with burnLeft := none }) s1.blk) }

/-! ## LIFECYCLE_ADVANCE -/

/-- The transitions of R151, by code. -/
def transition (lc target : Nat) : Bool :=
  (lc == 0 && target == 1) || (lc == 1 && target == 2) || (lc == 2 && target == 3) || (lc ≤ 3 && target == 4)
/-- Those that need the gate. -/
def transitionGated (lc target : Nat) : Bool := (lc == 2 && target == 3) || ((lc == 2 || lc == 3) && target == 4)

def lifecycleChecks (b : Block) (c : Cmd) : Checks :=
  { right := if transitionGated b.lc (c.par 0 1) then .gate 2 else .manager
    bad := paramFails c.params [(0, 1)] 1 [(0, 1, 4 < c.par 0 1)], writes := true
    state := if transition b.lc (c.par 0 1) then none else some b.lc }

/-- The first condition of R406 that a transition lacks. -/
def transitionLacks (b : Block) (target : Nat) : Option Nat :=
  let z := b.sensed
  let field := if target != 2 then none
    else if !z.roots.all Option.isSome then some 1 else if z.serial.isNone then some 2 else if z.gateKeyHash.isNone then some 3
    else if z.gatePwHash.isNone then some 4 else if z.packKeyHash.isNone then some 5 else none
  field.or (if b.boot.vfz then none else some 6)

def lifecycleBody (id : Nat) (c : Cmd) (b : Block) : Block :=
  if c.step != 0 || b.boot.warmDue then b
  else match transitionLacks b (c.par 0 1) with
    | some d => failCmd id rcCheckFailed d b
    | none => cmdStep id 1 b

/-- LIFECYCLE_ADVANCE. -/
def execLifecycleAdvance (cmd : Nat) (how : Burn) (s : State) : Host.Outcome State Fault Refusal :=
  .next (burnCmd 0x0401 rcFuseFailed cmd (fun c => .lcGroup (Fin.ofNat 4 (c.par 0 1 - 1))) how
    (onYm (runCmd (fun c => c.op == 0x0401) lifecycleChecks lifecycleBody cmd) s))

/-! ## FORGE_ROOTS -/

/-- The conditions of R147. -/
def mayForge (s : State) (b : Block) : Bool :=
  b.lc == 1 && unwritten s .roots && b.sensed.serial.isSome && b.boot.vfz && !b.boot.entropyStopped
def forgeChecks (s : State) (b : Block) (c : Cmd) : Checks :=
  { bad := paramFails c.params [] 0 [], writes := true, state := if mayForge s b then none else some b.lc }

/-- Four roots of 256 bits are drawn from the reseeded DRBG. -/
def forgeBody (id : Nat) (c : Cmd) (b : Block) : Block :=
  if c.step != 0 || b.boot.entropyPaused then b
  else drew (modCmd id (fun c => { c with step := 1, keep := drbgNow b 128 }) b)

/-- FORGE_ROOTS. -/
def execForgeRoots (cmd : Nat) (how : Burn) (s : State) : Host.Outcome State Fault Refusal :=
  .next (burnCmd 0x0402 rcForgeFailed cmd (fun _ => .roots) how
    (onYm (runCmd (fun c => c.op == 0x0402) (forgeChecks s) forgeBody cmd) s))

/-! ## Sessions (R434, R435) -/

/-- No session, and no open test port. -/
def closeSession (b : Block) : Block := tapFollows (modGate (fun g => { g with session := none, undated := false, port := false }) b)

def closeChecks (_ : Block) (c : Cmd) : Checks := { right := .any, bad := paramFails c.params [] 0 [] }
def closeBody (id : Nat) (c : Cmd) (b : Block) : Block :=
  match openSession b with
  | none => okCmd id [] b
  | some (h, _, _) => if sameHolder h c.sender then okCmd id [] (closeSession b) else failCmd id rcGateRequired 0 b
/-- GATE_CLOSE. -/
def execGateClose (cmd : Nat) (s : State) := closing s (updCmd s (fun c => c.op == 0x0406) closeChecks closeBody cmd)

/-- GATE_SESSION_EXPIRY; no session expires before its duration has begun (R434). -/
def execGateSessionExpiry (s : State) := closing s (updReady s fun b =>
  match b.ym.gate.session with
  | none => b
  | some (_, _, stop) => when (!b.ym.gate.undated) (fun b => closeSession { b with now := max b.now stop }) b)

/-! ## GATE_CHALLENGE (R407) -/

def challengeChecks (b : Block) (c : Cmd) : Checks :=
  { right := .any, pay := 32, bad := paramFails c.params [] 0 [], state := if b.boot.entropyStopped then some 0x0200 else none }
def challengeBody (id : Nat) (_ : Cmd) (b : Block) : Block :=
  when (!noEntropy b) (fun b => okCmd id (drbgNow b 32) (modGate (fun g => { g with
    challenge := some (drbgNow b 32, b.now), replaced := g.replaced ++ g.challenge.toList.map Prod.fst }) (drew b))) b
/-- GATE_CHALLENGE. -/
def execGateChallenge (cmd : Nat) (s : State) := updCmd s (fun c => c.op == 0x0403) challengeChecks challengeBody cmd

/-- A challenge serves for 60 s. -/
def challengeUs : Nat := 60000000
/-- GATE_CHALLENGE_EXPIRY. -/
def execGateChallengeExpiry (s : State) := updReady s fun b =>
  match b.ym.gate.challenge with
  | none => b
  | some (_, t) => modGate (fun g => { g with challenge := none }) { b with now := max b.now (t + challengeUs) }

/-! ## The failure count (R438 to R440) -/

/-- Cell 2 as the studbook gave it. -/
def setGateCell (v : Nat) (b : Block) : Block := modGate (fun g => { g with cell := v, fails := v % 256, reread := false }) b
/-- A lockout runs, or cell 2 has not been read. -/
def lockedOut (b : Block) : Bool :=
  !b.ym.gate.known || (match b.ym.gate.lockoutEnd with | some t => decide (b.now < t) | none => false)
/-- GATE_LOCKOUT_EXPIRY. -/
def execGateLockoutExpiry (s : State) := updReady s fun b =>
  match b.ym.gate.lockoutEnd with
  | none => b
  | some t => modGate (fun g => { g with lockoutEnd := none }) { b with now := max b.now t }

/-- A read of cell 2 is under way. -/
def gateReading (b : Block) : Bool := b.sb.any (fun o => o.user == .gateRead) || b.sbQueue.any fun o => o.user == .gateRead
/-- GATE_CELL_RETRY: at the end of the lockout that a failed read began. -/
def execGateCellRetry (s : State) := updOn s 20 fun b =>
  when (b.ym.gate.retry && !gateReading b)
    (fun b => sbAsk { user := .gateRead, cell := 2 } { b with now := max b.now (b.ym.gate.lockoutEnd.getD 0) }) b

/-! ## Credentials (R407, R436, R437) -/

def scopeOf (c : Cmd) : BitVec 32 := BitVec.ofNat 32 (c.par 0 4)
/-- SCOPE and DURATION (R405, R432). -/
def scopeErrs (c : Cmd) (pw : Bool) : List (Nat × Nat × Bool) :=
  [(0, 4, c.par 0 4 == 0 || 32 ≤ c.par 0 1 || (pw && c.par 0 1 &&& 0x16 != 0)), (1, 3, c.par 1 1 != 0), (2, 2, c.par 2 1 != 0)
  , (3, 1, c.par 3 1 != 0), (4, 4, c.par 4 4 == 0 || 14400 < c.par 4 4)]

def respondLms (c : Cmd) : Nat := c.par 168 2
def respondChecks (_ : Block) (c : Cmd) : Checks :=
  { right := .any, pay := 4
    bad := paramFails c.params [(0, 8), (8, 96), (104, 64), (168, 2), (176, 96), (272, respondLms c)] (272 + respondLms c)
      (scopeErrs c false ++ [(168, 2, respondLms c == 0 || 16384 < respondLms c)]) }
def pwLen (c : Cmd) : Nat := c.par 8 1
def passwordChecks (_ : Block) (c : Cmd) : Checks :=
  { right := .any, pay := 4
    bad := paramFails c.params [(0, 8), (8, 1), (16, pwLen c)] 80 (scopeErrs c true ++ [(8, 1, pwLen c < 8 || 64 < pwLen c)]) }

/-- The challenge that may still be answered. -/
def liveChallenge (b : Block) : Option Bytes := (b.ym.gate.challenge.filter fun x => b.now ≤ x.2 + challengeUs).map Prod.fst

/-- The string both signatures cover. -/
def signedString (b : Block) (ch : Bytes) (c : Cmd) : Bytes := ch ++ fit 16 (serialOf b) ++ slice c.params 0 8
/-- The response answers a challenge that a later one has replaced: it is that one its signature verifies over (R442; DEDUCED, assumption
99). -/
def answersOld (b : Block) (c : Cmd) : Bool :=
  b.ym.gate.replaced.any fun ch => p384Verifies (slice c.params 8 96) (signedString b ch c) (slice c.params 176 96)
/-- The first failing check of a response. -/
def respondFails (b : Block) (c : Cmd) : Option Nat :=
  if some (sha3 (slice c.params 8 160)) != b.sensed.gateKeyHash then some 1
  else match liveChallenge b with
    | none => some 4
    | some ch =>
      if !p384Verifies (slice c.params 8 96) (signedString b ch c) (slice c.params 176 96) then some (if answersOld b c then 4 else 2)
      else if !lmsVerifies (slice c.params 104 64) (signedString b ch c) (slice c.params 272 (respondLms c)) then some 3 else none
/-- The password's check. -/
def passwordFails (b : Block) (c : Cmd) : Option Nat :=
  if b.sensed.serial.isSome && some (kmac256 (serialOf b) (slice c.params 16 (pwLen c)) 32 (ascii "gate pw")) == b.sensed.gatePwHash then none
  else some 5

/-- A failed attempt starts a lockout when it leaves f at 3 or more (R439). -/
def gateFails (id r d : Nat) (b : Block) : Block :=
  failCmd id r d (modGate (fun g => { g with lockoutEnd := if 3 ≤ g.fails then some (b.now + lockoutUs g.fails) else g.lockoutEnd }) b)

/-- Step 5 of R437; a response spends the challenge. -/
def examine (isPw : Bool) (t : Take) (id : Nat) (c : Cmd) (b : Block) : Block :=
  let spend := if isPw then b else modGate (fun g => { g with challenge := none }) b
  if b.boot.entropyStopped then gateFails id rcWrongState 0x0200 spend
  else if b.boot.entropyPaused then b
  else if t = .split then gateFails id rcSplit 0 (raise evDecisionSplit [] spend)
  else if t = .cut then gateFails id rcSplit 0 spend
  else match (if isPw then passwordFails b c else respondFails b c) with
    | some d => gateFails id rcGateDenied d spend
    | none => cmdAsk id 2 2 ((b.ym.gate.cell / 256 + 1) * 256) 4 spend

/-- Debug access in FIELD: keys are zeroed first, then the port opens when both takes agree (R433, R489). -/
def openDebug (t : Take) (b : Block) : Block :=
  let b1 := raise evDebugOpened [] (zeroKeys b)
  if t = .split then raise evDecisionSplit [] b1 else modGate (fun g => { g with port := t = .agree && !noEntropy b }) b1

/-- Step 6: the session opens; its end is set when the result is written (R434). -/
def openGate (d : Take) (id : Nat) (c : Cmd) (b : Block) : Block :=
  let b1 := modGate (fun g => { g with session := some (c.sender, scopeOf c, b.now + c.par 4 4 * 1000000), undated := true, port := false }) b
  okCmd id (toLe 4 (c.par 4 4)) (when ((scopeOf c).getLsbD 4 && b.lc == 2) (openDebug d) b1)

/-- Step 4: the charge, unless f is 255. -/
def charge (isPw : Bool) (t : Take) (id : Nat) (c : Cmd) (b : Block) : Block :=
  if b.ym.gate.fails == 255 then examine isPw t id c (cmdStep id 3 b) else cmdAsk id 1 2 1 2 b

/-- A studbook operation on cell 2 failed. -/
def gateLost (id : Nat) (b : Block) : Block := failCmd id rcStudbookFailed 0 b

/-- Another sender's session lasts. -/
def otherHolds (b : Block) (x : Sender) : Bool := match openSession b with | some (h, _, _) => !sameHolder h x | none => false

/-- Steps 1 to 3, then the charge; cell 2 is read first where an ADVANCE may have been lost. -/
def gateFirst (isPw : Bool) (t : Take) (id : Nat) (c : Cmd) (b : Block) : Block :=
  if b.lc == 0 || b.lc == 1 || b.lc == 4 then failCmd id rcWrongState b.lc b
  else if lockedOut b then failCmd id rcGateLocked 0 b
  else if otherHolds b c.sender then failCmd id rcWrongState 0x0100 b
  else if b.boot.entropyStopped then failCmd id rcWrongState 0x0200 b
  else if b.ym.gate.reread then cmdAsk id 0 2 0 1 b
  else charge isPw t id c b

def gateBody (isPw : Bool) (t d : Take) (id : Nat) (c : Cmd) (b : Block) : Block :=
  match c.step with
  | 0 => gateFirst isPw t id c b
  | 1 => if c.sb == 2 then charge isPw t id c (setGateCell c.sbVal b) else when (c.sb == 3) (gateLost id) b
  | 2 => if c.sb == 2 then examine isPw t id c (cmdStep id 3 (setGateCell c.sbVal b)) else when (c.sb == 3) (gateLost id) b
  | 3 => examine isPw t id c b
  | _ => if c.sb == 2 then openGate d id c (setGateCell c.sbVal b) else when (c.sb == 3) (gateLost id) b

/-- GATE_RESPOND. -/
def execGateRespond (cmd : Nat) (t d : Take) (s : State) := closing s (updCmd s (fun c => c.op == 0x0404) respondChecks (gateBody false t d) cmd)
/-- GATE_PASSWORD: its scope never holds DEBUG. -/
def execGatePassword (cmd : Nat) (t : Take) (s : State) := closing s (updCmd s (fun c => c.op == 0x0405) passwordChecks (gateBody true t .agree) cmd)

end Sys2Proof.Machine
end

