-- ==== Sys2Proof/Machine/LeanTo.lean ====
section
/-!
DEFINITION. The lean-to's records (R490 to R498): arrival of an event and its response, the records of a tick,
marks and suppression; the event commands EVENTLOG_READ, EVENTLOG_ACK, ALARM_ACK and TIME_SET (R408, R411).
-/

namespace Sys2Proof.Machine

/-! ## Arrival (R490, R491, R494) -/

/-- LEAN_TO_EVENT_ARRIVAL. -/
def execLeanToEventArrival (s : State) := upd s fun b => when (leanToAlive b) arrive b

/-! ## The end of a tick (R494 to R497) -/

/-- A CLOCK_FAULT of a delay line whose island has a MONITOR_SPLIT in the same tick. -/
def besideSplit (l : List Event) (e : Event) : Bool :=
  e.code == evClockFault && e.source % 4 == 1 && l.any fun x => x.code == evMonitorSplit && x.source + 1 == e.source
/-- Recording order: rising source, then events without a source in rising code (R494); a CLOCK_FAULT and the MONITOR_SPLIT of its island in
code order (R501). -/
def eventKey (l : List Event) (e : Event) : Nat :=
  if e.source == 0xFF then 2 ^ 32 + e.code else (e.source - (besideSplit l e).toNat) * 2 ^ 16 + e.code
def insertEvent (k : Event → Nat) (e : Event) : List Event → List Event
  | [] => [e]
  | x :: l => if k e < k x then e :: x :: l else x :: insertEvent k e l
def inOrder (l : List Event) : List Event := l.foldl (fun acc e => insertEvent (eventKey l) e acc) []

/-- The strongest response, and whether the events of a tick carry different ones. -/
def strongest (l : List Event) : Nat := (l.map fun e => e.resp).foldl max 0
def differ (l : List Event) : Bool := l.any fun e => e.resp != strongest l
/-- Position of the last event that carries the strongest response. -/
def lastStrong (l : List Event) : Nat := (l.mapIdx fun k e => if e.resp == strongest l then k + 1 else 0).foldl max 0 - 1

/-- RFLAGS (R496). -/
def rflagsOf (b : Block) (e : Event) (subsumed : Bool) : BitVec 8 :=
  BitVec.ofNat 8 (e.resp + 4 * (e.backup && !subsumed && e.resp != 0).toNat + 8 * e.backup.toNat + 16 * subsumed.toNat
    + 64 * b.lt.clockBad.toNat)

/-- ACKED in a record. -/
def EvRecord.acked (r : EvRecord) : Bool := r.rflags.getLsbD 5
def EvRecord.resp (r : EvRecord) : Nat := r.rflags.toNat % 4

/-- Append a record: the store holds the 64 newest (R497). -/
def store (r : EvRecord) (l : LeanTo) : LeanTo :=
  let full := l.store.length == 64
  { l with store := (if full then l.store.drop 1 else l.store) ++ [r], nextSeq := l.nextSeq + 1
           lost := if full && (l.store.head?.map fun x => !x.acked).getD false then satAdd 32 l.lost 1 else l.lost }

/-- The marks an applied response sets (R493, R495). -/
def setMarks (e : Event) (seq : Nat) (l : LeanTo) : LeanTo :=
  if e.resp == 0 then l
  else if e.resp == 1 && !e.backup then { l with holdMark := some seq }
  else { l with sealMark := some seq }

/-- A LOG event beyond the eighth of its code in a second is counted, not stored (R497). -/
def suppressed (l : LeanTo) (e : Event) : Bool := e.resp == 0 && 8 ≤ (l.counts.get e.code).1

/-- Record one event of the tick. -/
def recordOne (b : Block) (subsumed : Bool) (e : Event) (l : LeanTo) : LeanTo :=
  if suppressed l e then { l with counts := l.counts.mod e.code fun c => (c.1, satAdd 16 c.2 1) }
  else
    let r : EvRecord := { seq := l.nextSeq, tick := l.tick, code := e.code, source := e.source, rflags := rflagsOf b e subsumed
                          suppressed := (l.counts.get e.code).2, detail := e.detail }
    let l1 := store r { l with counts := l.counts.mod e.code fun c => (if e.resp == 0 then c.1 + 1 else c.1, 0) }
    if subsumed then l1 else setMarks e l.nextSeq l1

/-- A new second of ticks: the counts of stored records begin again. -/
def newSecond (l : LeanTo) : LeanTo :=
  if l.tick / 32768 == l.second then l
  else { l with second := l.tick / 32768, counts := l.counts.ents.foldl (fun t e => t.set e.1 (0, e.2.2)) { dflt := (0, 0) } }

/-- The records of the tick's events, in order. -/
def recordTick (b : Block) : LeanTo :=
  let l := inOrder b.lt.tickEvents
  (l.mapIdx fun k e => (e, differ l && k != lastStrong l)).foldl (fun t x => recordOne b x.2 x.1 t) (newSecond b.lt)

/-- Each seeded generator advances and drives its next bit (R479). -/
def meshTick (x : Mesh) : Mesh :=
  if x.seeded then { x with gen := Config.meshNext x.gen, drove := (x.drove <<< 1) ||| (if Config.meshBit x.gen then 1 else 0) } else x
/-- The tick ends: records are made, marks are set, written responses apply (R501), the meshes drive their next bits, and the counter
counts (48 bits). -/
def endTick (b : Block) : Block :=
  let l := recordTick b
  { b with lt := { l with tickEvents := [], tick := (b.lt.tick + 1) % 2 ^ 48, resp := l.respDue.getD l.resp, respDue := none
                          mesh := (l.mesh.mod 0 meshTick).mod 1 meshTick } }

/-- LEAN_TO_RECORD. -/
def execLeanToRecord (s : State) := upd s fun b => when (leanToAlive b) endTick b

/-! ## The reset levels (R486) -/

/-- Every event on its way reaches the lean-to, and the tick that records them ends: what a warm reset does not take away (R486; DEDUCED,
assumption 102). -/
def recordAll (b : Block) : Block := endTick (each b.lt.fifo (fun _ => arrive) b)

/-- SUPPLY_HOLD_TIMEOUT: the event is recorded, then a warm reset. -/
def execSupplyHoldTimeout (i : IslandId) (s : State) : Host.Outcome State Fault Refusal :=
  match s.blk.holds.get i.val with
  | none => .next s
  | some t =>
    let b : Block := { s.blk with now := max s.blk.now (t + s.blk.ym.holdLimit) }
    .next (warmReset evSupplyHoldTimeout { s with blk := recordAll (raiseSource evSupplyHoldTimeout (18 + 4 * i.val) [] b) })

/-- SUPPLY_RESET: the event is recorded, then a warm reset. -/
def execSupplyReset (i : IslandId) (s : State) : Host.Outcome State Fault Refusal :=
  if armedSupply s.blk && !retired s.blk (19 + 4 * i.val) then
    .next (warmReset evSupplyReset { s with blk := recordAll (raiseSource evSupplyReset (19 + 4 * i.val) (toLe 1 i.val) s.blk) })
  else .next s

/-! ## Event commands (R408, R411, R498) -/

/-- A record's 32 bytes (R496). -/
def recordBytes (r : EvRecord) : Bytes :=
  toLe 8 r.seq ++ toLe 6 r.tick ++ toLe 2 r.code ++ toLe 1 r.source ++ toLe 1 r.rflags.toNat ++ toLe 2 r.suppressed ++ fit 12 r.detail

/-- Records from a sequence on, at most MAX. -/
def recordsFrom (b : Block) (c : Cmd) : List EvRecord := (b.lt.store.filter fun r => c.par 0 8 ≤ r.seq).take (c.par 8 2)

/-- EVENTLOG_READ. -/
def eventReadChecks (b : Block) (c : Cmd) : Checks :=
  { pay := 8 + 32 * (recordsFrom b c).length
    bad := paramFails c.params [(0, 8), (8, 2)] 10 [(8, 2, c.par 8 2 < 1 || 64 < c.par 8 2)] }
def eventReadBody (id : Nat) (c : Cmd) (b : Block) : Block :=
  okCmd id (toLe 2 (recordsFrom b c).length ++ zeros 6 ++ (recordsFrom b c).flatMap recordBytes) b
def execEventlogRead (cmd : Nat) (s : State) := updCmd s (fun c => c.op == 0x0701) eventReadChecks eventReadBody cmd

/-- UPTO as it is taken: none when no event has been recorded (R411). -/
def takenUpto (l : LeanTo) (u : Nat) : Option Nat := if l.nextSeq == 0 then none else some (min u (l.nextSeq - 1))
/-- The larger acknowledgement stands (R566). -/
def raiseAck (old : Option Nat) (u : Nat) : Option Nat := some (max (old.getD u) u)
/-- Set ACKED in held records up to `u` that an acknowledgement covers (R498). -/
def ackRecords (alarm : Bool) (u : Nat) (l : List EvRecord) : List EvRecord :=
  l.map fun r => if r.seq ≤ u && (alarm || r.resp ≤ 1) then { r with rflags := r.rflags ||| 0x20 } else r
/-- EVENTLOG_ACK and ALARM_ACK in the lean-to (R493, R498). -/
def acknowledge (alarm : Bool) (u : Nat) (l : LeanTo) : LeanTo :=
  match takenUpto l u with
  | none => l
  | some v => { l with store := ackRecords alarm v l.store, ackUpto := raiseAck l.ackUpto v
                       alarmUpto := if alarm then raiseAck l.alarmUpto v else l.alarmUpto }

def uptoChecks (r : Right) (_ : Block) (c : Cmd) : Checks := { right := r, bad := paramFails c.params [(0, 8)] 8 [] }
def ackBody (alarm : Bool) (id : Nat) (c : Cmd) (b : Block) : Block := okCmd id [] (modLt (acknowledge alarm (c.par 0 8)) b)
/-- EVENTLOG_ACK. -/
def execEventlogAck (cmd : Nat) (s : State) := updCmd s (fun c => c.op == 0x0702) (uptoChecks .manager) (ackBody false) cmd
/-- ALARM_ACK. -/
def execAlarmAck (cmd : Nat) (s : State) := updCmd s (fun c => c.op == 0x0902) (uptoChecks (.gate 3)) (ackBody true) cmd

/-- TIME_SET: the pair of wall time and tick (R411). -/
def timeChecks (_ : Block) (c : Cmd) : Checks := { pay := 8, bad := paramFails c.params [(0, 8)] 8 [] }
def timeBody (id : Nat) (c : Cmd) (b : Block) : Block :=
  okCmd id (toLe 8 b.lt.tick) (modLt (fun l => { l with wallTime := some (c.par 0 8, l.tick) }) b)
def execTimeSet (cmd : Nat) (s : State) := updCmd s (fun c => c.op == 0x0901) timeChecks timeBody cmd

end Sys2Proof.Machine
end

