-- ==== Sys2Proof/Machine/Service.lean ====
section
/-!
DEFINITION. Self-tests and fences (R132, R135 to R138, R410), the tack room's background work (R188, R189, R192) and
STUDBOOK_STATUS (R408).
-/

namespace Sys2Proof.Machine

/-! ## Lanes (R132, R136, R137) -/

/-- LANE_STATE of the eight lanes. -/
def laneStates (b : Block) : Bytes := lanes8.map fun l => BitVec.ofNat 8 (b.lane l).state
def maskChecks (_ : Block) (c : Cmd) : Checks := { pay := 8, bad := paramFails c.params [(0, 1)] 1 [] }
/-- Lanes a mask names. -/
def namedLanes (c : Cmd) : List Nat := lanes8.filter fun l => (c.par 0 4).testBit l

/-- Named lanes take no new work; empty ones are fenced at once (R137, R238). -/
def fenceBody (id : Nat) (c : Cmd) (b : Block) : Block :=
  let ask := fun (l : Nat) => modLane l fun x => { x with leaving := true }
  let b1 := each (namedLanes c) leave (if c.step == 0 then cmdStep id 1 (each (namedLanes c) ask b) else b)
  if (namedLanes c).all fun l => !(b1.lane l).leaving then okCmd id (laneStates b1) b1 else b1
/-- LANE_FENCE: its result follows once every named lane has given up its jobs (R410). -/
def execLaneFence (cmd : Nat) (s : State) := updCmd s (fun c => c.op == 0x0801) maskChecks fenceBody cmd

/-- LANE_UNFENCE clears the manager's fence alone. -/
def unfenceBody (id : Nat) (c : Cmd) (b : Block) : Block :=
  let b1 := each (namedLanes c) (fun l => modLane l fun x => { x with fencedManager := false }) (refillAll b)
  okCmd id (laneStates b1) b1
def execLaneUnfence (cmd : Nat) (s : State) := updCmd s (fun c => c.op == 0x0802) maskChecks unfenceBody cmd

/-- A lane has passed its test: fault fences clear, and LANE_UNFENCED tells that it is back in service. -/
def lanePassed (l : Nat) (b : Block) : Block :=
  let x := b.lane l
  let b1 := modLane l (fun x => { x with suspect := false, fencedFault := false, testing := false }) (refillAll b)
  when ((x.suspect || x.fencedFault) && (b1.lane l).inService) (raise evLaneUnfenced []) b1
/-- A lane has failed it. -/
def laneFailed (l : Nat) (b : Block) : Block := fence l (fun x => { x with suspect := false, fencedFault := true, testing := false }) b

/-- LANE_SELFTEST_AUTO: the test of a SUSPECT lane that has given up its jobs (R132); a SELFTEST that names the lane is its test (R135). -/
def laneAuto (l : Nat) (pass : Bool) (b : Block) : Block :=
  let x := b.lane l
  if !(x.suspect && !x.testing && x.jobs.isEmpty && !holding b (1 + l)) then b
  else if !pass then laneFailed l b
  else
    let b1 := modLane l (fun x => { x with suspect := false }) (refillAll b)
    when ((b1.lane l).inService) (raise evLaneUnfenced []) b1
def execLaneSelftestAuto (l : LaneId) (pass : Bool) (s : State) := updOn s 20 (laneAuto l.val pass)

/-! ## SELFTEST (R410) -/

/-- Bits of SCOPE that name an engine. -/
def testBits : List Nat := (List.range 8) ++ [8, 9] ++ (List.range 8).map (· + 16) ++ [24, 25, 26]
def namedTests (c : Cmd) : List Nat := testBits.filter fun k => (c.par 0 4).testBit k
def testChecks (_ : Block) (c : Cmd) : Checks :=
  { pay := 8, bad := paramFails c.params [(0, 4)] 4 [(1, 1, 4 ≤ c.par 1 1), (3, 1, 8 ≤ c.par 3 1)] }

/-- An engine leaves service for its test. -/
def testBegin (k : Nat) (b : Block) : Block :=
  let b := refillAll b
  if k < 8 then leave k (modLane k (fun x => { x with leaving := true, forTest := true }) b)
  else if k < 10 then modIsland (k - 8) (fun x => { x with inService := false }) b
  else if k < 24 then modCore (k - 16) (fun x => { x with inService := false }) b
  else if k == 24 then { b with unwrapFenced := true } else if k == 25 then { b with entropyFenced := true }
  else { b with bridgesFenced := true }
/-- An engine that is in service before its test. -/
def testServed (b : Block) (k : Nat) : Bool :=
  if k < 8 then true else if k < 10 then (b.islands.get (k - 8)).inService
  else if k < 24 then (b.cores.get (k - 16)).inService else if k == 24 then !b.unwrapFenced
  else if k == 25 then !b.entropyFenced else !b.bridgesFenced
/-- It runs no job any more. -/
def testReady (b : Block) (k : Nat) : Bool :=
  if k < 8 then (b.lane k).testing
  else if k < 10 then (List.range 8).all fun l => (b.digestJobs.get (8 * (k - 8) + l)).isNone
  else if k < 24 then (b.coreJobs.get (k - 16)).isNone && (b.cores.get (k - 16)).state != 3
  else if k == 24 then (b.unwrapJobs.get 0).isNone && (b.unwrapJobs.get 1).isNone
  else if k == 25 then b.randomJob.isNone
  else lanes8.all fun l => (b.lane l).jobs.all fun i => (b.job i).all fun j => j.desc.op != 0x18
/-- Its test has ended: it returns to service, or stays out. -/
def testEnd (pass : BitVec 27) (k : Nat) (b : Block) : Block :=
  let ok := pass.getLsbD k
  let b := refillAll b
  if k < 8 then (if ok then lanePassed k b else laneFailed k b)
  else if k < 10 then modIsland (k - 8) (fun x => { x with inService := ok }) b
  else if k < 24 then modCore (k - 16) (fun x => { x with inService := ok, microcode := if ok then b.pack.microcode else x.microcode }) b
  else if k == 24 then { b with unwrapFenced := !ok } else if k == 25 then { b with entropyFenced := !ok }
  else { b with bridgesFenced := !ok }

/-- A mask of engines. -/
def testMask (l : List Nat) : Nat := (l.map fun k => 2 ^ k).sum
def testBody (pass : BitVec 27) (id : Nat) (c : Cmd) (b : Block) : Block :=
  let l := namedTests c
  let b1 := if c.step == 0 then each l testBegin (modCmd id (fun x => { x with step := 1, keep := toLe 4 (testMask (l.filter (testServed b))) }) b) else each (l.filter (· < 8)) leave b
  if l.all (testReady b1) then
    let b2 := each l (testEnd pass) b1
    let bad := l.filter fun k => !pass.getLsbD k
    endCmd id (if bad == [] then rcOk else rcSelftestFailed) 0 (toLe 4 (testMask (l.filter fun k => pass.getLsbD k)) ++ toLe 4 (testMask bad)) b2
  else b1
/-- SELFTEST; `pass` tells which engines pass. -/
def execSelftest (cmd : Nat) (pass : BitVec 27) (s : State) := updCmd s (fun c => c.op == 0x0601) testChecks (testBody pass) cmd

/-! ## STUDBOOK_STATUS -/

/-- Sixteen reads, one after another; any that fails ends the command (R398). -/
def studbookBody (id : Nat) (c : Cmd) (b : Block) : Block :=
  if c.step == 0 then cmdAsk id 0 0 0 1 b
  else if c.sb == 3 then failCmd id rcStudbookFailed 0 b
  else if c.sb != 2 then b
  else if c.step == 16 then okCmd id (c.keep ++ toLe 8 c.sbVal) b
  else cmdAsk id 0 c.step 0 (c.step + 1) (modCmd id (fun x => { x with keep := x.keep ++ toLe 8 x.sbVal }) b)
/-- STUDBOOK_STATUS. -/
def execStudbookStatus (cmd : Nat) (s : State) :=
  updCmd s (fun c => c.op == 0x0A01) (fun _ c => { pay := 128, bad := paramFails c.params [] 0 [] }) studbookBody cmd

/-! ## The tack room's sweeps -/

/-- Tack-room writes of the background are held back by any supply hold (R485). -/
def tackFree (b : Block) : Bool := !anyHold b && !b.boot.entropyPaused

/-- GROOM_STEP: one slot gets a fresh mask; a new period begins with a new sweep (R188, R510). -/
def groom (b : Block) : Block :=
  let i := b.tack.groomPos
  let m := drbgNow b 64
  drew (modTack (fun t => if i + 1 = 8192 then { t with groomPos := 0, groomPeriod := t.groomNext } else { t with groomPos := i + 1 })
    (modSlot i (fun s => { s with material := xorBytes (xorBytes s.material s.mask) m, mask := m }) b))
def execGroomStep (s : State) := updOn s 19 fun b => when (tackFree b && !noEntropy b) groom b

/-- A stall-key slot of the sweep (R189). -/
def sweepStallKey (up : List (Fin 528)) (n : Nat) (b : Block) : Block :=
  when ((b.sk n).state != 2 && (up.any (fun i => i.val == n) || !skTagOk b n)) (skMarkBad n) b

/-- A system slot of the sweep whose tag fails (R189). -/
def sweepSystem (stuck : List (Fin 528)) (i : Nat) (b : Block) : Block :=
  if (b.tack.sys.get i).content == [] then b else sysFailed (stuck.any fun k => k.val == 512 + i) i b

/-- The system slots of the sweep that fail their tags. -/
def sysFailing (up : List (Fin 528)) (b : Block) : List Nat :=
  (List.range 16).filter fun i => !(b.tack.sys.get i).bad && (!sysTagOk b i || up.any fun k => k.val == 512 + i)

/-- SLOT_INTEGRITY_SWEEP: `up` are the slots whose stored bits have changed, `stuck` those that a rewrite does not mend. The system slots
come first, since the barn key among them tags the others; a state key that waits for its draw is drawn (R189). -/
def integritySweep (up stuck : List (Fin 528)) (b : Block) : Block :=
  when (barnHeld b && tackFree b) (fun b =>
    let b1 := redrawState b
    each (List.range 512) (sweepStallKey up) (each (sysFailing up b1) (sweepSystem stuck) b1)) b
def execSlotIntegritySweep (up stuck : List (Fin 528)) (s : State) := updOn s 19 (integritySweep up stuck)

/-- An orphan's slots are zeroed; its record keeps ORPHANED and is no longer VALID (R192). -/
def sweepOrphan (i : Nat) (b : Block) : Block :=
  modSlot i (fun s => { s with kflags := kOrphaned }) (dropKey i b)
/-- ORPHAN_SWEEP. -/
def execOrphanSweep (s : State) := updOn s 19 fun b => when (!anyHold b) (each (orphans b) sweepOrphan) b

end Sys2Proof.Machine
end

