-- ==== Sys2Proof/Machine/Dictionary.lean ====
section
/-!
DEFINITION. The object dictionary (R413 to R417, R422, R555 to R563): its entries, what each reads, and the values
each takes. Writes of fuse fields and the windows are in `Machine/Windows.lean`.
-/

namespace Sys2Proof.Machine

/-! ## Entries -/

/-- An index: type code, size in bytes, access number, highest subindex (R413, R414, R557). -/
structure Entry where
  idx : Nat
  typ : Nat
  size : Nat
  acc : Nat
  last : Nat
  deriving DecidableEq, Repr

/-- A row of the dictionary. -/
def ent (idx typ acc last : Nat) : Entry :=
  { idx, typ, acc, last, size := match typ with | 1 | 2 => 1 | 3 => 2 | 5 => 8 | _ => 4 }
/-- A BYTES row. -/
def entB (idx size acc last : Nat) : Entry := { idx, typ := 8, size, acc, last }

/-- 0x1000 to 0x2FFF (R559, R500, R530, R372, R471, R554). -/
def entries1 : List Entry :=
  [ ent 0x1000 4 0 0, ent 0x1001 9 0 0, ent 0x1002 2 0 0, entB 0x1004 32 0 0, ent 0x1010 5 0 2687, ent 0x1011 3 0 0
  , ent 0x1020 4 0 0, ent 0x1021 3 0 0, ent 0x1022 4 0 0
  , ent 0x2001 4 4 0, ent 0x2010 4 4 0, ent 0x2011 2 0 0, ent 0x2012 3 0 0, ent 0x2020 7 4 7, entB 0x2021 32 4 7
  , ent 0x2030 7 0 0, ent 0x2031 7 4 0 ]
/-- 0x3000 to 0x4FFF (R41, R198, R259, R372). -/
def entries2 : List Entry :=
  [ ent 0x3000 2 0 511, ent 0x3001 4 0 511, ent 0x3010 5 3 511, ent 0x3011 5 3 511, ent 0x3012 5 3 511, ent 0x3013 5 3 511
  , ent 0x3014 2 3 511, ent 0x3015 2 3 511, ent 0x3016 2 3 511, ent 0x3017 2 3 511, ent 0x3018 5 3 511, ent 0x3019 2 3 511
  , ent 0x3020 3 4 511, ent 0x3021 3 4 511, ent 0x3022 3 4 511, ent 0x3023 2 4 511, ent 0x3024 2 4 511
  , ent 0x3040 3 4 511, ent 0x3041 3 4 511, ent 0x3042 5 3 511, ent 0x3043 4 3 511, ent 0x3044 7 4 511
  , ent 0x4000 3 0 0, ent 0x4001 4 0 0, ent 0x4002 3 0 0, ent 0x4010 2 0 511, entB 0x4011 8 0 511, ent 0x4012 3 0 511
  , entB 0x4020 32 0 3, ent 0x4030 5 0 0, ent 0x4031 1 0 0, ent 0x4040 5 4 0, ent 0x4041 2 4 0 ]
/-- 0x5000 to 0x5FFF (R135, R245, R259, R291, R330, R354). -/
def entries3 : List Entry :=
  [ ent 0x5040 2 0 7, ent 0x5041 4 0 7, ent 0x5042 2 0 0, ent 0x5044 2 4 0, ent 0x5045 4 0 0, ent 0x5046 4 0 7, ent 0x5047 4 0 7
  , ent 0x5048 2 0 0, ent 0x5049 4 0 511, ent 0x5050 5 0 511, ent 0x5051 4 0 0, ent 0x5052 2 0 0
  , ent 0x5060 4 0 1, ent 0x5061 4 0 1, ent 0x5062 4 0 15
  , ent 0x5070 2 0 7, ent 0x5071 4 0 7, ent 0x5072 4 0 7, ent 0x5073 4 0 0, ent 0x5074 7 0 0, ent 0x5075 4 0 0
  , ent 0x5080 2 0 31, entB 0x5081 32 0 31, ent 0x5082 4 0 31, ent 0x5090 5 0 11, ent 0x5091 3 0 11, ent 0x5092 5 0 11 ]
/-- 0x6000 to 0x7FFF (R500, R513, R381, R431, R471). -/
def entries4 : List Entry :=
  [ ent 0x6000 7 0 0, ent 0x6001 7 5 0, ent 0x6002 7 0 0, ent 0x6003 7 5 0, ent 0x6004 5 0 0, ent 0x6010 2 5 0x0404
  , ent 0x6020 3 5 23, ent 0x6021 4 5 0, ent 0x6022 1 0 23, ent 0x6030 2 5 0, entB 0x6031 16 0 0
  , ent 0x6040 6 0 21, ent 0x6041 2 0 21, ent 0x6042 3 0 21, ent 0x6043 3 0 21, ent 0x6044 6 0 21, ent 0x6045 4 0 0, ent 0x6046 4 0 0
  , ent 0x7000 4 4 7, ent 0x7010 4 0 63, ent 0x7020 3 4 7, ent 0x7021 7 2 7, ent 0x7022 2 0 7, ent 0x7023 3 0 7, ent 0x7024 4 0 7
  , ent 0x7040 3 4 15, ent 0x7041 7 4 15, ent 0x7042 5 4 15, ent 0x7043 2 0 15, ent 0x7044 5 0 15, ent 0x7045 4 0 15, ent 0x7046 4 0 15
  , ent 0x7060 4 4 3 ]
/-- 0x8000 to 0xAFFF (R560, R530, R441, R562, R372, R554, R500). -/
def entries5 : List Entry :=
  [ ent 0x8000 2 0 0, ent 0x8001 7 0 0, ent 0x8002 1 0 0, ent 0x8010 2 0 0, ent 0x8011 4 0 0, ent 0x8012 7 0 0, ent 0x8013 4 0 0
  , ent 0x8014 2 0 0, ent 0x8015 4 0 0, entB 0x8020 32 6 0, entB 0x8021 32 6 0, entB 0x8022 32 6 0, entB 0x8023 16 6 0, ent 0x8024 1 6 0
  , entB 0x8025 12 6 21, entB 0x8026 24 6 0
  , ent 0x9000 4 0 511, ent 0x9001 4 0 511, ent 0x9010 4 0 511, ent 0x9011 4 0 511, ent 0x9012 4 0 511
  , ent 0xA000 5 0 0, ent 0xA001 5 0 0, ent 0xA002 4 0 0, ent 0xA003 5 0 0, ent 0xA004 5 0 0, ent 0xA005 5 0 0 ]
/-- Every index below 0xF000, in rising order. -/
def entries : List Entry := entries1 ++ entries2 ++ entries3 ++ entries4 ++ entries5

/-- The indices of Zarwick's own range that are defined: `need` of the last `left`. Which they are is not stated (R556), their number is:
2,551 of the 2,688 (R558). -/
def reservedGo : (left need : Nat) → List Nat
  | 0, _ => []
  | l + 1, need =>
    if need == 0 then []
    else if need == l + 1 || Config.reservedIndex (0xFFFF - l) then (0xFFFF - l) :: reservedGo l (need - 1) else reservedGo l need
def reservedIndices : List Nat := reservedGo 4096 (2688 - entries.length)

/-- An entry of that range: of a type and access of R413 and R414. -/
def reservedOne (i : Nat) : Entry :=
  let r := Config.reservedOd i
  let t := r.1 % 9 + 1
  if t == 8 then entB i (max 1 (min 64 (Config.reservedOdValue i 0).length)) (r.2.1 % 7) (r.2.2 % 65536) else ent i t (r.2.1 % 7) (r.2.2 % 65536)
def reservedEntry (i : Nat) : Option Entry := if 0xF000 ≤ i && reservedIndices.contains i then some (reservedOne i) else none

/-- The entry of an index. -/
def entryOf (i : Nat) : Option Entry := (entries.find? fun e => e.idx == i).or (reservedEntry i)
/-- The subindices an entry has (R557). -/
def subOk (e : Entry) (sub : Nat) : Bool := if e.idx == 0x6010 then eventKnown sub else sub ≤ e.last
/-- The entry a selector names, with the access of its element (R557). -/
def selected (i sub : Nat) : Option Entry :=
  match entryOf i with
  | none => none
  | some e =>
    if !subOk e sub then none
    else if (0x7040 ≤ i && i ≤ 0x7046 && ownChannel sub) || (i == 0x6010 && sub ≤ 0x0104) then some { e with acc := 0 }
    else some e

/-- Restricted (R415). -/
def restricted (b : Block) (i : Nat) : Bool := 0xF000 ≤ i && (b.lc == 2 || b.lc == 3)
/-- OD_INFO (R420). -/
def infoOf (b : Block) (i sub : Nat) : BitVec 32 :=
  match selected i sub with
  | none => 0
  | some e => BitVec.ofNat 32 (e.typ * 65536 + e.size * 256 + e.acc + (if restricted b i then 8 else 0))

/-- Row `n` of the catalogue (R558). -/
def catalogue (n : Nat) : Nat :=
  let all := entries ++ reservedIndices.map reservedOne
  match all[n]? with
  | none => 0
  | some e => (e.acc + (if 0xF000 ≤ e.idx then 8 else 0)) * 2 ^ 40 + e.typ * 2 ^ 32 + e.last * 65536 + e.idx

/-! ## Views: registers and pins that only show state -/

/-- Seconds from now to a time, a part of one counted as one. -/
def secondsTo (b : Block) (t : Nat) : Nat := ceilDiv (t - b.now) 1000000
/-- POWER_STATE (R370). -/
def powerState (b : Block) : Nat := if isActive b then 0 else if b.boot.asleep then 2 else 1
/-- IRQ_MGR_CAUSE (R554). -/
def mgrCause (b : Block) : Nat :=
  (b.stalls.ents.any fun e => e.2.state == .halted).toNat + 2 * (b.movers.ents.any fun e => e.2.state == 3).toNat
    + 4 * (lanesFenced b != 0).toNat
    + 8 * (((List.range 2).any fun i => !(b.islands.get i).inService) || (List.range 8).any fun c => !(b.cores.get c).inService).toNat
    + 16 * (b.boot.nonceState != 0).toNat
/-- The block drives its level outputs: `vdd` is present and step 8 has taken up the alarm state; before that each has its reset value
(R521, R534, R552; DEDUCED, assumption 104). -/
def driven (b : Block) : Bool := b.boot.vdd && 9 ≤ b.boot.step
/-- `irq_mgr` (R554). -/
def irqMgr (b : Block) : Bool := driven b && BitVec.ofNat 32 (mgrCause b) &&& b.ym.irqMgrMask != 0
/-- `irq_alarm` (R498). -/
def irqAlarm (b : Block) : Bool := driven b && (holdNow b || sealNow b)
/-- `irq_err` (R498). -/
def irqErr (b : Block) : Bool := driven b && b.lt.store.any fun r => r.resp == 0 && !r.acked
/-- `irq_mbox` and `wake_host` (R378, R383). -/
def irqMbox (b : Block) : Bool := driven b && (List.range 8).any fun p => (b.pair p).outFull && (b.pair p).irqEn
def wakeHost (b : Block) : Bool := driven b && (List.range 8).any fun p => (b.pair p).outFull && (b.pair p).wakeEn
/-- `ciN_full` of chute `c`: fewer than 4 free places; high too before the block drives it and in a hold of the chutes (R446, R472, R534). -/
def chuteFull (b : Block) (c : Nat) : Bool := !b.boot.ready || holding b 23 || 509 ≤ placesTaken (b.chute c)
/-- `coN_empty` of chute `c`: no item is in its banks, released to the reader or not; likewise (R447, R472, R534). -/
def chuteEmpty (b : Block) (c : Nat) : Bool := !b.boot.ready || holding b 23 || (b.chute c).items == []
/-- `tpo0` and `tpo1`: what a seeded pair drove last, on `vdd` or on backup; only `lt_por_n` resets them (R479, R534, R552). -/
def meshDrive (b : Block) (m : Nat) : Bool := (b.boot.vdd || b.boot.vbk) && (b.lt.mesh.get m).drove.getLsbD 0
/-- STATUS (R565). -/
def statusWord (b : Block) : BitVec 32 :=
  BitVec.ofNat 32 (b.boot.ready.toNat + 2 * b.pack.ready.toNat + 4 * (sealedPin b).toNat + 8 * (driven b && holdNow b).toNat
    + 16 * (openSession b).isSome.toNat + 32 * (irqAlarm b).toNat)
/-- BOOT_STATUS (R529); between a warm reset and step 2 STEP reads its reset value. -/
def bootStatus (b : Block) : BitVec 32 :=
  BitVec.ofNat 32 ((if b.boot.step == 2 then 1 else b.boot.step) + 16 * b.boot.stopped.toNat + 256 * b.boot.cause + 2 ^ 16 * (b.sensed.damage != 0).toNat
    + 2 ^ 17 * b.boot.engineLost.toNat + 2 ^ 18 * b.boot.noBarnKey.toNat + 2 ^ 19 * b.boot.noEpoch.toNat + 2 ^ 20 * b.boot.entropyLost.toNat)
/-- IN_STAT (R377) and OUT_CTRL (R378). -/
def inStat (m : Mbox) : BitVec 32 :=
  BitVec.ofNat 32 (m.inFull.toNat + 2 * m.dropped.toNat + 256 * m.inPriv.toNat + 512 * (portBit m.inPort).toNat + 65536 * m.reqId.toNat)
def outCtrl (m : Mbox) : BitVec 32 :=
  BitVec.ofNat 32 (m.outFull.toNat + 4 * m.stale.toNat + 16 * m.note + 256 * m.irqEn.toNat + 512 * m.wakeEn.toNat)
/-- EVENT_HEAD (R499). -/
def eventHead (b : Block) : BitVec 32 := BitVec.ofNat 32 b.lt.nextSeq
/-- STALL_STATUS (R47). -/
def stallStatus (b : Block) (n : Nat) : BitVec 32 :=
  let s := b.stall n
  BitVec.ofNat 32 (s.state.code + 16 * (bitsOf 4 ([0, 1, 2, 3].map fun r => (s.ring r).halted)).toNat + 256 * s.cqHalted.toNat
    + 512 * (s.invMask != 0).toNat + 1024 * (decide (s.cap ≤ s.inFlight)).toNat + 2048 * (decide (credits s ≤ 0)).toNat
    + 4096 * s.haltCause.toNat + 65536 * s.inFlight)
/-- A latch register, and an owner's record (R426). -/
def ownerWord (x : Sender) : Nat := x.rid.toNat + 65536 * x.priv.toNat + 131072 * (portBit x.port).toNat
def latchWord (o : Option Sender) : Nat := match o with | none => 0 | some x => 2 ^ 31 + ownerWord x

/-- Slots a stall could give up. -/
def evictCount (b : Block) (n : Nat) : Nat :=
  ((b.tack.slots.ents.filter fun e => e.2.valid && !e.2.pinned && !e.2.isGlobal && e.2.ownerStall == n && !heldByJob b e.1).map
    fun e => e.2.runLen).sum
/-- SHARED_FREE: the shared pool less what could not be evicted (R196, R198). -/
def sharedFree (b : Block) : Nat :=
  8192 - reservedSum b - globalSlots b
    - ((List.range 512).map fun n => overBy (heldBy b n - evictCount b n) (pinnedBy b n) (b.stall n).reservedSlots).sum

/-- CHUTE_STATE (R471); an armed flush shows until it has taken effect (R459). -/
def chuteState (c : Chute) : Nat :=
  if c.flush.isSome then 4 else if c.holder.isSome then 1 else if c.mover.isSome then 2 else if c.draining then 3 else 0

/-- GATE_STATE (R441). -/
def gateState (b : Block) : Nat :=
  let g := b.ym.gate
  if !(g.known || g.retry) then 1
  else if b.lc == 4 then 4 else if !gateEnforced b then 0 else if (openSession b).isSome then 2 else if lockedOut b then 3 else 1
/-- GATE_HOLDER (R441). -/
def gateHolder (b : Block) : Nat :=
  match openSession b with
  | some (x, _, _) => x.rid.toNat + 65536 * (portBit x.port).toNat + 131072 * x.priv.toNat + 2 ^ 31
  | none => 0

/-! ## What entries read -/

def read1 (b : Block) (i sub : Nat) : Nat :=
  match i with
  | 0x1000 => 0x4D424F41 | 0x1001 => versionWord | 0x1002 => 2 | 0x1004 => leNat (identityFp b) | 0x1010 => catalogue sub | 0x1011 => 2688
  | 0x1020 => b.lt.resetCount | 0x1021 => b.lt.lastReset.toNat | 0x1022 => min b.boot.bootTime 0xFFFFFFFF
  | 0x2001 => b.ym.idleTime | 0x2010 => b.ym.sleepDelay | 0x2011 => powerState b | 0x2012 => 4096 - b.live.length
  | 0x2020 => (b.chute sub).mode.toNat | 0x2021 => leNat (b.chute sub).idle | 0x2030 => mgrCause b | 0x2031 => b.ym.irqMgrMask.toNat
  | _ => 0

def read2 (b : Block) (i sub : Nat) : Nat :=
  let s := b.stall sub
  match i with
  | 0x3000 => s.state.code | 0x3001 => (match s.pid with | some p => 2 ^ 31 + p.toNat | none => 0)
  | 0x3010 | 0x3011 | 0x3012 | 0x3013 => (s.ring (i - 0x3010)).base.toNat
  | 0x3014 | 0x3015 | 0x3016 | 0x3017 => (s.ring (i - 0x3014)).k
  | 0x3018 => s.cqBase.toNat | 0x3019 => s.cqK | 0x3020 => s.cap | 0x3021 => s.reservedSlots | 0x3022 => s.spliceSource.toNat
  | 0x3023 => s.qosWeight | 0x3024 => s.urgentShare | 0x3040 => s.irqCount | 0x3041 => s.irqTime | 0x3042 => s.irqAddr.toNat
  | 0x3043 => s.irqData.toNat | 0x3044 => s.irqCtrl.toNat
  | 0x4000 => sharedFree b | 0x4001 => b.tack.groomPeriod | 0x4002 => orphanSlots b
  | 0x4010 => (b.sk sub).state | 0x4011 => leNat (b.sk sub).fp | 0x4012 => heldBy b sub | 0x4020 => leNat (custodian b sub)
  | 0x4030 => b.tack.updateCounter | 0x4031 => b.tack.replay.toNat | 0x4040 => b.tack.batBase.toNat | 0x4041 => b.tack.batK
  | _ => 0

def read3 (b : Block) (i sub : Nat) : Nat :=
  match i with
  | 0x5040 => (b.lane sub).state | 0x5041 => (b.lane sub).faults | 0x5042 => lanesFenced b | 0x5044 => b.ym.cbcGroupMax | 0x5045 => 65536
  | 0x5046 => (b.lane sub).reseedsLate | 0x5047 => (b.lane sub).hitches | 0x5048 => splicePairs b | 0x5049 => (b.stall sub).tapMismatches
  | 0x5050 => (b.stall sub).nonceCount | 0x5051 => (if b.boot.nonceState == 0 then b.boot.epoch else 0) | 0x5052 => b.boot.nonceState
  | 0x5060 => (b.islands.get sub).hits | 0x5061 => (b.islands.get sub).misses | 0x5062 => b.digestHitches.get sub
  | 0x5070 => (b.cores.get sub).state | 0x5071 => (b.cores.get sub).jobs | 0x5072 => (b.cores.get sub).checkFails
  | 0x5073 => (if b.pack.ready then b.pack.version else 0) | 0x5074 => (if b.pack.ready then b.pack.ops.toNat else 0) | 0x5075 => b.floor
  | 0x5080 => (b.curves.get sub).state | 0x5081 => leNat (b.curves.get sub).fp
  | 0x5082 => let r := (b.curves.get sub).record; field r 6 2 + 65536 * field r 5 1 + 2 ^ 24 * field r 8 1
  | 0x5090 => (b.tack.cells.get (sub + 4)).value
  | 0x5091 => (b.tack.cells.get (sub + 4)).stop - (b.tack.cells.get (sub + 4)).next | 0x5092 => (b.tack.cells.get (sub + 4)).skipped
  | _ => 0

def read4 (s : State) (i sub : Nat) : Nat :=
  let b := s.blk
  match i with
  | 0x6000 => b.lt.arm.toNat | 0x6001 => b.ym.ltArmSet.toNat | 0x6002 => b.lt.resp.toNat | 0x6003 => b.ym.ltRespSet.toNat | 0x6004 => b.lt.tick
  | 0x6010 => (if sub ≤ 0x0104 then 0 else (b.ym.responseMap.get sub).getD (eventDefault sub))
  | 0x6020 => (b.ym.supplyLevels.get sub).toNat | 0x6021 => b.ym.holdLimit | 0x6022 => (holding b sub).toNat
  | 0x6030 => b.ym.retireSet | 0x6031 => b.sensed.srcRetire.toNat
  | 0x6040 => ((b.wear.get sub).margin % 2 ^ 32).toNat | 0x6041 => s.clk.ratio.get sub | 0x6042 => (b.wear.get sub).life
  | 0x6043 => (b.wear.get sub).degradation | 0x6044 => ((b.wear.get sub).tjAvg % 2 ^ 32).toNat | 0x6045 => secondsTo b b.wearDue | 0x6046 => b.rerates
  | 0x7000 => (b.pair sub).bind.toNat | 0x7010 => latchWord (b.ym.latches.get sub)
  | 0x7020 => (b.chute sub).bind.toNat | 0x7022 => chuteState (b.chute sub) | 0x7023 => (b.chute sub).items.length | 0x7024 => (b.chute sub).errors
  | 0x7040 => (b.mover sub).grant.toNat | 0x7041 => (b.mover sub).ctrl.toNat | 0x7042 => (b.mover sub).head.toNat | 0x7043 => (b.mover sub).state
  | 0x7044 => (b.mover sub).pos.toNat | 0x7045 => (b.mover sub).doneCount | 0x7046 => (b.mover sub).missed | 0x7060 => (b.timers.get sub).1
  | _ => 0

def read5 (b : Block) (i sub : Nat) : Nat :=
  let z := b.sensed
  let g := b.ym.gate
  match i with
  | 0x8000 => lcPins b | 0x8001 => z.damage.toNat | 0x8002 => (z.roots.all Option.isSome).toNat
  | 0x8010 => gateState b | 0x8011 => gateHolder b | 0x8012 => (match openSession b with | some (_, m, _) => m.toNat | none => 0)
  | 0x8013 => (match openSession b with | some (_, _, t) => secondsTo b t | none => 0)
  | 0x8014 => (if g.known then g.fails else 0) | 0x8015 => (match g.lockoutEnd with | some t => secondsTo b t | none => 0)
  | 0x8020 => leNat (z.gateKeyHash.getD []) | 0x8021 => leNat (z.gatePwHash.getD []) | 0x8022 => leNat (z.packKeyHash.getD [])
  | 0x8023 => leNat (z.serial.getD []) | 0x8024 => z.tether.toNat | 0x8025 => leNat (z.wearBase.getD sub []) | 0x8026 => leNat z.wearCheck
  | 0x9000 => (b.stall sub).jobsDone | 0x9001 => (b.stall sub).jobsFailed | 0x9010 => (b.stall sub).demoted
  | 0x9011 => (b.stall sub).irqErrors | 0x9012 => (b.stall sub).cqRetries
  | 0xA000 => b.lt.holdMark.getD 0 | 0xA001 => b.lt.sealMark.getD 0 | 0xA002 => b.lt.lost | 0xA003 => b.lt.ackUpto.getD 0
  | 0xA004 => b.lt.alarmUpto.getD 0 | 0xA005 => b.lt.nextSeq
  | _ => 0

/-- The number an entry below 0xF000 holds. -/
def entryNum (s : State) (i sub : Nat) : Nat :=
  if i < 0x3000 then read1 s.blk i sub else if i < 0x5000 then read2 s.blk i sub else if i < 0x6000 then read3 s.blk i sub
  else if i < 0x8000 then read4 s i sub else read5 s.blk i sub
/-- The bytes an entry reads (R413). -/
def entryBytes (s : State) (e : Entry) (sub : Nat) : Bytes :=
  if 0xF000 ≤ e.idx then
    (match s.blk.ym.zarwick.get (e.idx * 65536 + sub) with | some v => toLe e.size v | none => fit e.size (Config.reservedOdValue e.idx sub))
  else toLe e.size (entryNum s e.idx sub)

/-! ## Statuses (R419) and reads (R422) -/

def odOk := 0x00
def odNoEntry := 0x01
def odNotPrivileged := 0x02
def odGateRequired := 0x03
def odNotQuiesced := 0x04
def odNotWritable := 0x05
def odOutOfRange := 0x06
def odLength := 0x07
def odSupplyHeld := 0x08
def odBadRequest := 0x09
def odWriteOnly := 0x0A

/-- A read of an entry: its status and, with OK, its bytes. -/
def odReadOp (s : State) (x : Sender) (i sub : Nat) : Nat × Bytes :=
  match selected i sub with
  | none => (odNoEntry, [])
  | some e =>
    if restricted s.blk i && !gatePasses s.blk x 0 then (odGateRequired, [])
    else if e.acc == 2 then (odWriteOnly, []) else (odOk, entryBytes s e sub)

/-! ## What entries take: none when the value is out of range (R417) -/

/-- Take a value within a range. -/
def within (lo hi v : Nat) (f : Block → Block) (b : Block) : Option Block := if lo ≤ v && v ≤ hi then some (f b) else none
/-- Take an aligned value. -/
def alignedBy (m v : Nat) (f : Block → Block) (b : Block) : Option Block := if v % m == 0 then some (f b) else none

/-- The stall table (R41, R42, R198, R259, R372). -/
def write2 (i n v : Nat) (b : Block) : Option Block :=
  match i with
  | 0x3010 | 0x3011 | 0x3012 | 0x3013 => alignedBy 4096 v (modRing n (i - 0x3010) fun g => { g with base := BitVec.ofNat 64 v }) b
  | 0x3014 | 0x3015 | 0x3016 | 0x3017 => within 4 15 v (modRing n (i - 0x3014) fun g => { g with k := v }) b
  | 0x3018 => alignedBy 4096 v (modStall n fun s => { s with cqBase := BitVec.ofNat 64 v }) b
  | 0x3019 => within 4 15 v (modStall n fun s => { s with cqK := v }) b
  | 0x3020 => within 1 4096 v (modStall n fun s => { s with cap := v }) b
  | 0x3021 => if reservedSum b - (b.stall n).reservedSlots + v ≤ 8192 then some (modStall n (fun s => { s with reservedSlots := v }) b) else none
  | 0x3022 => some (modStall n (fun s => { s with spliceSource := BitVec.ofNat 16 v &&& 0x81FF }) b)
  | 0x3023 => within 1 255 v (modStall n fun s => { s with qosWeight := v }) b
  | 0x3024 => within 0 25 v (fun b => refill n (modStall n (fun s => { s with urgentShare := v }) (refill n b))) b
  | 0x3040 => within 1 1024 v (fun b => irqCheck n (modStall n (fun s => { s with irqCount := v }) b)) b
  | 0x3041 => within 1 65535 v (fun b => irqCheck n (modStall n (fun s => { s with irqTime := v }) b)) b
  | 0x3042 => alignedBy 4 v (modStall n fun s => { s with irqAddr := BitVec.ofNat 64 v }) b
  | 0x3043 => some (modStall n (fun s => { s with irqData := BitVec.ofNat 32 v }) b)
  | 0x3044 => some (modStall n (fun s =>
      { s with irqCtrl := BitVec.ofNat 32 v &&& 3
               irqPending := if s.irqCtrl.getLsbD 0 && v.testBit 0 then s.irqPending else 0
               irqSince := if s.irqCtrl.getLsbD 0 && v.testBit 0 then s.irqSince else none }) b)
  | 0x4040 => alignedBy 4096 v (modTack fun t => { t with batBase := BitVec.ofNat 64 v }) b
  | 0x4041 => within 4 20 v (modTack fun t => { t with batK := v }) b
  | _ => none

/-- CHUTE_CTRL (R459, R460): FLUSH_NOW needs binding kind 3. -/
def chuteCtrl (c v : Nat) (b : Block) : Option Block :=
  if v.testBit 1 then (if bindKind (b.chute c) == 3 then some (flushNow c b) else none)
  else some (if v.testBit 0 then flushChute c b else b)

/-- SUPPLY_LEVELS (R487). -/
def levelsOk (v : Nat) : Bool :=
  let warn := v % 256
  let rst := v / 256
  4 ≤ warn && warn ≤ 8 && 9 ≤ rst && rst ≤ 13 && warn + 3 ≤ rst

/-- Sources 0 to 5 that one arming word arms and another does not, as bits of their numbers. -/
def newlyArmed (v old : BitVec 32) : BitVec 8 := let d := v &&& ~~~old; (d &&& 0xF ||| ((d >>> 4) &&& 0x30)).setWidth 8
/-- A write copied into the lean-to; source 7 stays armed (R480). A source armed anew may fire (R478, R479). -/
def ltArm (v : Nat) (b : Block) : Block :=
  modLt (fun l => { l with arm := (BitVec.ofNat 32 v &&& 0x7FF) ||| 0x800, fired := l.fired &&& ~~~newlyArmed (BitVec.ofNat 32 v) l.arm }) (modYm (fun y => { y with ltArmSet := BitVec.ofNat 32 v &&& 0xFFF }) b)
def ltResp (v : Nat) (b : Block) : Block :=
  modLt (fun l => { l with respDue := some (BitVec.ofNat 32 v &&& 0xFFFF) }) (modYm (fun y => { y with ltRespSet := BitVec.ofNat 32 v &&& 0xFFFF }) b)

/-- Configuration, engines, lean-to, mailboxes, chutes, movers, timers. -/
def write4 (i n v : Nat) (b : Block) : Option Block :=
  match i with
  | 0x2001 => within 100 1000000 v (modYm fun y => { y with idleTime := v }) b
  | 0x2010 => within 10 1000000 v (modYm fun y => { y with sleepDelay := v }) b
  | 0x2020 => some (modChute n (fun c => { keepReleased c with mode := BitVec.ofNat 32 v &&& 0x17F }) b)
  | 0x2021 => some (modChute n (fun c => { c with idle := toLe 32 v }) b)
  | 0x2031 => some (modYm (fun y => { y with irqMgrMask := BitVec.ofNat 32 v &&& 0x1F }) b)
  | 0x5044 => within 1 16 v (modYm fun y => { y with cbcGroupMax := v }) b
  | 0x6001 => some (ltArm v b)
  | 0x6003 => some (ltResp v b)
  | 0x6010 => within (eventFloor n) 3 v (modYm fun y => { y with responseMap := y.responseMap.set n (some v) }) b
  | 0x6020 => if levelsOk v then some (modYm (fun y => { y with supplyLevels := y.supplyLevels.set n (BitVec.ofNat 16 v) }) b) else none
  | 0x6021 => within 100 50000 v (modYm fun y => { y with holdLimit := v }) b
  | 0x7000 => some (modPair n (fun m => { m with bind := BitVec.ofNat 32 v &&& 0x8001FFFF }) b)
  | 0x7020 => some (modChute n (fun c => { c with bind := BitVec.ofNat 16 v &&& 0x31FF }) b)
  | 0x7021 => chuteCtrl n v b
  | 0x7040 => if v / 2 ^ 14 == 3 then none else some (modMover n (fun m => { m with grant := BitVec.ofNat 16 v &&& 0xC1FF }) b)
  | 0x7041 => moverCtrl n (BitVec.ofNat 32 v) b
  | 0x7042 => alignedBy 64 v (modMover n fun m => { m with head := BitVec.ofNat 64 v }) b
  | 0x7060 => within 1 3600000000 v (fun b => { b with timers := b.timers.mod n fun t => (v, t.2) }) b
  | _ => none

/-- Give an entry a value; entries of Zarwick's own range take theirs without an effect on anything described (R416, R417). -/
def entrySet (i n v : Nat) (b : Block) : Option Block :=
  if 0xF000 ≤ i then (if (reservedOne i).typ == 1 && 1 < v then none
    else some (modYm (fun y => { y with zarwick := y.zarwick.set (i * 65536 + n) (some v) }) b)) else if 0x3000 ≤ i && i < 0x5000 then write2 i n v b else write4 i n v b

/-! ## Commands (R409) -/

/-- The selector of an item. -/
def selIdx (v : Nat) : Nat := v / 65536
def selSub (v : Nat) : Nat := v % 65536
/-- Items of an OD_READ up to the first refused: their payload, and the refused item. -/
def readItems (s : State) (c : Cmd) : Nat → Nat → Bytes × Option Nat
  | 0, _ => ([], none)
  | n + 1, k =>
    let v := c.par (8 + 4 * k) 4
    match odReadOp s c.sender (selIdx v) (selSub v) with
    | (0, d) =>
      let r := readItems s c n (k + 1)
      (toLe 4 v ++ toLe 2 d.length ++ [0, 0] ++ fit (roundUp d.length 8) d ++ r.1, r.2)
    | _ => ([], some k)

def odCount (c : Cmd) : Nat := c.par 0 2
def odReadChecks (s : State) (b : Block) (c : Cmd) : Checks :=
  { right := .any, pay := (readItems { s with blk := b } c (min 64 (odCount c)) 0).1.length
    bad := paramFails c.params [(0, 2), (8, 4 * odCount c)] (8 + 4 * odCount c) [(0, 2, odCount c == 0 || 64 < odCount c)] }
/-- The items of an OD_READ. -/
def odReadBody (s : State) (id : Nat) (c : Cmd) (b : Block) : Block :=
  match readItems { s with blk := b } c (odCount c) 0 with
  | (p, none) => okCmd id p b
  | (p, some k) => endCmd id rcWrongState k p b
/-- An OD_READ takes its place when Nartia takes it up, and is checked and run at once when the operations before it have been handled: the
payload that RESULT_SPACE is judged by is the one it writes (R395, R423, R425). -/
def odRead (s : State) (id : Nat) (b : Block) : Block :=
  match b.cmd id with
  | none => b
  | some c =>
    if c.op != 0x0501 || c.phase != 2 || c.aborted then b
    else
      let b1 := takeTurn id b
      if opsBefore b1 (c.turn.getD b.ym.odNext) then b1
      else runCmd (fun c => c.op == 0x0501) (odReadChecks s) (odReadBody s) id b1
/-- OD_READ. -/
def execOdRead (cmd : Nat) (s : State) := updOn s 20 (odRead s cmd)

end Sys2Proof.Machine
end

