-- ==== Sys2Proof/Machine/PackCmds.lean ====
section
/-!
DEFINITION. Program packs (R298 to R305) and curve slots (R324 to R328): PACK_LOAD, CURVE_LOAD, CURVE_UNLOAD.
-/

namespace Sys2Proof.Machine

/-! ## Primality: Baillie-PSW (R325) -/

/-- `n = d * 2^s` with `d` odd, for `n` not 0. -/
def oddPart : Nat → Nat → Nat × Nat
  | 0, n => (n, 0)
  | f + 1, n => if n % 2 == 0 && n != 0 then let r := oddPart f (n / 2); (r.1, r.2 + 1) else (n, 0)

/-- Some `x^(2^r)`, `r < s`, is `-1` modulo `n`. -/
def hitsMinusOne (n : Nat) : Nat → Nat → Bool
  | 0, _ => false
  | s + 1, x => x == n - 1 || hitsMinusOne n s (x * x % n)

/-- Strong probable prime to base 2. -/
def strongPrp2 (n : Nat) : Bool :=
  let r := oddPart (n.log2 + 1) (n - 1)
  let x := modExp 2 r.1 n
  x == 1 || hitsMinusOne n r.2 x

/-- The Jacobi symbol, `f` bounding the steps. -/
def jacobi : Nat → Nat → Nat → Int
  | 0, _, _ => 0
  | f + 1, a, n =>
    let a := a % n
    if a = 0 then (if n = 1 then 1 else 0)
    else if a % 2 = 0 then (if n % 8 = 3 || n % 8 = 5 then -1 else 1) * jacobi f (a / 2) n
    else (if a % 4 = 3 && n % 4 = 3 then -1 else 1) * jacobi f n a

/-- Selfridge's D: the first of 5, -7, 9, -11 and so on whose Jacobi symbol is -1; none when a factor shows first. -/
def selfridge (n : Nat) : Nat → Int → Option Int
  | 0, _ => none
  | f + 1, d =>
    let j := jacobi (2 * n.log2 + 4) (d % n).toNat n
    if j = -1 then some d
    else if j = 0 && d.natAbs % n != 0 then none
    else selfridge n f (if 0 < d then -(d + 2) else -(d - 2))

/-- `x / 2` modulo an odd `n`. -/
def halfMod (n : Nat) (x : Int) : Int := let y := x % n; if y % 2 = 0 then y / 2 else (y + n) / 2

/-- The Lucas pair U and V at index `k`, and Q^k, with P = 1, from the bits of `k`, highest first. -/
def lucas (n : Nat) (d q : Int) : List Bool → Int × Int × Int → Int × Int × Int
  | [], t => t
  | bit :: l, (u, v, qk) =>
    let u2 := u * v % n
    let v2 := (v * v - 2 * qk) % n
    let q2 := qk * qk % n
    lucas n d q l (if bit then (halfMod n (u2 + v2), halfMod n (d * u2 + v2), q2 * q % n) else (u2, v2, q2))

/-- Some V at index d * 2^r, r < s, is 0. -/
def lucasHits (n : Nat) : Nat → Int → Int → Bool
  | 0, _, _ => false
  | s + 1, v, qk => v % n == 0 || lucasHits n s ((v * v - 2 * qk) % n) (qk * qk % n)

/-- Strong Lucas probable prime with Selfridge's parameters. -/
def strongLucas (n : Nat) : Bool :=
  if n.sqrt * n.sqrt == n then false
  else match selfridge n 1000 5 with
    | none => false
    | some d =>
      let q := (1 - d) / 4
      let r := oddPart (n.log2 + 2) (n + 1)
      let t := lucas n d q (bitsHigh r.1.log2 r.1) (1, 1, q % n)
      t.1 % n == 0 || lucasHits n r.2 t.2.1 t.2.2

/-- Baillie-PSW. -/
def isPrime (n : Nat) : Bool :=
  if n < 4 then n == 2 || n == 3 else n % 2 == 1 && strongPrp2 n && strongLucas n

/-! ## Curve records (R324, R325) -/

/-- The discriminant of R325. -/
def CurveRec.disc (c : CurveRec) : Nat :=
  match c.form with
  | 0 => (4 * c.a * c.a * c.a + 27 * c.b * c.b) % c.p
  | 1 => c.b * subMod c.p (c.a * c.a) 4 % c.p
  | _ => c.a * c.b * subMod c.p c.a c.b % c.p

/-- The checks of R325, in order. -/
def curveChecks (r : Bytes) : List Bool :=
  let c := parseCurve r
  let t : Int := (c.h * c.n : Nat) - ((c.p : Int) + 1)
  [ r.take 4 == [0x4D, 0x43, 0x52, 0x56] && field r 4 1 == 1 && c.form ≤ 2 && allZero (slice r 9 7)
  , c.p % 2 == 1 && isPrime c.p
  , c.p.log2 + 1 == c.bits && 160 ≤ c.bits && c.bits ≤ 571 && c.a < c.p && c.b < c.p && c.gx < c.p && c.gy < c.p && c.n < 2 ^ 576
  , c.disc != 0
  , c.on c.gx c.gy && !c.identity (some (c.gx, c.gy))
  , isPrime c.n && c.identity (c.mul (c.n.log2 + 1) c.n (some (c.gx, c.gy)))
  , 1 ≤ c.h && c.h ≤ 8 && decide (t * t ≤ 4 * c.p)
  , c.n != c.p
  , (List.range 20).all fun j => modExp c.p (j + 1) c.n != 1 ]
/-- The number of the first check that fails. -/
def curveFails (r : Bytes) : Option Nat := (curveChecks r).findIdx? (!·)

/-! ## Curve commands (R326, R327, R404) -/

def modCurve (c : Nat) (f : Curve → Curve) (b : Block) : Block := { b with curves := b.curves.mod c f }

def curveChecksOf (b : Block) (c : Cmd) : Checks :=
  let n := c.par 0 1
  { pay := 48, program := true, state := if (b.curves.get n).state != 0 then some (b.curves.get n).state else none
    bad := paramFails c.params [(0, 1), (8, 8)] 16 [(0, 1, 31 < n), (8, 8, c.par 8 8 % 16 != 0)] }

/-- Nartia takes core `k` for the seed program or a curve check, and remembers it as its number plus one: PK_STATE reads 3 (R300, R326,
R330). -/
def takeCore (id k step : Nat) (b : Block) : Block :=
  modCmd id (fun c => { c with step, note := k + 1 }) (modCore k (fun x => { x with state := 3 }) b)
/-- What runs on the core a command took; with it the core is given back. A core whose island was reset meanwhile is taken again, from step
`again`; in a hold of its island it waits. -/
def onTaken (id : Nat) (c : Cmd) (again : Nat) (f : Block → Block) (b : Block) : Block :=
  let k := c.note - 1
  if (b.cores.get k).state != 3 then cmdStep id again b
  else if holding b (11 + k) then b
  else f (modCore k (fun x => { x with state := 0 }) b)

/-- A record that has arrived: its checks run on the next free core. -/
def curveJudge (id : Nat) (c : Cmd) (b : Block) : Block :=
  let fp := sha3 c.input.bytes
  if c.input.err then failCmd id rcCheckFailed 0 b
  else if (List.range 32).any fun k => (b.curves.get k).state != 0 && (b.curves.get k).fp.take 2 == fp.take 2 then
    failCmd id rcWrongState 0x0101 b
  else match freeCore b with
    | some k => takeCore id k 2 b
    | none => b

/-- The checks of R325, and the loaded slot. -/
def curveCheck (id : Nat) (c : Cmd) (b : Block) : Block :=
  let r := c.input.bytes
  let fp := sha3 r
  match curveFails r with
  | some k => failCmd id rcCheckFailed k b
  | none => okCmd id (fp.take 2 ++ zeros 14 ++ fp) (modCurve (c.par 0 1) (fun _ => { state := 1, record := r, fp }) b)

def curveLoadBody (id : Nat) (c : Cmd) (b : Block) : Block :=
  if c.step == 2 then onTaken id c 1 (curveCheck id c) b
  else if c.step == 0 then ymRead (.input id) (BitVec.ofNat 64 (c.par 8 8)) 0 448 (modCmd id (fun c => { c with step := 1, input := { want := 448 } }) b)
  else when (c.input.full || c.input.err) (curveJudge id c) b

/-- CURVE_LOAD. -/
def execCurveLoad (cmd : Nat) (s : State) := updCmd s (fun c => c.op == 0x0301) curveChecksOf curveLoadBody cmd

/-- An admitted job that names a curve slot and has not ended. -/
def slotInUse (b : Block) (n : Nat) : Bool :=
  b.live.any fun e => 0x40 ≤ e.2.desc.op && e.2.desc.op ≤ 0x43 && curveSlot e.2.desc.variant.toNat == some n
    && e.2.stage != .ended && e.2.stage != .issued

def unloadChecks (b : Block) (c : Cmd) : Checks :=
  let n := c.par 0 1
  { state := if (b.curves.get n).state == 0 then some 0 else none, bad := paramFails c.params [(0, 1)] 1 [(0, 1, 31 < n)] }
def unloadBody (id : Nat) (c : Cmd) (b : Block) : Block :=
  let n := c.par 0 1
  if slotInUse b n then cmdStep id 1 (modCurve n (fun x => { x with state := 2 }) b)
  else okCmd id [] (modCurve n (fun _ => {}) b)

/-- CURVE_UNLOAD. -/
def execCurveUnload (cmd : Nat) (s : State) := updCmd s (fun c => c.op == 0x0302) unloadChecks unloadBody cmd

/-! ## PACK_LOAD (R299 to R302) -/

def rcPackFormat := 0x1011
def rcPackSeries := 0x1012
def rcPackKey := 0x1013
def rcPackP384 := 0x1014
def rcPackLms := 0x1015
def rcPackRollback := 0x1016

def packLen (c : Cmd) : Nat := c.par 16 4
def packChecks (_ : Block) (c : Cmd) : Checks :=
  { pay := 8, bad := paramFails c.params [(8, 8), (16, 4)] 20 [(8, 8, c.par 8 8 % 64 != 0)] }

/-- UCODE_LEN, PACK_VER, LMS_SIG_LEN. -/
def ucodeLen (p : Bytes) : Nat := field p 12 4
def packVer (p : Bytes) : Nat := field p 8 4
def packLms (p : Bytes) : Nat := field p 20 2

/-- Check 2. -/
def packFormOk (len : Nat) (p : Bytes) : Bool :=
  p.take 4 == [0x4D, 0x50, 0x41, 0x4B] && field p 4 1 == 1 && allZero (slice p 6 2) && field p 16 4 < 2 ^ 30 && field p 22 1 ≤ 1
    && allZero (slice p 23 41) && allZero (slice p 224 32) && ucodeLen p % 8 == 0 && 8 ≤ ucodeLen p && ucodeLen p ≤ 32768
    && 1 ≤ packLms p && packLms p ≤ 16384 && len == roundUp (352 + ucodeLen p + packLms p) 64

/-- Refuse a pack: dispatch resumes with the pack already loaded (R300). -/
def refusePack (id r : Nat) (b : Block) : Block := failCmd id r 0 { b with pack := { b.pack with withheld := false } }
/-- The two outcomes of a check differ, or no delay can be drawn; while the entropy island restarts the check waits (R299, R488, R489). -/
def splitPack (id : Nat) (t : Take) (f : Block → Block) (b : Block) : Block :=
  if b.boot.entropyStopped then refusePack id rcPackRefused b
  else if b.boot.entropyPaused then b
  else if t = .split then refusePack id rcSplit (raise evDecisionSplit [] b)
  else if t = .cut then refusePack id rcPackRefused b else f b

/-- The cores in service get a microcode. -/
def writeCores (code : Bytes) (b : Block) : Block :=
  { b with cores := (List.range 8).foldl (fun t k => t.mod k fun x => if x.inService then { x with microcode := code } else x) b.cores }
/-- Step 5 begins: the seed program is cleared, and a core may hold parts of two packs until it ends (R300, R387); PK dispatch stays
withheld, `pk_ready` as it was (R302). An earlier PACK_LOAD whose result write failed no longer answers for the pack. -/
def beginInstall (id : Nat) (b : Block) : Block :=
  cmdStep id 6 (writeCores [] (modYm (fun y => { y with
    unwritten := y.unwritten.map fun e => (e.1, if e.2.op == 0x0303 then { e.2 with step := 7 } else e.2) }) b))
/-- Steps 5 and 6 end: microcode into every core in service. -/
def installPack (id : Nat) (c : Cmd) (b : Block) : Block :=
  let p := c.input.bytes
  let code := slice p 256 (ucodeLen p)
  let b1 := writeCores code { b with
    pack := { ready := true, version := packVer p, ops := BitVec.ofNat 32 (field p 16 4), microcode := code } }
  okCmd id (toLe 4 (packVer p) ++ toLe 4 b1.floor) b1

def lostFloor (id : Nat) (b : Block) : Block := refusePack id rcStudbookFailed b

/-- Check 7, then any ADVANCE of R301. -/
def packFloor (t : Take) (id : Nat) (c : Cmd) (b : Block) : Block :=
  let p := c.input.bytes
  splitPack id t (fun b =>
    if packVer p < b.floor then refusePack id rcPackRollback b
    else if field p 22 1 == 1 && b.floor < packVer p then cmdAsk id 2 3 (packVer p) 4 b
    else beginInstall id b) b

/-- The lowest core in service, for the seed program, once no PK job runs and no core is reloading (R300, R304). -/
def seedCore (b : Block) : Option Nat :=
  if (List.range 8).all fun k => (b.coreJobs.get k).isNone && (b.cores.get k).state == 0 then
    (List.range 8).find? fun k => (b.cores.get k).inService else none
/-- Checks 5 and 6, by the seed program. -/
def packSigs (t : Take) (id : Nat) (c : Cmd) (b : Block) : Block :=
  let p := c.input.bytes
  let msg := p.take (256 + ucodeLen p)
  splitPack id t (fun b =>
    if !p384Verifies (slice p 64 96) msg (slice p (256 + ucodeLen p) 96) then refusePack id rcPackP384 b
    else if !lmsVerifies (slice p 160 64) msg (slice p (352 + ucodeLen p) (packLms p)) then refusePack id rcPackLms b
    else cmdAsk id 0 3 0 3 b) b

/-- Checks 2 to 4 on a pack that has arrived; then PK dispatch is withheld. -/
def packForm (t : Take) (id : Nat) (c : Cmd) (b : Block) : Block :=
  let p := c.input.bytes
  if c.input.err || !packFormOk (packLen c) p then refusePack id rcPackFormat b
  else if field p 5 1 != 2 then refusePack id rcPackSeries b
  else splitPack id t (fun b =>
    if some (sha3 (slice p 64 160)) != b.sensed.packKeyHash then refusePack id rcPackKey b
    else cmdStep id 2 { b with pack := { b.pack with withheld := true } }) b

/-- The steps of R300. -/
def packBody (t : Take) (id : Nat) (c : Cmd) (b : Block) : Block :=
  match c.step with
  | 0 =>
    let n := min (packLen c) 49536
    if b.lc == 4 || b.sensed.packKeyHash.isNone then failCmd id rcPackRefused 0 b
    else if n == 0 then failCmd id rcPackFormat 0 b
    else ymRead (.input id) (BitVec.ofNat 64 (c.par 8 8)) 0 n (modCmd id (fun c => { c with step := 1, input := { want := n } }) b)
  | 1 => when (c.input.full || c.input.err) (packForm t id c) b
  | 2 => match seedCore b with | some k => takeCore id k 5 b | none => b
  | 3 => if c.sb == 2 then packFloor t id c b else when (c.sb == 3) (lostFloor id) b
  | 4 => if c.sb == 2 then beginInstall id b else when (c.sb == 3) (lostFloor id) b
  | 5 => onTaken id c 2 (packSigs t id c) b
  | _ => installPack id c b

/-- PACK_LOAD. -/
def execPackLoad (cmd : Nat) (t : Take) (s : State) := updCmd s (fun c => c.op == 0x0303) packChecks (packBody t) cmd

end Sys2Proof.Machine
end

