-- ==== Sys2Proof/Machine/PortResponses.lean ====
section
/-!
DEFINITION. Responses on the tagged ports (R536 to R538, R542, R548): read data finds its way to what asked for it,
acknowledged writes let their owners go on, errors have the outcomes of R542.
-/

namespace Sys2Proof.Machine

/-! ## Errors of a job's data (R103, R542) -/

/-- A data read or write of a job ends in an error (R103). -/
def dataError (i : Nat) (b : Block) : Block := errorIn i .portError b

/-! ## Reads -/

/-- A whole answer: a piece at its offset, or the error. -/
def Buf.answer (x : Buf) (off : Nat) (data : Bytes) (bad : Bool) : Buf := if bad then { x with err := true } else x.put off data

/-- A job's own preparation reads. -/
def jobBuf (i : Nat) (f : Job → Job) (b : Block) : Block := modJob i f b
/-- A running job's reads: an error is a data error. -/
def runBuf (i : Nat) (bad : Bool) (f : Job → Job) (b : Block) : Block := if bad then dataError i b else modJob i f b

/-- Descriptor bytes (R60, R542). -/
def giveDesc (n r : Nat) (first : Idx) (f : Buf → Buf) (b : Block) : Block :=
  modRing n r (fun g => { g with fetching := g.fetching.map fun e => if e.1 == first then (e.1, e.2.1, f e.2.2.1, e.2.2.2) else e }) b

/-- Parameter-block bytes. -/
def givePblk (p : PBlk) (f : Buf → Buf) : PBlk :=
  match p with
  | .reading x => let y := f x; if y.err then .failed else if y.full then .got y.bytes else .reading y
  | q => q

/-- The blob of a job that is in a phase, by its place. -/
def giveBlob (i : Nat) (second : Bool) (f : BlobRead → BlobRead) (b : Block) : Block :=
  modJob i (fun j => { j with blobs := j.blobs.map fun x => if x.second == second then f x else x }) b

/-- A state blob in preparation, or the saved tap state a splice reads back: one that does not open ends the job (R266). -/
def giveState (i : Nat) (bad : Bool) (f : Buf → Buf) (b : Block) : Block :=
  match b.job i with
  | none => b
  | some j =>
    if j.stage == .running then
      let b1 := runBuf i bad (fun x => { x with restore := f x.restore }) (useSys 2 b)
      match b1.job i with
      | some x => when (x.stage == .running && tapLost b1 x) (errorIn i .doubleFault) b1
      | none => b1
    else modJob i (fun x => { x with restore := f x.restore }) b

/-- The attribute block: a job without a key has it checked at once, once the tack room runs (R13). -/
def giveAttr (i : Nat) (f : Buf → Buf) (b : Block) : Block :=
  let b1 := modJob i (fun j => { j with attrBlk := f j.attrBlk }) b
  match b1.job i with
  | some j => if takesKey j.desc || holding b 19 then b1 else settle i (checkAttr i b1)
  | none => b1

/-- A table read again that differs ends its job (R87). -/
def tableSecond (i : Nat) (expect data : Bytes) (bad : Bool) (b : Block) : Block :=
  if bad then dataError i b
  else if data == expect then b
  else match b.job i with
    | some j => if j.stage == .running then errorIn i .fragmentTableInvalid b else b
    | none => b

/-- A channel whose last transaction of an earlier walk has returned becomes IDLE (R468). -/
def moverReturned (m : Nat) (b : Block) : Block :=
  when ((b.mover m).waitEnable && ownPending (moverReq m) b == 0) (enableMover m) b

/-- Data of a channel's read, wanted at one step of its walk. -/
def giveMover (m step : Nat) (f : Mover → Mover) (b : Block) : Block :=
  moverReturned m (modMover m (fun x => if x.state = 2 && x.step = step then f x else x) b)

/-- The bytes of a read reach what asked for them. -/
def deliver (r : Req) (data : Bytes) (bad : Bool) (b : Block) : Block :=
  let f := fun (x : Buf) => x.answer r.off data bad
  match r.owner with
  | .desc n g first => giveDesc n.val g.val first f b
  | .pblk n g idx => modCaptured n.val g.val idx (fun c => { c with pblk := givePblk c.pblk f }) b
  | .table i dst => modWalk i dst (fun w => { w with buf := f w.buf }) b
  | .tableAgain i expect => tableSecond i expect data bad b
  | .attr i => giveAttr i f b
  | .stateBlob i => giveState i bad f b
  | .bat i s => giveBlob i s (fun x => { x with head := f x.head }) b
  | .blobHead i s => giveBlob i s (fun x => { x with head := f x.head }) b
  | .blobRest i s => giveBlob i s (fun x => { x with rest := f x.rest }) b
  | .src i => shareRunning i (runBuf i bad (fun j => { j with src := f j.src }) b)
  | .srcAgain i => runBuf i bad (fun j => { j with again := f j.again }) b
  | .aux i => runBuf i bad (fun j => { j with aux := f j.aux }) b
  | .exp i => runBuf i bad (fun j => { j with exp := f j.exp }) b
  | .sheet c => sheetStep c (modCmd c (fun x => { x with sheet := f x.sheet }) b)
  | .input c => modCmd c (fun x => { x with input := f x.input }) b
  | .moverDesc m => giveMover m.val 1 (fun x => { x with buf := f x.buf }) b
  | .moverTable m => giveMover m.val 2 (fun x => { x with buf := f x.buf }) b
  | .moverData m => giveMover m.val 3 (fun x => { x with data := f x.data }) b
  | .data _ | .zero _ | .tapSave _ | .completion _ _ | .irq _ | .image _ | .payload _ | .header _ | .moverStatus _ | .discard => b

/-- One beat of a read that is not its last. -/
def beat (p : Port) (tag : Nat) (data : Bytes) (err : Bool) (b : Block) : Block :=
  setPort p { b.port p with out := (b.port p).out.map fun g =>
    if g.tag == tag then { g with got := g.got ++ data, bad := g.bad || err } else g } b

/-- A beat of read data, or an error, under a tag: whole lanes, of which the bytes before and after those needed are discarded (R537);
data that stops short is an error (R99, R139). -/
def readResponse (p : Port) (tag : Nat) (data : Bytes) (err last : Bool) (b : Block) : Block :=
  match flightOf b p tag with
  | none => b
  | some g =>
    if g.req.write then b
    else if !last then beat p tag data err b
    else
      let all := (g.got ++ data).drop (g.req.lead p)
      drained (lanesDone (deliver g.req (fit g.req.len all) (g.bad || err || all.length < g.req.len) (retire p tag b)))

/-- DATA_READ_RESPONSE. -/
def execDataReadResponse (p : Port) (tag : Nat) (data : Bytes) (err last : Bool) (s : State) := upd s (readResponse p tag data err last)

/-! ## Writes -/

/-- The tap state of a splice that left its pair is saved, or its save failed, which ends the job at its unhitch (R249, R268). -/
def tapSaved (i : Nat) (err : Bool) (b : Block) : Block :=
  let b1 := if err then modJob i (fun j => if j.desc.op == 0x18 then { j with portErr := true } else j) b else b
  if ownPending (fun o => o == .tapSave i) b1 == 0 then
    { b1 with lanes := (List.range 8).foldl (fun t l => t.mod l fun x => if x.tapSaving == some i then { x with tapSaving := none } else x) b1.lanes }
  else b1

/-- A command's payload write (R392, R393); one that fails is the last of the result, and a session that the command opened lasts from it
(R434). -/
def payloadDone (id : Nat) (err : Bool) (b : Block) : Block :=
  if err then endNotice id 2 (dropReqs (fun o => o == .payload id) (match b.cmd id with | some c => dateSession c b | none => b))
  else when (ownPending (fun o => o == .payload id) b == 0) (writeHeader id) b

/-- A command's result header is acknowledged: its notice follows (R386, R392, R393). -/
def headerDone (id : Nat) (err : Bool) (b : Block) : Block :=
  match b.cmd id with
  | none => b
  | some c =>
    if c.aborted then flushAborted c.pair.val b.ym.cmds.length (modCmd id (fun x => { x with phase := 6 }) b)
    else endNotice id (if err then 2 else 0) b

/-- A channel's writes (R467, R542). -/
def moverWriteDone (m : Nat) (status err : Bool) (b : Block) : Block :=
  let x := b.mover m
  moverReturned m (when (err && x.state == 2)
    (fun b => if status then modMover m (fun x => { x with mstatus := .portError }) b
              else when (x.step == 3 || (x.step == 4 && x.mstatus == .done)) (moverBreaks m .portError) b) b)

/-- What an acknowledged or failed write does for its owner. -/
def acked (r : Req) (err : Bool) (b : Block) : Block :=
  match r.owner with
  | .data i | .zero i => when err (dataError i) b
  | .tapSave i => tapSaved i err b
  | .irq n => when err (modStall n.val fun s => { s with irqErrors := satAdd 32 s.irqErrors 1 }) b
  | .image c => when err (modCmd c fun x => { x with note := 1 }) b
  | .payload c => payloadDone c err b
  | .header c => headerDone c err b
  | .moverData m => moverWriteDone m.val false err b
  | .moverStatus m => moverWriteDone m.val true err b
  | _ => b

/-- A write-done beat; a completion entry's is handled as COMPLETION_WRITE_ACK handles it. -/
def writeDone (p : Port) (tag : Nat) (err : Bool) (b : Block) : Block :=
  match flightOf b p tag with
  | none => b
  | some g =>
    if !g.req.write then b
    else match g.req.owner with
      | .completion _ _ => ackArrives tag err b
      | _ => drained (lanesDone (acked g.req err (retire p tag b)))

/-- WRITE_DONE_RESPONSE. -/
def execWriteDoneResponse (p : Port) (tag : Nat) (err : Bool) (s : State) := upd s (writeDone p tag err)

end Sys2Proof.Machine
end

