-- ==== Sys2Proof/Machine/Windows.lean ====
section
/-!
DEFINITION. Writes of the dictionary (R414, R417, R422, R477, R549, R561), OD_WRITE (R409), the access windows
(R418 to R424), latches (R426 to R430) and the remaining registers of a management window (R376, R378, R564).
-/

namespace Sys2Proof.Machine

/-! ## Writes -/

/-- The fuse field of an FZ entry (R560). -/
def fzField (i sub : Nat) : Option FuseField :=
  match i with
  | 0x8020 => some .gateKeyHash | 0x8021 => some .gatePwHash | 0x8022 => some .packKeyHash | 0x8023 => some .serial
  | 0x8024 => some .tether | 0x8025 => some (.wearBase (Fin.ofNat 22 sub)) | 0x8026 => some .wearCheck | _ => none

/-- Every stall is FREE or QUIESCED; of a stall-table entry, its own stall is QUIESCED (R414). -/
def quiescedFor (b : Block) (i sub : Nat) : Bool :=
  if 0x3000 ≤ i && i < 0x4000 then (b.stall sub).state == .quiesced
  else b.stalls.ents.all fun e => e.2.state == .free || e.2.state == .quiesced

/-- The refusal of an access code (R414); `again` when the write's burn has already begun. -/
def refusal (again : Bool) (s : State) (x : Sender) (e : Entry) (i sub : Nat) : Option Nat :=
  let b := s.blk
  if e.acc == 0 then some odNotWritable
  else if e.acc == 1 then none
  else if !x.priv then some odNotPrivileged
  else if e.acc == 3 then (if quiescedFor b i sub then none else some odNotQuiesced)
  else if e.acc == 5 then (if again || gatePasses b x 0 then none else some odGateRequired)
  else if e.acc == 6 && !again then
    (if b.lc != 1 || b.boot.warmDue || !(match fzField i sub with | some f => unwritten s f | none => false) then some odNotWritable
     else if !burnReady b then some odSupplyHeld else none)
  else none

/-- How a burn's end shows: a mismatch reports NOT_WRITABLE (R561); none while it pauses. -/
def burnStatus : Burn → Option Nat
  | .good => some odOk
  | .bad => some odNotWritable
  | .vfzLost => none

/-- A burn of an entry's field, or the next part of one that has paused (R549). -/
def burnEntry (how : Burn) (fld : FuseField) (x : Bytes) (s : State) : Option Nat × State :=
  if burnReady s.blk then (burnStatus how, burn how fld x s) else (none, s)

/-- Sources that may be retired (R476): not the entropy tests, not a reserved number, not one whose partner is retired. -/
def retirable (b : Block) (n : Nat) : Bool := n ≤ 7 || (16 ≤ n && n ≤ 111 && !retired b (n ^^^ 1))
/-- SRC_RETIRE_BURN (R477). -/
def retire1 (again : Bool) (how : Burn) (n : Nat) (s : State) : Option Nat × State :=
  if !again && !retirable s.blk n then (some odOutOfRange, s)
  else if !again && !burnReady s.blk then (some odSupplyHeld, s)
  else
    let r := burnEntry how .srcRetire (toLe 16 (2 ^ n)) s
    (r.1, if r.1 == some odOk then
        { r.2 with blk := raiseWith (respOf r.2.blk evMonitorRetired n) evMonitorRetired (toLe 1 n) n (modYm (fun y => { y with retireSet := n }) r.2.blk) }
      else r.2)

/-- The value of a write that has passed every check but its range. -/
def storeEntry (again : Bool) (how : Burn) (e : Entry) (i sub : Nat) (d : Bytes) (s : State) : Option Nat × State :=
  if e.acc == 6 then
    match fzField i sub with
    | none => (some odNotWritable, s)
    | some f => if !again && (allZero d || (e.typ == 1 && 1 < leNat d)) then (some odOutOfRange, s) else burnEntry how f d s
  else if i == 0x6030 then retire1 again how (leNat d) s
  else match entrySet i sub (leNat d) s.blk with
    | none => (some odOutOfRange, s)
    | some b => (some odOk, { s with blk := b })

/-- A write of an entry: its status, none while its burn pauses (R422). -/
def odWriteOp (again : Bool) (how : Burn) (x : Sender) (i sub : Nat) (d : Bytes) (s : State) : Option Nat × State :=
  match selected i sub with
  | none => (some odNoEntry, s)
  | some e =>
    match refusal again s x e i sub with
    | some r => (some r, s)
    | none => if d.length != e.size then (some odLength, s) else storeEntry again how e i sub d s

/-! ## OD_WRITE (R409) -/

/-- Offset of item `k` among the parameters. -/
def itemOff (c : Cmd) : Nat → Nat
  | 0 => 8
  | k + 1 => let o := itemOff c k; o + 8 + roundUp (c.par (o + 4) 2) 8
def itemLen (c : Cmd) (k : Nat) : Nat := c.par (itemOff c k + 4) 2
def odWriteChecks (_ : Block) (c : Cmd) : Checks :=
  let n := min 64 (odCount c)
  { right := .any, pay := 2
    bad := paramFails c.params ((0, 2) :: (List.range n).flatMap fun k => [(itemOff c k, 6), (itemOff c k + 8, itemLen c k)]) (itemOff c n)
      [(0, 2, odCount c == 0 || 64 < odCount c)] }

/-- Items of a command from the `k`-th on, `again` when the burn of that one has begun: the state, how many are written, and whether the rest
was written, or refused from there; none while a burn pauses (R409, R549). -/
def itemsFrom (how : Burn) (c : Cmd) : Nat → Nat → Bool → State → State × Nat × Option Bool
  | 0, k, _, s => (s, k, some true)
  | n + 1, k, again, s =>
    if odCount c ≤ k then (s, k, some true)
    else
      let sel := c.par (itemOff c k) 4
      let r := odWriteOp again how c.sender (selIdx sel) (selSub sel) (slice c.params (itemOff c k + 8) (itemLen c k)) s
      match r.1 with
      | none => (r.2, k, none)
      | some 0 => itemsFrom how c n (k + 1) false r.2
      | some _ => (r.2, k, some false)

/-- Items from the next one on, all in one go; the first refused ends the command, and a paused burn suspends it. -/
def writeItems (how : Burn) (id : Nat) (s : State) : State :=
  match s.blk.cmd id with
  | none => s
  | some c =>
    let r := itemsFrom how c 66 c.note c.waitSince.isSome s
    match r.2.2 with
    | none => { r.1 with blk := modCmd id (fun x => { x with
        note := r.2.1, waitSince := some (if r.2.1 == c.note then c.waitSince.getD s.blk.now else s.blk.now) }) r.1.blk }
    | some true => { r.1 with blk := okCmd id (toLe 2 r.2.1) r.1.blk }
    | some false => { r.1 with blk := endCmd id rcWrongState r.2.1 (toLe 2 r.2.1) r.1.blk }

/-- The items of a command that has passed its checks, once the operations that arrived before them have been handled (R423, R425, R442). -/
def runItems (how : Burn) (id : Nat) (s : State) : State :=
  match s.blk.cmd id with
  | none => s
  | some c =>
    if c.op == 0x0502 && c.phase == 3 && c.step == 1 && !c.aborted && !holding s.blk 20 && !opsBefore s.blk (c.turn.getD 0) then
      writeItems how id s
    else s

/-- OD_WRITE; `how` tells how a burn among its items goes. Its items arrive when Nartia takes it up. -/
def execOdWrite (cmd : Nat) (how : Burn) (s : State) : Host.Outcome State Fault Refusal :=
  .next (runItems how cmd (onYm (runCmd (fun c => c.op == 0x0502) odWriteChecks
    (fun id c b => if c.step == 0 then cmdStep id 1 (takeTurn id b) else b) cmd) s))

/-- Items whose command a restart of Nartia has ended while a burn of theirs paused: all of the command's changes are made once the supply is
back (R387; DEDUCED, assumption 119). -/
def finishItems (how : Burn) (s : State) : State :=
  s.blk.ym.changesDue.foldl (fun s c =>
    let keep := fun (c : Cmd) (s : State) => { s with blk := modYm (fun y => { y with changesDue := y.changesDue ++ [c] }) s.blk }
    if c.op == 0x0502 && burnReady s.blk then
      let r := itemsFrom how c 66 c.note true s
      if r.2.2.isNone then keep { c with note := r.2.1 } r.1 else r.1
    else keep c s) { s with blk := modYm (fun y => { y with changesDue := [] }) s.blk }

/-- VFZ_WITHIN_RANGE: the programming supply is in range again; paused burns whose commands are gone go on (R387, R549). -/
def execVfzWithinRange (how : Burn) (s : State) : Host.Outcome State Fault Refusal :=
  if s.blk.boot.vdd then
    let s1 := { s with blk := modBoot (fun t => { t with vfz := true }) s.blk }
    .next (if s1.blk.boot.burnLeft.isSome then finishBurn how s1 else finishItems how s1)
  else .next s

/-! ## Access windows (R418 to R424) -/

def Block.win (b : Block) (p : MPort) : Window := if p = .a then b.ym.winA else b.ym.winB
def modWin (p : MPort) (f : Window → Window) (b : Block) : Block :=
  modYm (fun y => if p = .a then { y with winA := f y.winA } else { y with winB := f y.winB }) b
def otherPort (p : MPort) : MPort := if p = .a then .b else .a
/-- Index and subindex of the selector (R418). -/
def Window.index (w : Window) : Nat := w.select.toNat / 65536
def Window.sub (w : Window) : Nat := w.select.toNat % 65536

/-- An operation ends: OD_STATUS and OD_INFO are set, BUSY clears (R420, R422). -/
def endWindow (p : MPort) (st : Nat) (b : Block) : Block :=
  modWin p (fun w => { w with status := BitVec.ofNat 8 st, info := infoOf b w.index w.sub, busy := false, burnSince := none }) b

/-- A write to OD_CTRL (R419, R421). -/
def odCtrl (x : Sender) (v : BitVec 32) (b : Block) : Block :=
  let p := x.port
  let len := v.extractLsb' 8 8
  if (b.win p).busy then b
  else
    let b1 := modWin p (fun w => { w with len }) b
    let rd := v.getLsbD 0
    let wr := v.getLsbD 1
    if (rd && wr) || (wr && (len == 0 || 64 < len.toNat)) then endWindow p odBadRequest (wakeYm b1)
    else if !rd && !wr then b1
    else
      wakeYm
        (modWin p (fun w => { w with busy := true, isWrite := wr, sender := x, burnSince := none, turn := b.ym.odNext })
          (modYm (fun y => { y with odNext := y.odNext + 1 }) b1))

/-- A write to OD_CTRL on a management port. -/
def ctrlAccess (v : BitVec 32) (x : Sender) (whole : Bool) (b : Block) : Block := when (windowsOpen b && whole) (odCtrl x v) (mpWrite x b)
/-- OD_CTRL_READ: a write to OD_CTRL that sets READ. -/
def execOdCtrlRead (v : BitVec 32) (x : Sender) (whole : Bool) (s : State) :=
  upd s (mpRequest 1 x (.odCtrlRead v x whole) (ctrlAccess (v ||| 1) x whole))
/-- OD_CTRL_WRITE: a write to OD_CTRL that sets WRITE. -/
def execOdCtrlWrite (v : BitVec 32) (x : Sender) (whole : Bool) (s : State) :=
  upd s (mpRequest 1 x (.odCtrlWrite v x whole) (ctrlAccess (v ||| 2) x whole))

/-- A window read. -/
def windowRead (p : MPort) (s : State) : State :=
  let w := s.blk.win p
  let r := odReadOp s w.sender w.index w.sub
  { s with blk := endWindow p r.1 (modWin p (fun w =>
      if r.1 == odOk then { w with data := fit 64 r.2, len := BitVec.ofNat 8 r.2.length }
      else if r.1 == odWriteOnly then { w with data := zeros 64 } else w) s.blk) }

/-- A window write; a burn that `vfz` has left for 50 ms ends it (R549). -/
def windowWrite (p : MPort) (how : Burn) (s : State) : State :=
  let w := s.blk.win p
  match w.burnSince, s.blk.boot.vfz with
  | some t, false => { s with blk := endWindow p odNotWritable { s.blk with now := max s.blk.now (t + 50000) } }
  | _, _ =>
    let r := odWriteOp w.burnSince.isSome how w.sender w.index w.sub (w.data.take w.len.toNat) s
    match r.1 with
    | none => { r.2 with blk := modWin p (fun w => { w with burnSince := some (w.burnSince.getD s.blk.now) }) r.2.blk }
    | some st => { r.2 with blk := endWindow p st r.2.blk }

/-- The operation of a window runs, once `ready` has risen and no operation that arrived earlier waits (R423, R527). -/
def runWindow (p : MPort) (how : Burn) (s : State) : State :=
  let w := s.blk.win p
  if !w.busy || !s.blk.boot.ready || holding s.blk 20 || opsBefore s.blk w.turn then s
  else if w.isWrite then windowWrite p how s else windowRead p s

/-- DICTIONARY_OPERATION. -/
def execDictionaryOperation (p : MPort) (how : Burn) (s : State) : Host.Outcome State Fault Refusal := .next (runWindow p how s)

/-- A sender sets its window up for a write of an entry, and starts it. -/
def setWindow (x : Sender) (i sub : Nat) (d : Bytes) (b : Block) : Block :=
  if (b.win x.port).busy then b
  else odCtrl x (BitVec.ofNat 32 (d.length * 256 + 2))
    (modWin x.port (fun w => { w with select := BitVec.ofNat 32 (i * 65536 + sub), data := fit 64 d }) b)
/-- The writes by which a sender sets its window up, as the port handles them: a window that is busy, or not yet open, drops each, and each is
answered (R527, R539). -/
def setupAccess (x : Sender) (i sub : Nat) (d : Bytes) (b : Block) : Block := when (windowsOpen b) (setWindow x i sub d) (mpWrite x b)
/-- A window write of one entry, `c`, from its registers to its outcome: writes of the selector, the data words and OD_CTRL, then the
operation, when the window took it. Started before `ready`, or while Nartia's island holds, it stays BUSY and runs later (R527); while the
port islands hold the writes wait in their FIFO (R539). -/
def writeEntry (how : Burn) (x : Sender) (c : Instr) (i sub : Nat) (d : Bytes) (s : State) : Host.Outcome State Fault Refusal :=
  let runs := windowsOpen s.blk && !(s.blk.win x.port).busy && mpCredits s.blk x.port != 0 && !holding s.blk 22
  let s1 := { s with blk := mpRequest (2 + ceilDiv d.length 4) x c (setupAccess x i sub d) s.blk }
  .next (if runs then runWindow x.port how s1 else s1)

/-- FZ_WRITE: a window write of an FZ entry (R561). -/
def execFzWrite (i sub : BitVec 16) (d : Bytes) (x : Sender) (how : Burn) (s : State) : Host.Outcome State Fault Refusal :=
  if (fzField i.toNat sub.toNat).isSome then writeEntry how x (.fzWrite i sub d x how) i.toNat sub.toNat d s else .next s
/-- SRC_RETIRE_BURN: a window write of that entry (R477). -/
def execSrcRetireBurn (src : Byte) (x : Sender) (how : Burn) (s : State) : Host.Outcome State Fault Refusal :=
  writeEntry how x (.srcRetireBurn src x how) 0x6030 0 [src] s
/-- LT_ARM_SET: a window write of that entry (R480). -/
def execLtArmSet (v : BitVec 32) (x : Sender) (s : State) : Host.Outcome State Fault Refusal :=
  writeEntry .good x (.ltArmSet v x) 0x6001 0 (toLe 4 v.toNat) s
/-- LT_RESP_SET: a window write of that entry (R480). -/
def execLtRespSet (v : BitVec 32) (x : Sender) (s : State) : Host.Outcome State Fault Refusal :=
  writeEntry .good x (.ltRespSet v x) 0x6003 0 (toLe 4 v.toNat) s

/-! ## Latches (R426 to R430) -/

def setLatch (l : Nat) (o : Option Sender) (b : Block) : Block := modYm (fun y => { y with latches := y.latches.set l o }) b

/-- A read of a latch register acquires a free latch (R427). -/
def latchRead (l : Nat) (x : Sender) (b : Block) : Block :=
  match b.ym.latches.get l with
  | none => answer x.port 0 (setLatch l (some x) b)
  | some o => answer x.port (BitVec.ofNat 32 (latchWord (some o))) b
/-- A read of a latch register on a management port. -/
def latchAccess (l : Fin 64) (x : Sender) (whole : Bool) (b : Block) : Block :=
  if windowsOpen b && whole then latchRead l.val x (wake b) else answer x.port 0 (wake b)
/-- LATCH_ACQUIRE. -/
def execLatchAcquire (l : Fin 64) (x : Sender) (whole : Bool) (s : State) :=
  upd s (mpRequest 1 x (.latchAcquire l x whole) (latchAccess l x whole))

/-- A write of 0 frees a latch: its owner's, or a privileged sender's, which breaks it (R428). -/
def latchWrite (l : Nat) (v : BitVec 32) (x : Sender) (b : Block) : Block :=
  match b.ym.latches.get l with
  | none => b
  | some o =>
    if v != 0 then b
    else if sameHolder o x then setLatch l none b
    else when x.priv (fun b => raise evLatchBroken (toLe 1 l ++ toLe 4 (ownerWord o)) (setLatch l none b)) b
/-- A write of a latch register on a management port. -/
def freeAccess (l : Fin 64) (v : BitVec 32) (x : Sender) (whole : Bool) (b : Block) : Block :=
  when (windowsOpen b && whole) (latchWrite l.val v x) (mpWrite x b)
/-- LATCH_FREE. -/
def execLatchFree (l : Fin 64) (v : BitVec 32) (x : Sender) (whole : Bool) (s : State) :=
  upd s (mpRequest 1 x (.latchFree l v x whole) (freeAccess l v x whole))

/-! ## REGISTER_WRITE (R376, R378, R418, R564) -/

/-- Put a 32-bit word over four bytes. -/
def putWord (off : Nat) (v : BitVec 32) (l : Bytes) : Bytes := l.take off ++ toLe 4 v.toNat ++ l.drop (off + 4)

/-- A write to a register of a mailbox pair; one to the inbound half wakes Nartia (R18). -/
def pairWrite (p off : Nat) (v : BitVec 32) (x : Sender) (b : Block) : Block :=
  let free := !(b.pair p).inFull
  let b := when (off < 0xC) wakeYm b
  if off == 0 then modPair p (fun m => if free then { m with inPtr := (m.inPtr &&& 0xFFFFFFFF00000000) ||| v.setWidth 64 } else m) b
  else if off == 4 then modPair p (fun m => if free then { m with inPtr := (m.inPtr &&& 0xFFFFFFFF) ||| (v.setWidth 64 <<< 32) } else m) b
  else if off == 8 then postNotice p v x b
  else if off == 0x1C then
    when (v.getLsbD 16) (pairResetBy p x) (modPair p (fun m => { m with irqEn := v.getLsbD 8, wakeEn := v.getLsbD 9 }) b)
  else b

/-- A whole write to a register of a management window; unlisted and read-only offsets ignore it. -/
def regWrite (off : Nat) (v : BitVec 32) (x : Sender) (b : Block) : Block :=
  let free := !(b.win x.port).busy
  if off == 0x0100 then modWin x.port (fun w => if free then { w with select := v } else w) b
  else if off == 0x0104 then odCtrl x v b
  else if 0x0140 ≤ off && off < 0x0180 then modWin x.port (fun w => if free then { w with data := putWord (off - 0x0140) v w.data } else w) b
  else if 0x0200 ≤ off && off < 0x0300 then latchWrite ((off - 0x0200) / 4) v x b
  else if 0x0400 ≤ off && off < 0x0500 then pairWrite ((off - 0x0400) / 32) (off % 32) v x b
  else b

/-- A write of any register on a management port; one that is not aligned to 4 bytes is ignored (R564). -/
def registerAccess (off : BitVec 16) (v : BitVec 32) (x : Sender) (whole : Bool) (b : Block) : Block :=
  when (windowsOpen b && whole && off.toNat % 4 == 0) (regWrite off.toNat v x) (mpWrite x b)
/-- REGISTER_WRITE. -/
def execRegisterWrite (off : BitVec 16) (v : BitVec 32) (x : Sender) (whole : Bool) (s : State) :=
  upd s (mpRequest 1 x (.registerWrite off v x whole) (registerAccess off v x whole))

/-! ## The end of a supply hold (R485, R531, R539) -/

/-- A request that waited in the port island's FIFO is handled; of a window write the registers alone, whose operation runs later. -/
def handleMp (c : Instr) (b : Block) : Block :=
  match c with
  | .inTagWrite p tag x whole => inTagAccess p tag x whole b
  | .outTagRead p x whole => outTagAccess p x whole b
  | .pairReset p x whole => pairResetAccess p x whole b
  | .odCtrlRead v x whole => ctrlAccess (v ||| 1) x whole b
  | .odCtrlWrite v x whole => ctrlAccess (v ||| 2) x whole b
  | .fzWrite i sub d x _ => setupAccess x i.toNat sub.toNat d b
  | .srcRetireBurn src x _ => setupAccess x 0x6030 0 [src] b
  | .ltArmSet v x => setupAccess x 0x6001 0 (toLe 4 v.toNat) b
  | .ltRespSet v x => setupAccess x 0x6003 0 (toLe 4 v.toNat) b
  | .latchAcquire l x whole => latchAccess l x whole b
  | .latchFree l v x whole => freeAccess l v x whole b
  | .registerWrite off v x whole => registerAccess off v x whole b
  | _ => b
/-- The port islands go on: the waiting requests are handled in their order and their credits return (R539). -/
def drainMp (b : Block) : Block :=
  if holding b 22 then b else each b.mpFifo handleMp { b with mpFifo := [], mpaCredits := 4, mpbCredits := 4 }

/-- SUPPLY_HOLD_END. -/
def execSupplyHoldEnd (i : IslandId) (s : State) := upd s fun b => epochGoesOn (drainMp (endHold i.val b))

/-! ## What a register reads without an effect of the read (R43 to R47, R418, R564) -/

/-- OD_CTRL (R419). -/
def ctrlWord (w : Window) : BitVec 32 := BitVec.ofNat 32 (w.status.toNat * 65536 + w.len.toNat * 256 + 4 * w.busy.toNat)
/-- A register of a mailbox pair. -/
def pairReg (m : Mbox) (off : Nat) : BitVec 32 :=
  match off with
  | 0x00 => m.inPtr.setWidth 32 | 0x04 => (m.inPtr >>> 32).setWidth 32 | 0x08 => m.inTag | 0x0C => inStat m
  | 0x10 => m.outPtr.setWidth 32 | 0x14 => (m.outPtr >>> 32).setWidth 32 | 0x18 => m.outTag | 0x1C => outCtrl m | _ => 0
/-- A register of the management window on port `p`, as one read of 32 bits, `whole`, or another access reads it: one that is not whole, or
not aligned to 4 bytes, reads 0 (R564). Before the end of start-up step 4 only some are served (R527). -/
def windowReg (b : Block) (p : MPort) (off : Nat) (whole : Bool) : BitVec 32 :=
  let w := b.win p
  if !whole || off % 4 != 0 then 0 else
  match off with
  | 0x0000 => 0x4D424F41 | 0x0004 => BitVec.ofNat 32 versionWord | 0x0008 => statusWord b | 0x000C => bootStatus b | 0x0800 => eventHead b
  | _ =>
    if !windowsOpen b then 0
    else if off == 0x0100 then w.select else if off == 0x0104 then ctrlWord w else if off == 0x0108 then w.info
    else if 0x0140 ≤ off && off < 0x0180 then BitVec.ofNat 32 (field w.data (off - 0x0140) 4)
    else if 0x0200 ≤ off && off < 0x0300 then BitVec.ofNat 32 (latchWord (b.ym.latches.get ((off - 0x0200) / 4)))
    else if 0x0400 ≤ off && off < 0x0500 then pairReg (b.pair ((off - 0x0400) / 32)) (off % 32) else 0
/-- A register of stall `n`'s page, as an accepted access reads it. -/
def doorbellReg (b : Block) (n off : Nat) : BitVec 32 :=
  let s := b.stall n
  match off with
  | 0x00 | 0x04 | 0x08 | 0x0C => (s.ring (off / 4)).cons ++ (s.ring (off / 4)).prod
  | 0x10 => s.cqProd ++ s.cqCons
  | 0x18 => stallStatus b n
  | _ => 0
/-- A read at any offset of a page: what it answers, and the block after it. A dropped read answers 0 and raises the event
(R48, R49); before `ready` it answers 0 and raises none (R527). The table has no row for reads (assumption 60). -/
def pageRead (n off : Nat) (pid : BitVec 20) (priv whole : Bool) (b : Block) : BitVec 32 × Block :=
  if !b.boot.ready then (0, b) else if dbDefined off && dbAccepts (b.stall n) pid priv whole then (doorbellReg b n off, b) else (0, dbReject n off pid b)

end Sys2Proof.Machine
end

