-- ==== Sys2Proof/Machine/Dispatch.lean ====
section
/-!
DEFINITION. The dispatch of a command to its meaning, one arm per row of the opcode table.
-/

namespace Sys2Proof.Machine

/-- The effect of a command on the machine. -/
def exec (i : Instr) (s : State) : Host.Outcome State Fault Refusal :=
  match i with
  | .coldReset cause => Sys2Proof.Machine.execColdReset cause s
  | .warmReset => Sys2Proof.Machine.execWarmReset s
  | .startUp obs => Sys2Proof.Machine.execStartUp obs s
  | .ltReset => Sys2Proof.Machine.execLtReset s
  | .vddRemove => Sys2Proof.Machine.execVddRemove s
  | .wakeIn => Sys2Proof.Machine.execWakeIn s
  | .sleepEnter => Sys2Proof.Machine.execSleepEnter s
  | .ymPowerGate => Sys2Proof.Machine.execYmPowerGate s
  | .tapInstruction ir => Sys2Proof.Machine.execTapInstruction ir s
  | .scanAccess kind => Sys2Proof.Machine.execScanAccess kind s
  | .scanModeFall => Sys2Proof.Machine.execScanModeFall s
  | .sqDoorbellWrite stall ring value pid priv whole => Sys2Proof.Machine.execSqDoorbellWrite stall ring value pid priv whole s
  | .cqConsumerWrite stall value pid priv whole => Sys2Proof.Machine.execCqConsumerWrite stall value pid priv whole s
  | .dcInvalidate stall mask pid priv whole => Sys2Proof.Machine.execDcInvalidate stall mask pid priv whole s
  | .dcInvalidateDone stall => Sys2Proof.Machine.execDcInvalidateDone stall s
  | .descriptorFetch stall ring => Sys2Proof.Machine.execDescriptorFetch stall ring s
  | .descriptorCapture stall ring => Sys2Proof.Machine.execDescriptorCapture stall ring s
  | .parameterBlockRead stall ring => Sys2Proof.Machine.execParameterBlockRead stall ring s
  | .jobDispatch => Sys2Proof.Machine.execJobDispatch s
  | .keyDecision job take => Sys2Proof.Machine.execKeyDecision job take s
  | .blobUnwrap job => Sys2Proof.Machine.execBlobUnwrap job s
  | .fragmentTableWalk job => Sys2Proof.Machine.execFragmentTableWalk job s
  | .stateBlobRestore job => Sys2Proof.Machine.execStateBlobRestore job s
  | .engineGrant cls => Sys2Proof.Machine.execEngineGrant cls s
  | .hitch engine srcDone => Sys2Proof.Machine.execHitch engine srcDone s
  | .nop job => Sys2Proof.Machine.execNop job s
  | .knot job => Sys2Proof.Machine.execKnot job s
  | .encrypt job => Sys2Proof.Machine.execEncrypt job s
  | .decrypt job => Sys2Proof.Machine.execDecrypt job s
  | .seal job => Sys2Proof.Machine.execSeal job s
  | .openAead job v => Sys2Proof.Machine.execOpenAead job v s
  | .macGen job => Sys2Proof.Machine.execMacGen job s
  | .macCheck job v => Sys2Proof.Machine.execMacCheck job v s
  | .splice job tag tap => Sys2Proof.Machine.execSplice job tag tap s
  | .digest job => Sys2Proof.Machine.execDigest job s
  | .hmacGen job => Sys2Proof.Machine.execHmacGen job s
  | .hmacCheck job v => Sys2Proof.Machine.execHmacCheck job v s
  | .kmacGen job => Sys2Proof.Machine.execKmacGen job s
  | .kmacCheck job v => Sys2Proof.Machine.execKmacCheck job v s
  | .xof job => Sys2Proof.Machine.execXof job s
  | .keyUnwrap job => Sys2Proof.Machine.execKeyUnwrap job s
  | .keyWrap job => Sys2Proof.Machine.execKeyWrap job s
  | .keyDerive job => Sys2Proof.Machine.execKeyDerive job s
  | .keyGenerateOp job => Sys2Proof.Machine.execKeyGenerateOp job s
  | .random job => Sys2Proof.Machine.execRandom job s
  | .ecKeygen job => Sys2Proof.Machine.execEcKeygen job s
  | .ecdsaSign job pass take => Sys2Proof.Machine.execEcdsaSign job pass take s
  | .ecdsaVerify check => Sys2Proof.Machine.execEcdsaVerify check s
  | .ecdh job => Sys2Proof.Machine.execEcdh job s
  | .eddsaSign job pass take => Sys2Proof.Machine.execEddsaSign job pass take s
  | .eddsaVerify check => Sys2Proof.Machine.execEddsaVerify check s
  | .xdh job => Sys2Proof.Machine.execXdh job s
  | .rsaPrivate job pass take => Sys2Proof.Machine.execRsaPrivate job pass take s
  | .rsaPublic job => Sys2Proof.Machine.execRsaPublic job s
  | .modexp job => Sys2Proof.Machine.execModexp job s
  | .modmul job => Sys2Proof.Machine.execModmul job s
  | .mlkemKeygen job => Sys2Proof.Machine.execMlkemKeygen job s
  | .mlkemEncaps job => Sys2Proof.Machine.execMlkemEncaps job s
  | .mlkemDecaps job => Sys2Proof.Machine.execMlkemDecaps job s
  | .mldsaKeygen job => Sys2Proof.Machine.execMldsaKeygen job s
  | .mldsaSign job => Sys2Proof.Machine.execMldsaSign job s
  | .mldsaVerify check => Sys2Proof.Machine.execMldsaVerify check s
  | .lmsKeygen job => Sys2Proof.Machine.execLmsKeygen job s
  | .lmsSign job take => Sys2Proof.Machine.execLmsSign job take s
  | .lmsVerify check => Sys2Proof.Machine.execLmsVerify check s
  | .xmssVerify check => Sys2Proof.Machine.execXmssVerify check s
  | .slhdsaSign job => Sys2Proof.Machine.execSlhdsaSign job s
  | .slhdsaVerify check => Sys2Proof.Machine.execSlhdsaVerify check s
  | .dataReadResponse port tag data err last => Sys2Proof.Machine.execDataReadResponse port tag data err last s
  | .writeDoneResponse port tag err => Sys2Proof.Machine.execWriteDoneResponse port tag err s
  | .engineEndReport job occupancyNs => Sys2Proof.Machine.execEngineEndReport job occupancyNs s
  | .completionWriteAck tag err => Sys2Proof.Machine.execCompletionWriteAck tag err s
  | .irqTimerExpiry stall => Sys2Proof.Machine.execIrqTimerExpiry stall s
  | .cqWriteRetry stall => Sys2Proof.Machine.execCqWriteRetry stall s
  | .laneFault lane job srcDone => Sys2Proof.Machine.execLaneFault lane job srcDone s
  | .laneRetry => Sys2Proof.Machine.execLaneRetry s
  | .laneSelftestAuto lane pass => Sys2Proof.Machine.execLaneSelftestAuto lane pass s
  | .laneReseed lane late => Sys2Proof.Machine.execLaneReseed lane late s
  | .groomStep => Sys2Proof.Machine.execGroomStep s
  | .slotIntegritySweep upsets stuck => Sys2Proof.Machine.execSlotIntegritySweep upsets stuck s
  | .orphanSweep => Sys2Proof.Machine.execOrphanSweep s
  | .digestCachePurge island => Sys2Proof.Machine.execDigestCachePurge island s
  | .digestCacheRemask island => Sys2Proof.Machine.execDigestCacheRemask island s
  | .chuteItemWrite chute data ctl => Sys2Proof.Machine.execChuteItemWrite chute data ctl s
  | .chuteItemRead chute => Sys2Proof.Machine.execChuteItemRead chute s
  | .chuteFlush chute sender => Sys2Proof.Machine.execChuteFlush chute sender s
  | .chuteFlushNow chute sender => Sys2Proof.Machine.execChuteFlushNow chute sender s
  | .timerTick timer => Sys2Proof.Machine.execTimerTick timer s
  | .moverStart chan sender => Sys2Proof.Machine.execMoverStart chan sender s
  | .moverEnable chan value sender => Sys2Proof.Machine.execMoverEnable chan value sender s
  | .moverDisable chan sender => Sys2Proof.Machine.execMoverDisable chan sender s
  | .moverWalk chan => Sys2Proof.Machine.execMoverWalk chan s
  | .copy chan => Sys2Proof.Machine.execCopy chan s
  | .braid chan => Sys2Proof.Machine.execBraid chan s
  | .unbraid chan => Sys2Proof.Machine.execUnbraid chan s
  | .moverDescriptorEnd chan => Sys2Proof.Machine.execMoverDescriptorEnd chan s
  | .inTagWrite pair tag sender whole => Sys2Proof.Machine.execInTagWrite pair tag sender whole s
  | .noticeReceive pair => Sys2Proof.Machine.execNoticeReceive pair s
  | .noticePost pair => Sys2Proof.Machine.execNoticePost pair s
  | .outTagRead pair sender whole => Sys2Proof.Machine.execOutTagRead pair sender whole s
  | .pairReset pair sender whole => Sys2Proof.Machine.execPairReset pair sender whole s
  | .hostUnresponsive pair => Sys2Proof.Machine.execHostUnresponsive pair s
  | .stallCreate cmd => Sys2Proof.Machine.execStallCreate cmd s
  | .stallBind cmd => Sys2Proof.Machine.execStallBind cmd s
  | .stallQuiesceSoft cmd => Sys2Proof.Machine.execStallQuiesceSoft cmd s
  | .stallQuiesceHard cmd => Sys2Proof.Machine.execStallQuiesceHard cmd s
  | .stallResume cmd => Sys2Proof.Machine.execStallResume cmd s
  | .stallReset cmd => Sys2Proof.Machine.execStallReset cmd s
  | .stallDestroy cmd => Sys2Proof.Machine.execStallDestroy cmd s
  | .keyImportClear cmd => Sys2Proof.Machine.execKeyImportClear cmd s
  | .keyGenerate cmd => Sys2Proof.Machine.execKeyGenerate cmd s
  | .install cmd => Sys2Proof.Machine.execInstall cmd s
  | .destroy cmd => Sys2Proof.Machine.execDestroy cmd s
  | .tackRoomImageRestore cmd => Sys2Proof.Machine.execTackRoomImageRestore cmd s
  | .keyAttest cmd => Sys2Proof.Machine.execKeyAttest cmd s
  | .keyDestroy cmd => Sys2Proof.Machine.execKeyDestroy cmd s
  | .custodianEnroll cmd => Sys2Proof.Machine.execCustodianEnroll cmd s
  | .custodianClear cmd => Sys2Proof.Machine.execCustodianClear cmd s
  | .curveLoad cmd => Sys2Proof.Machine.execCurveLoad cmd s
  | .curveUnload cmd => Sys2Proof.Machine.execCurveUnload cmd s
  | .packLoad cmd take => Sys2Proof.Machine.execPackLoad cmd take s
  | .lifecycleAdvance cmd burn => Sys2Proof.Machine.execLifecycleAdvance cmd burn s
  | .forgeRoots cmd burn => Sys2Proof.Machine.execForgeRoots cmd burn s
  | .gateChallenge cmd => Sys2Proof.Machine.execGateChallenge cmd s
  | .gateRespond cmd take debug => Sys2Proof.Machine.execGateRespond cmd take debug s
  | .gatePassword cmd take => Sys2Proof.Machine.execGatePassword cmd take s
  | .gateClose cmd => Sys2Proof.Machine.execGateClose cmd s
  | .gateSessionExpiry => Sys2Proof.Machine.execGateSessionExpiry s
  | .gateChallengeExpiry => Sys2Proof.Machine.execGateChallengeExpiry s
  | .gateLockoutExpiry => Sys2Proof.Machine.execGateLockoutExpiry s
  | .gateCellRetry => Sys2Proof.Machine.execGateCellRetry s
  | .odRead cmd => Sys2Proof.Machine.execOdRead cmd s
  | .odWrite cmd burn => Sys2Proof.Machine.execOdWrite cmd burn s
  | .selftest cmd pass => Sys2Proof.Machine.execSelftest cmd pass s
  | .wearMeasure cmd gauges => Sys2Proof.Machine.execWearMeasure cmd gauges s
  | .wearReport cmd => Sys2Proof.Machine.execWearReport cmd s
  | .eventlogRead cmd => Sys2Proof.Machine.execEventlogRead cmd s
  | .eventlogAck cmd => Sys2Proof.Machine.execEventlogAck cmd s
  | .laneFence cmd => Sys2Proof.Machine.execLaneFence cmd s
  | .laneUnfence cmd => Sys2Proof.Machine.execLaneUnfence cmd s
  | .timeSet cmd => Sys2Proof.Machine.execTimeSet cmd s
  | .alarmAck cmd => Sys2Proof.Machine.execAlarmAck cmd s
  | .studbookStatus cmd => Sys2Proof.Machine.execStudbookStatus cmd s
  | .odCtrlRead value sender whole => Sys2Proof.Machine.execOdCtrlRead value sender whole s
  | .odCtrlWrite value sender whole => Sys2Proof.Machine.execOdCtrlWrite value sender whole s
  | .dictionaryOperation port burn => Sys2Proof.Machine.execDictionaryOperation port burn s
  | .fzWrite index sub data sender burn => Sys2Proof.Machine.execFzWrite index sub data sender burn s
  | .srcRetireBurn source sender burn => Sys2Proof.Machine.execSrcRetireBurn source sender burn s
  | .ltArmSet value sender => Sys2Proof.Machine.execLtArmSet value sender s
  | .ltRespSet value sender => Sys2Proof.Machine.execLtRespSet value sender s
  | .latchAcquire latch sender whole => Sys2Proof.Machine.execLatchAcquire latch sender whole s
  | .latchFree latch value sender whole => Sys2Proof.Machine.execLatchFree latch value sender whole s
  | .registerWrite offset value sender whole => Sys2Proof.Machine.execRegisterWrite offset value sender whole s
  | .sbResponse late err value => Sys2Proof.Machine.execSbResponse late err value s
  | .studbookTimeout => Sys2Proof.Machine.execStudbookTimeout s
  | .tamperStatic input => Sys2Proof.Machine.execTamperStatic input s
  | .tamperMesh seen => Sys2Proof.Machine.execTamperMesh seen s
  | .vbkLow => Sys2Proof.Machine.execVbkLow s
  | .ltClockFault => Sys2Proof.Machine.execLtClockFault s
  | .clockFault island seen => Sys2Proof.Machine.execClockFault island seen s
  | .supplyWarn island => Sys2Proof.Machine.execSupplyWarn island s
  | .supplyHoldEnd island => Sys2Proof.Machine.execSupplyHoldEnd island s
  | .supplyHoldTimeout island => Sys2Proof.Machine.execSupplyHoldTimeout island s
  | .supplyReset island => Sys2Proof.Machine.execSupplyReset island s
  | .entropyFail => Sys2Proof.Machine.execEntropyFail s
  | .entropyRestartDone pass => Sys2Proof.Machine.execEntropyRestartDone pass s
  | .leanToEventArrival => Sys2Proof.Machine.execLeanToEventArrival s
  | .leanToRecord => Sys2Proof.Machine.execLeanToRecord s
  | .wearScheduledMeasurement gauges => Sys2Proof.Machine.execWearScheduledMeasurement gauges s
  | .clockRatioChange island => Sys2Proof.Machine.execClockRatioChange island s
  | .temperatureSample readings => Sys2Proof.Machine.execTemperatureSample readings s
  | .clkRefWithinRange => Sys2Proof.Machine.execClkRefWithinRange s
  | .vbkLoss => Sys2Proof.Machine.execVbkLoss s
  | .clkLtInRange => Sys2Proof.Machine.execClkLtInRange s
  | .tamperInputRearm input => Sys2Proof.Machine.execTamperInputRearm input s
  | .meshRearm seen => Sys2Proof.Machine.execMeshRearm seen s
  | .vbkLowClear => Sys2Proof.Machine.execVbkLowClear s
  | .vfzWithinRange burn => Sys2Proof.Machine.execVfzWithinRange burn s
  | .writeWaitAllowanceExpiry cmd => Sys2Proof.Machine.execWriteWaitAllowanceExpiry cmd s
  | .wearMeasurementRerun island gauges => Sys2Proof.Machine.execWearMeasurementRerun island gauges s

end Sys2Proof.Machine
end

