-- ==== Sys2Proof/Machine/Tick.lean ====
section
/-!
DEFINITION. The passing of time (assumption 2).
-/

namespace Sys2Proof.Machine

/-- Nartia has written the microcode of the loaded pack back into the cores whose islands were reset (R304). -/
def reloaded (b : Block) (x : Core) : Core := if x.state == 2 then { x with state := 0, microcode := b.pack.microcode } else x
def reload (b : Block) : Block :=
  { b with cores := if holding b 20 then b.cores else (List.range 8).foldl (fun t k => t.mod k (reloaded b)) b.cores }

/-- One microsecond of the yard's time base passes; a supply hold of the yard freezes it (R373). -/
def idle (b : Block) : Block := reload { b with now := b.now + 1 }

end Sys2Proof.Machine
end

