-- ==== Sys2Proof/Machine/Step.lean ====
section
/-!
DEFINITION. One step: the command at the front of the queue, or a microsecond of the yard's time base when
none waits (assumption 2).
-/

namespace Sys2Proof.Machine

/-- Take the front command and run it with the rest of the queue; with none waiting, time passes. -/
def step (s : State) : Host.Outcome State Fault Refusal :=
  match s.pending with
  | [] => .next { s with blk := idle s.blk }
  | c :: rest => exec c { s with pending := rest }

/-- `s` with the command a word spells put at the front of its queue (none does). -/
def State.withFetchWord (s : State) (nbits w : Nat) : State :=
  match decodeTableWord nbits w with
  | some c => { s with pending := c :: s.pending }
  | none => s

end Sys2Proof.Machine
end

