-- ==== Sys2Proof/Safety.lean ====
section
/-!
DEFINITION. The terms the statements use: what it is for a command to run, to end, to offer requests, and the
parts of the block a statement compares.
-/

namespace Sys2Proof.Machine

/-! ## Parts of the block -/

/-- The block without the traffic of its tagged ports. -/
def Block.still (b : Block) : Block := { b with dp0 := {}, dp1 := {}, rp := {} }

/-- A request waits at a port or is outstanding there. -/
abbrev Offered (b : Block) (p : Port) (r : Req) : Prop := r ∈ (b.port p).waiting ∨ r ∈ (b.port p).out.map Flight.req

/-- `c` answers the next state in which only the block changes, to `b`. -/
abbrev Gives (c : Instr) (s : State) (b : Block) : Prop := exec c s = .next { s with blk := b }

/-- As `Gives`; a test port that closes with it while `scan_mode` is high in FIELD resets the block (R551, R555). -/
abbrev GivesClosing (c : Instr) (s : State) (b : Block) : Prop := exec c s = .next (scanClosed s.blk { s with blk := b })

/-- `c` answers a next state in which only the block changes, to `b` but for the traffic of the tagged ports, where
it offers the requests `rs` on `p`. -/
def Sends (c : Instr) (s : State) (b : Block) (p : Port) (rs : List Req) : Prop :=
  ∃ t : Block, exec c s = .next { s with blk := t } ∧ t.still = b.still ∧ ∀ r ∈ rs, Offered t p r

/-- What `raise` puts on the event path: an event with its mapped response (R492), after LT_RESTARTED when it is the first of a boot that
follows `lt_por_n` (R521). -/
def withEvent (code : Nat) (detail : Bytes) (b : Block) : Block :=
  { b with lt := { b.lt with
      fifo := b.lt.fifo ++ opening b ++ [{ code, detail := fit 12 detail, resp := respOf b code 0xFF, backup := b.boot.backup }]
      restarted := b.lt.restarted && !b.boot.vdd } }

/-- A whole access to a stall's page that R48 accepts. -/
abbrev Accepted (s : Stall) (pid : BitVec 20) (priv whole : Bool) : Prop :=
  whole = true ∧ s.state ≠ .free ∧ (priv = true ∨ s.pid = some pid)

/-- The `db_` port handles requests: the integrator holds a credit, `ready` has risen, neither the port islands nor the yard hold. -/
abbrev DoorbellServes (b : Block) : Prop := 0 < b.dbCredits ∧ b.boot.ready = true ∧ dbHeld b = false
/-- A request on `db_` has entered the port island: its credit is back, and a write's response has carried 0 (R539). -/
def dbEntered (b : Block) : Block := { b with dbCredits := 8, dbRdata := 0 }

/-- Every stall's urgent budgets brought up to the present time (R364). -/
def refilled (b : Block) : Block := each (b.stalls.ents.map Prod.fst) refill b

/-! ## Jobs at work -/

/-- Job `i`, of opcode `op`, works on its engine with every input there. -/
abbrev Works (b : Block) (op i : Nat) (j : Job) : Prop := b.job i = some j ∧ j.desc.op = op ∧ inputsReady b i j = true

/-- Job `i`, of a core opcode `op`, has its whole source, whichever pieces it came in. -/
abbrev CoreWorks (b : Block) (op i : Nat) (j : Job) : Prop := Works b op i j ∧ j.src.full = true

/-- The entropy island serves: it has not stopped and does not restart (R488). -/
abbrev HasEntropy (b : Block) : Prop := b.boot.entropyStopped = false ∧ b.boot.entropyPaused = false

/-- Writes of a job's own bytes that start at `addr`. -/
abbrev jobWrites (b : Block) (i : Nat) (j : Job) (base : Nat) (data : Bytes) (ps : List (Nat × Nat × Nat)) : List Req :=
  writeReqs (.data i) (stallIdent b j.stall.val) (jobPrio j) (jobTurn j) base data ps

/-! ## Commands of the yardmaster -/

/-- The block without the commands being handled and the traffic of `dp0_`. -/
def Block.aside (b : Block) : Block := { b with dp0 := {}, ym := { b.ym with cmds := [] } }

/-- Command `id` of code `op` is about to run: Nartia serves, its sheet is read, nothing of its group is before it. -/
abbrev Turn (s : State) (id : Nat) (c : Cmd) (op : Nat) : Prop :=
  s.blk.boot.ready = true ∧ holding s.blk 20 = false ∧ s.blk.cmd id = some c ∧ c.op = op ∧ c.phase = 2 ∧ c.aborted = false
    ∧ mayRun s.blk id c = true

/-- A command passes every check of R395, and needs no supply hold to end. -/
abbrev Passes (b : Block) (c : Cmd) (k : Checks) : Prop :=
  checksBefore b c k = none ∧ (k.writes = true → anyHold b = false) ∧ checksAfter b k = none

/-- Command `id` of code `op` is running. -/
abbrev Going (s : State) (id : Nat) (c : Cmd) (op : Nat) : Prop :=
  s.blk.boot.ready = true ∧ holding s.blk 20 = false ∧ s.blk.cmd id = some c ∧ c.op = op ∧ c.phase = 3 ∧ c.aborted = false

/-- The block with command `id` running. -/
def commenced (id : Nat) (b : Block) : Block := modCmd id (fun c => { c with phase := 3, waitSince := none }) b

/-! ## Fuses and clocks -/

/-- Every cell burnt in `f` is burnt in `g`. -/
def FuseArray.le (f g : FuseArray) : Prop :=
  f.lcGroups &&& g.lcGroups = f.lcGroups ∧ f.roots &&& g.roots = f.roots ∧ f.gateKeyHash &&& g.gateKeyHash = f.gateKeyHash
    ∧ f.gatePwHash &&& g.gatePwHash = f.gatePwHash ∧ f.packKeyHash &&& g.packKeyHash = f.packKeyHash
    ∧ f.serial &&& g.serial = f.serial ∧ f.srcRetire &&& g.srcRetire = f.srcRetire ∧ f.tether &&& g.tether = f.tether
    ∧ f.wearBase &&& g.wearBase = f.wearBase ∧ f.repair &&& g.repair = f.repair

/-- A ratio a clock generator may have: an even number of percent from 70 to 100 (R506). -/
abbrev LegalRatio (r : Nat) : Prop := r % 2 = 0 ∧ 70 ≤ r ∧ r ≤ 100

/-- Every generator's ratio is legal, and the ratio decided for it is legal and not above it. -/
def ClocksLegal (c : Clocks) : Prop := ∀ i, LegalRatio (c.ratio.get i) ∧ LegalRatio (c.target.get i) ∧ c.target.get i ≤ c.ratio.get i

end Sys2Proof.Machine
end

