-- ==== Sys2Proof/Certificates/Slice0/Obligations.lean ====
section
/-!
DEFINITION. The statements about the block, for the provers. Each docstring names the rule of the manual it
formalises, or the log entry of the model's own choice.
-/

open Sys2Proof Sys2Proof.Machine

/-! ## Steps, the queue and stops -/

/-- A step with command `c` at the front of the queue is `c` run on the state with the queue's rest. On an empty queue one microsecond of the time
base passes, Nartia, when its island does not hold, ends the reload of the cores that reload, and nothing else changes (the model's choice, log
entries 2 and 34). -/
def Obligations.StepTakesFrontCommand : Prop :=
  (∀ (c : Instr) (s : State), step { s with pending := c :: s.pending } = exec c s)
    ∧ ∀ s : State, s.pending = [] → ∃ t : Tab Core, step s = .next { s with blk := { s.blk with now := s.blk.now + 1, cores := t } }
        ∧ ∀ k, t.get k = if holding s.blk 20 = false ∧ k < 8 ∧ (s.blk.cores.get k).state = 2 then
            { s.blk.cores.get k with state := 0, microcode := s.blk.pack.microcode } else s.blk.cores.get k

/-- No step unburns a fuse cell (R145, R549). -/
def Obligations.FusesOnlyBurn : Prop :=
  ∀ s t : State, step s = .next t → s.fuse.le t.fuse

/-- Every step keeps the clock generators legal: ratios from 100 down to 70 in steps of 2, and the ratio decided for
an island never above the one it runs at (R506, R508, R514). -/
def Obligations.StepsKeepClocksLegal : Prop :=
  ∀ s t : State, ClocksLegal s.clk → step s = .next t → ClocksLegal t.clk

/-! ## Reset -/

/-- The machine right after reset: start-up at step 1, `ready` low, every generator at 100 %, nothing burnt, no job,
every stall FREE, no key in any slot, the lean-to's sources 0 to 6 disarmed with LOG and source 7 armed with SEAL
(R29, R64, R480, R519, R529). That nothing is burnt is the model's choice (log entry 7). -/
def Obligations.ResetStateOfTheBlock : Prop :=
  ClocksLegal State.reset.clk ∧ State.reset.pending = [] ∧ State.reset.fuse = {}
    ∧ State.reset.blk.boot.step = 1 ∧ State.reset.blk.boot.ready = false ∧ State.reset.blk.live = []
    ∧ (∀ n, (State.reset.blk.stall n).state = .free) ∧ (∀ i, (State.reset.blk.slot i).occupied = false)
    ∧ (∀ n, (State.reset.blk.sk n).state = 0) ∧ (∀ i, (State.reset.blk.tack.sys.get i).content = [])
    ∧ State.reset.blk.lt.arm = 0x800 ∧ State.reset.blk.lt.resp = 0x8000

/-! ## Ports (R368, R536) -/

/-- Offering requests to a port loses none and makes none: what waits or is outstanding there is what was, with the
offered ones; the other ports and the rest of the block stay. Outstanding tags that were distinct stay distinct, and
the limits of R536 on outstanding reads and writes are kept (R536, R537). -/
def Obligations.OfferedRequestsKeepPortLimits : Prop :=
  ∀ (p : Port) (rs : List Req) (b : Block),
    let t := offer p rs b
    ((t.port p).waiting ++ (t.port p).out.map Flight.req).Perm (rs ++ ((b.port p).waiting ++ (b.port p).out.map Flight.req))
      ∧ (∀ q, q ≠ p → t.port q = b.port q) ∧ t.still = b.still
      ∧ (((b.port p).out.map Flight.tag).Nodup → ((t.port p).out.map Flight.tag).Nodup)
      ∧ (((b.port p).out.filter fun f => !f.req.write).length ≤ maxReads p →
          ((t.port p).out.filter fun f => !f.req.write).length ≤ maxReads p)
      ∧ (((b.port p).out.filter fun f => f.req.write).length ≤ maxWrites p →
          ((t.port p).out.filter fun f => f.req.write).length ≤ maxWrites p)

/-- A request is cut so that every piece lies within one aligned 256-byte block, the pieces follow each other, and
together they are the range (R537). -/
def Obligations.PiecesStayInAlignedBlocks : Prop :=
  ∀ (addr : Addr) (off len : Nat),
    (∀ p ∈ pieces addr off len, 0 < p.2.2 ∧ p.1 / 256 = (p.1 + p.2.2 - 1) / 256 ∧ p.1 + off = addr.toNat + p.2.1
        ∧ off ≤ p.2.1 ∧ p.2.1 + p.2.2 ≤ off + len)
      ∧ ((pieces addr off len).map fun p => p.2.2).sum = len

/-! ## The doorbell window (R46 to R65) -/

/-- A write to SQn_IDX or CQ_IDX once `ready` has risen: a dropped one changes nothing but raises DOORBELL_REJECTED; an accepted index that
fits moves PROD or CONS; any other halts the ring for a lap and raises RING_LAPPED, or halts the completion ring, and with it all four
submission rings, and raises CQ_INDEX_ERROR; in a hold of the port islands or the yard it waits; before `ready` it is dropped without an
event. Each write is answered with 0 and costs a credit, which is back once the request has entered the port islands: in their hold it has
not, and without a credit no request is sent (R48, R49, R53, R65, R73, R527, R539). When the credit comes back, and that a request waits in the
islands' FIFO, are the model's reading (log entries 40 and 103). -/
def Obligations.IndexWritesMoveOrHalt : Prop :=
  (∀ (s : State) (n : StallId) (r : RingId) (v : BitVec 16) (pid : BitVec 20) (priv whole : Bool),
    let c : Instr := .sqDoorbellWrite n r v pid priv whole
    let b := s.blk
    let g := b.ring n.val r.val
    let spent := { b with dbCredits := if holding b 22 then b.dbCredits - 1 else 8, dbRdata := 0 }
    (b.dbCredits = 0 → Gives c s b)
    ∧ (0 < b.dbCredits → b.boot.ready = false → Gives c s spent)
    ∧ (0 < b.dbCredits → b.boot.ready = true → dbHeld b = true → Gives c s { spent with dbFifo := b.dbFifo ++ [c] })
    ∧ (DoorbellServes b → ¬ Accepted (b.stall n.val) pid priv whole →
        Gives c s (withEvent evDoorbellRejected (toLe 2 n.val ++ toLe 2 (4 * r.val) ++ toLe 4 pid.toNat) (dbEntered b)))
    ∧ (DoorbellServes b → Accepted (b.stall n.val) pid priv whole → (v - g.prod).toNat + (g.prod - g.cons).toNat ≤ 2 ^ g.k →
        Gives c s (modRing n.val r.val (fun g => { g with prod := v }) (wake (dbEntered b))))
    ∧ (DoorbellServes b → Accepted (b.stall n.val) pid priv whole → 2 ^ g.k < (v - g.prod).toNat + (g.prod - g.cons).toNat →
        Gives c s (withEvent evRingLapped (toLe 2 n.val ++ toLe 1 r.val ++ toLe 2 v.toNat) (haltRing n.val r.val 1 (wake (dbEntered b))))))
  ∧ (∀ (s : State) (n : StallId) (v : BitVec 16) (pid : BitVec 20) (priv whole : Bool),
    let c : Instr := .cqConsumerWrite n v pid priv whole
    let b := s.blk
    let q := b.stall n.val
    let spent := { b with dbCredits := if holding b 22 then b.dbCredits - 1 else 8, dbRdata := 0 }
    (b.dbCredits = 0 → Gives c s b)
    ∧ (0 < b.dbCredits → b.boot.ready = false → Gives c s spent)
    ∧ (0 < b.dbCredits → b.boot.ready = true → dbHeld b = true → Gives c s { spent with dbFifo := b.dbFifo ++ [c] })
    ∧ (DoorbellServes b → ¬ Accepted q pid priv whole →
        Gives c s (withEvent evDoorbellRejected (toLe 2 n.val ++ toLe 2 0x10 ++ toLe 4 pid.toNat) (dbEntered b)))
    ∧ (DoorbellServes b → Accepted q pid priv whole → (v - q.cqCons).toNat ≤ (q.cqProd - q.cqCons).toNat →
        Gives c s (modStall n.val (fun q => { q with cqCons := v }) (wake (dbEntered b))))
    ∧ (DoorbellServes b → Accepted q pid priv whole → (q.cqProd - q.cqCons).toNat < (v - q.cqCons).toNat →
        Gives c s (withEvent evCqIndexError (toLe 2 n.val ++ toLe 2 v.toNat) (haltCq n.val (wake (dbEntered b))))))

/-- An accepted write to DC_INVALIDATE with a mask other than 0 sets INV_PENDING, discards the captured descriptors of the
selected rings and marks their outstanding descriptor reads, CONS and PROD unchanged, and leaves every other ring and stall
as it is; a mask of 0 has no effect. INV_PENDING clears once no marked read of the selected rings is outstanding
(R46, R48, R49, R60). The access takes its credit, and waits in a hold, as a write of an index does (the model's reading, log entries 40 and 103). -/
def Obligations.InvalidationOfCapturedDescriptors : Prop :=
  ∀ (s : State) (n : StallId) (m : BitVec 4) (pid : BitVec 20) (priv whole : Bool),
    let c : Instr := .dcInvalidate n m pid priv whole
    let b := s.blk
    let w := wake (dbEntered b)
    let spent := { b with dbCredits := if holding b 22 then b.dbCredits - 1 else 8, dbRdata := 0 }
    (b.dbCredits = 0 → Gives c s b)
    ∧ (0 < b.dbCredits → b.boot.ready = false → Gives c s spent)
    ∧ (0 < b.dbCredits → b.boot.ready = true → dbHeld b = true → Gives c s { spent with dbFifo := b.dbFifo ++ [c] })
    ∧ (DoorbellServes b → ¬ Accepted (b.stall n.val) pid priv whole →
        Gives c s (withEvent evDoorbellRejected (toLe 2 n.val ++ toLe 2 0x14 ++ toLe 4 pid.toNat) (dbEntered b)))
    ∧ (DoorbellServes b → Accepted (b.stall n.val) pid priv whole → m = 0 → Gives c s w)
    ∧ (DoorbellServes b → Accepted (b.stall n.val) pid priv whole → m ≠ 0 →
        ∃ t : Block, Gives c s t ∧ (t.stall n.val).invMask = (b.stall n.val).invMask ||| m
          ∧ (∀ k, k ≠ n.val → t.stall k = b.stall k)
          ∧ (∀ r : RingId, t.ring n.val r.val = if m.getLsbD r.val then
              { b.ring n.val r.val with captured := []
                                        fetching := (b.ring n.val r.val).fetching.map fun f => (f.1, f.2.1, f.2.2.1, true) }
              else b.ring n.val r.val)
          ∧ { t with stalls := b.stalls }.still = w.still)
    ∧ (b.boot.ready = true → holding b 0 = false →
        ((∀ r : RingId, (b.stall n.val).invMask.getLsbD r.val = true → ∀ f ∈ (b.ring n.val r.val).fetching, f.2.2.2 = false) →
          Gives (.dcInvalidateDone n) s (modStall n.val (fun q => { q with invMask := 0 }) b))
        ∧ ((∃ r : RingId, (b.stall n.val).invMask.getLsbD r.val = true ∧ ∃ f ∈ (b.ring n.val r.val).fetching, f.2.2.2 = true) →
          Gives (.dcInvalidateDone n) s b))

/-- A ring halts: its halt bit is set, HALT_CAUSE is recorded unless a cause is already recorded, an ACTIVE stall becomes
HALTED and any other keeps its state, STALL_HALTED is raised with stall and ring, and an interrupt message is offered on `rp_`
when messages are enabled, which clears the pending count. A ring already halted is not halted again. The completion ring halts likewise, with
HALT_CAUSE 3, and halts all four submission rings with it, for which one STALL_HALTED, of ring 4, and one message stand (R35 to R37, R65). That
the message counts as written when it is offered is the model's choice (log entry 91). -/
def Obligations.HaltOfARing : Prop :=
  (∀ (b : Block) (n r : Nat) (cause : BitVec 4),
    let t := haltRing n r cause b
    let q := b.stall n
    let irq := q.irqCtrl.getLsbD 0
    ((b.ring n r).halted = true → t = b)
    ∧ ((b.ring n r).halted = false →
        t.ring n r = { b.ring n r with halted := true } ∧ (∀ k, k ≠ r → t.ring n k = b.ring n k) ∧ (∀ k, k ≠ n → t.stall k = b.stall k)
        ∧ t.stall n = { q with rings := (t.stall n).rings
                               haltCause := if q.haltCause = 0 then cause else q.haltCause
                               state := if q.state = .active then .halted else q.state
                               irqPending := if irq then 0 else q.irqPending
                               irqSince := if irq then none else q.irqSince }
        ∧ t.lt = (withEvent evStallHalted (toLe 2 n ++ toLe 1 r) b).lt
        ∧ (irq = true → Offered t .rp { write := true, addr := q.irqAddr, len := 4, data := toLe 4 q.irqData.toNat
                                        ident := stallIdent b n, owner := .irq (Fin.ofNat 512 n) })
        ∧ { t with stalls := b.stalls, lt := b.lt }.still = b.still))
  ∧ ∀ (b : Block) (n : Nat),
    let t := haltCq n b
    let q := b.stall n
    let irq := q.irqCtrl.getLsbD 0
    (q.cqHalted = true → t = b)
    ∧ (q.cqHalted = false →
        (∀ k, t.ring n k = if k < 4 then { b.ring n k with halted := true } else b.ring n k) ∧ (∀ k, k ≠ n → t.stall k = b.stall k)
        ∧ t.stall n = { q with rings := (t.stall n).rings
                               cqHalted := true
                               haltCause := if q.haltCause = 0 then 3 else q.haltCause
                               state := if q.state = .active then .halted else q.state
                               irqPending := if irq then 0 else q.irqPending
                               irqSince := if irq then none else q.irqSince }
        ∧ t.lt = (withEvent evStallHalted (toLe 2 n ++ toLe 1 4) b).lt
        ∧ (irq = true → Offered t .rp { write := true, addr := q.irqAddr, len := 4, data := toLe 4 q.irqData.toNat
                                        ident := stallIdent b n, owner := .irq (Fin.ofNat 512 n) })
        ∧ { t with stalls := b.stalls, lt := b.lt }.still = b.still)

/-! ## Fetch and dispatch (R51 to R64) -/

/-- The yard reads the next announced descriptors of a fetchable ring into the cache: one request on `rp_` at the ring's
base plus 64 times the index, of whole descriptors, never past the producer, never across the ring's end, never more than
8 cached; nothing else of the block changes but the ring's record of the read (R52, R54, R58). -/
def Obligations.DescriptorFetchReadsAnnounced : Prop :=
  ∀ (s : State) (n : StallId) (r : RingId),
    let b := s.blk
    let g := b.ring n.val r.val
    let k := fetchCount g
    let first : Idx := g.cons + BitVec.ofNat 16 (cachedCount g)
    (b.boot.ready = true → holding b 0 = false → fetchable b n.val r.val = true →
        (b.stall n.val).invMask.getLsbD r.val = false → k ≠ 0 →
      Sends (.descriptorFetch n r) s
        (modRing n.val r.val (fun g => { g with fetching := g.fetching ++ [(first, k, { want := 64 * k }, false)] }) b) .rp
        [{ addr := g.base + BitVec.ofNat 64 (64 * (first.toNat % 2 ^ g.k)), len := 64 * k, ident := stallIdent b n.val
           owner := .desc n r first, prio := fetchPrio b n.val r.val, turn := 4 * n.val + r.val }])
    ∧ (k ≠ 0 → cachedCount g + k ≤ 8 ∧ cachedCount g + k ≤ (g.prod - g.cons).toNat)
    ∧ (2 ≤ g.k → g.k ≤ 15 → first.toNat % 2 ^ g.k + k ≤ 2 ^ g.k)

/-- Descriptors whose read has returned enter the cache in index order, unless an invalidation discards them; of a failed
read the contents are unknown (R58, R60, R542). A parameter block is read on `rp_` from AUX for the oldest captured descriptor
that needs one (R252, R274). -/
def Obligations.DescriptorsAreCaptured : Prop :=
  ∀ (s : State) (n : StallId) (r : RingId), s.blk.boot.ready = true → holding s.blk 0 = false →
    let b := s.blk
    let g := b.ring n.val r.val
    (∀ first k buf drop rest, g.fetching = (first, k, buf, drop) :: rest → (buf.full = true ∨ buf.err = true) →
      Gives (.descriptorCapture n r) s (modRing n.val r.val (fun g => { g with
        fetching := rest
        captured := if drop then g.captured else g.captured ++ (List.range k).map fun i =>
          { idx := first + BitVec.ofNat 16 i, desc := if buf.err then badDesc else parseDesc (slice buf.bytes (64 * i) 64) } }) b))
    ∧ (∀ c, g.captured.find? (fun c => c.pblk == .unread && pblkLen c.desc != 0) = some c →
      Sends (.parameterBlockRead n r) s
        (modRing n.val r.val (fun g => { g with captured := g.captured.map fun x =>
          if x.idx = c.idx then { x with pblk := .reading { want := pblkLen x.desc } } else x }) b) .rp
        (readReqs (.pblk n r c.idx) (stallIdent b n.val) (fetchPrio b n.val r.val) (4 * n.val + r.val) (pieces c.desc.aux 0 (pblkLen c.desc))))

/-- JOB_DISPATCH consumes the head descriptor of the ring that arbitration serves: CONS moves by one, a credit and a free
job-table entry are taken, the entry holds the descriptor and, for NONCE_HW, the nonce of epoch, stall and count, whose counter
moves by one; every other job, ring and stall stays. A head that fails admission, or whose rope was cancelled, is consumed
likewise and ends with its status; a cancelling knot cancels. With nothing to dispatch nothing happens
(R56, R62, R64, R82, R124, R210, R211, R358). -/
def Obligations.DispatchConsumesTheHead : Prop :=
  ∀ s : State, s.blk.boot.ready = true → holding s.blk 0 = false →
    let b := refilled s.blk
    (leastRank (candidates b) = none → Gives .jobDispatch s s.blk)
    ∧ ∀ rank n r c, leastRank (candidates b) = some (rank, n, r) → headReady b n r = some c →
      let b2 := refill n b
      let i := freeJob b
      let d := c.desc
      let g := b2.ring n r
      let nonce := nonceBytes b.boot.epoch n (b2.stall n).nonceCount
      (g.cancel = true → Gives .jobDispatch s (endJob i .cancelledRope (consume n r i c b2)))
      ∧ (∀ st, g.cancel = false → lowest (admission b2 n r c) = some st → Gives .jobDispatch s (endJob i st (consume n r i c b2)))
      ∧ (g.cancel = false → lowest (admission b2 n r c) = none → d.op = 0x01 ∧ d.variant = 1 →
          Gives .jobDispatch s (cancellingKnot i (drawNonce n i (consume n r i c b2))))
      ∧ (g.cancel = false → lowest (admission b2 n r c) = none → ¬ (d.op = 0x01 ∧ d.variant = 1) →
          ∃ t : Block, Gives .jobDispatch s t
            ∧ t.job i = some (if d.nonceHw then { newJob b2 n r c with nonce } else newJob b2 n r c)
            ∧ (∀ k, k ≠ i → t.job k = b.job k)
            ∧ (t.ring n r).cons = g.cons + 1 ∧ (t.ring n r).captured = g.captured.drop 1 ∧ (t.ring n r).prod = g.prod
            ∧ (∀ q, q ≠ r → t.ring n q = b2.ring n q) ∧ (∀ m, m ≠ n → t.stall m = b2.stall m)
            ∧ (t.stall n).inFlight = (b2.stall n).inFlight + 1 ∧ (t.stall n).held = (b2.stall n).held + 1
            ∧ (t.stall n).nonceCount = (b2.stall n).nonceCount + (if d.nonceHw then 1 else 0)
            ∧ t.serial = b.serial + 1
            ∧ { t with jobs := b.jobs, stalls := b.stalls, serial := b.serial, rrDispatch := b.rrDispatch, boot := b.boot } = b)

/-- A hardware nonce is the 96-bit big-endian value of the epoch in bits [95:64], the stall number in bits [62:54] and the stall's count in bits
[53:0]; so two draws that differ in any of them differ in a byte. The draw at dispatch takes the boot epoch, which is studbook cell 0 as
start-up's ADVANCE was answered, and the stall's count, which moves by one. The lane uses the 12 bytes as its IV, and the completion of a job that
ended DONE reports them in the same byte order (R210). -/
def Obligations.HardwareNoncesAreDistinct : Prop :=
  (∀ e n k : Nat, e < 2 ^ 32 → n < 512 → k < 2 ^ 54 →
    (nonceBytes e n k).length = 12 ∧ beNat (nonceBytes e n k) = e * 2 ^ 64 + n * 2 ^ 54 + k)
  ∧ (∀ e n k e' n' k' : Nat, e < 2 ^ 32 → e' < 2 ^ 32 → n < 512 → n' < 512 → k < 2 ^ 54 → k' < 2 ^ 54 →
    nonceBytes e n k = nonceBytes e' n' k' → e = e' ∧ n = n' ∧ k = k')
  ∧ (∀ (b : Block) (n i : Nat) (j : Job), b.job i = some j → j.desc.nonceHw = true →
    let t := drawNonce n i b
    t.job i = some { j with nonce := nonceBytes b.boot.epoch n (b.stall n).nonceCount }
      ∧ t.stall n = { b.stall n with nonceCount := (b.stall n).nonceCount + 1 })
  ∧ (∀ (s : State) (q : SbOp) (v : BitVec 64), let b := s.blk
    b.sb = some q → q.user = .boot → q.op = 1 → q.cell = 0 → b.sbQueue = [] → b.sbDrop = 0 → b.portDrain = false →
    holding b 0 = false → holding b 20 = false → lanesFenced b < 5 → v.toNat < 2 ^ 32 →
    ∃ t, Gives (.sbResponse false false v) s t ∧ t.boot.epoch = v.toNat)
  ∧ ∀ (j : Job) (phase : Nat), j.desc.nonceHw = true →
    jobIv j = j.nonce ++ zeros 4 ∧ (j.result.status = .done → slice (completionBytes j phase) 16 12 = fit 12 j.nonce)

/-! ## Preparation and grants (R24 to R28, R84 to R87, R165 to R178, R281 to R283, R359 to R364) -/

/-- The decision pair of step 4a, for which the yard has named the engine. When no condition is found the keys are released to the
job, whose engine they reach over the private bus in shares that recombine to the key; each condition found is kept for the report
both checks make together; a seal, an entropy island that stopped or failed between the takes, or two takes that differ refuse with KEYS_SEALED,
the last raising DECISION_SPLIT; a stall key it names is judged by its tag first. A job without a running decision asks first for its attribute block; without an engine it waits
A KEY_UNWRAP of a blob that
passes keeps slots for its material; without room, or while an eviction would write slots in a hold, its decision is taken again. A job that has a new
engine after a hitch or a lane fault repeats the decision: a failure ends it as a run error, but a zero-fill goes on whatever is found. Each decision
notes the length of the subject it found (R14, R15, R24, R25, R86, R101, R165, R170, R171, R189, R197, R219, R246, R485, R488, R489, R501). -/
def Obligations.KeyDecisionReleasesOrRefuses : Prop :=
  (∀ (s : State) (i : JobId) (t : Take) (j : Job),
    let b := s.blk
    let b1 := when (usesOwnSk j) (useSk j.stall.val) b
    b.boot.ready = true → holding b 19 = false → b.boot.entropyPaused = false → b.job i.val = some j →
    j.started = false → j.stage = .waiting → mayProceed b j = true → takesKey j.desc = true → j.keyDone = false →
    let refuse := modJob i.val (fun x => { x with keyDone := true, found := x.found ++ [.keysSealed], subject := none })
    (j.engine = none → attrReady j = true → Gives (.keyDecision i t) s b)
    ∧ (j.engine.isSome = true → j.attrDone = true → blobsReady b j = true →
      (sealDecides b1 j = true → Gives (.keyDecision i t) s (settle i.val (refuse b1)))
      ∧ (sealDecides b1 j = false → b.boot.entropyStopped = true ∨ t = .cut → Gives (.keyDecision i t) s (settle i.val (refuse b1)))
      ∧ (sealDecides b1 j = false → b.boot.entropyStopped = false → t = .split → Gives (.keyDecision i t) s
        (settle i.val (withEvent evDecisionSplit [] (refuse b1))))
      ∧ (sealDecides b1 j = false → b.boot.entropyStopped = false → t = .agree → decision b1 j false ≠ [] → Gives (.keyDecision i t) s
        (settle i.val (modJob i.val (fun x => { x with
          keyDone := true, found := x.found ++ decision b1 j false, subject := subjectLen b1 j }) b1)))
      ∧ (sealDecides b1 j = false → b.boot.entropyStopped = false → t = .agree → decision b1 j false = [] →
        let b2 := giveKeys i.val j (each (released b1 j) touchKey (modJob i.val (fun x => { x with
          keyDone := true, passed4a := true, subject := subjectLen b1 j }) b1))
        let k := max 1 (ceilDiv (j.desc.sLen - 80) 64)
        (¬ (j.desc.op = 0x30 ∧ j.desc.variant = 0 ∧ j.found = [] ∧ j.target = []) → Gives (.keyDecision i t) s (settle i.val b2))
        ∧ (j.desc.op = 0x30 → j.desc.variant = 0 → j.found = [] → j.target = [] →
          (∀ l c, (anyHold b2 = false ∨ roomFor b2 (some j.stall.val) k true = true) → takeSlots (some j.stall.val) k true none b2 = some (l, c) → l ≠ [] →
            Gives (.keyDecision i t) s (settle i.val (modJob i.val (fun x => { x with newKey := none, target := l, attrDone := true }) c)))
          ∧ ((anyHold b2 = true ∧ roomFor b2 (some j.stall.val) k true = false) ∨ takeSlots (some j.stall.val) k true none b2 = none →
            Gives (.keyDecision i t) s (settle i.val (modJob i.val (fun x => { x with keyDone := false }) b2))))))
    ∧ (∀ a, j.attrDone = false → j.attrBlk = {} → attrAddr j.desc = some a → Sends (.keyDecision i t) s
        (modJob i.val (fun j => { j with attrBlk := { want := 32 } }) b) .rp
        (readReqs (.attr i.val) (stallIdent b j.stall.val) 2 (4 * j.stall.val + j.ring.val) (pieces a 0 32))))
  ∧ (∀ (s : State) (i : JobId) (t : Take) (j : Job),
    let b := s.blk
    let b1 := modJob i.val (fun x => { x with keyDone := true }) b
    let ends := fun (st : Status) (b : Block) => if j.zeroFill then resume i.val b else runError i.val st b
    b.boot.ready = true → holding b 19 = false → b.boot.entropyPaused = false → b.job i.val = some j →
    j.started = true → j.keyDone = false → resumable j = true →
    (b.boot.entropyStopped = true ∨ (sealDecides b j = false ∧ t = .cut) → Gives (.keyDecision i t) s (ends .keysSealed b1))
    ∧ (b.boot.entropyStopped = false → sealDecides b j = false → t = .split →
        Gives (.keyDecision i t) s (ends .keysSealed (withEvent evDecisionSplit [] b1)))
    ∧ (b.boot.entropyStopped = false → sealDecides b j = true ∨ t = .agree →
        (∀ st, lowest (decision b j true) = some st → Gives (.keyDecision i t) s (ends st b1))
        ∧ (lowest (decision b j true) = none → Gives (.keyDecision i t) s (resume i.val (giveKeys i.val j b1)))))
  ∧ ∀ (cipher : Bool) (k : KeyCopy) (b : Block), (sendKey cipher k b).1.material = k.material
      ∧ (k.shares = [k.material] → (sendKey cipher k b).1.shares.length = if cipher then 3 else 2)

/-- The first of a job's blobs that is not done takes its next step. A blob that comes through a table entry has that entry read first, 16 bytes
of the blob address table, which must be VALID, name the job's stall or the one SPLICE_SOURCE grants, and an aligned address. A blob is fetched with
the job's identity, first its 64-byte header, then, when its length is in order, the rest; a read that fails is marked. Once all of it is there it
names a stall key, a cached copy serves, or it takes, when the job's turn in the unwrap units' one queue has come, a free unit and the slots of its
copy. A unit that has opened it writes the key to those slots, outside every supply hold, under a seal too; a blob that does not unwrap, or would put
an XTS key with equal halves into the tack room, is marked, and the decision then reports KEY_NOT_FOUND, or KEY_USE_DENIED where only a splice
grant cleared meanwhile is missing; a stall key that fails its tag when it is used becomes BAD and raises SLOT_BAD. What a job that has gone left
on a unit is finished as well: its unit goes free, its charge is corrected and its copy stays
(R159, R176 to R178, R189, R199, R205, R257, R258, R360, R362, R363, R485). That a blob with equal halves reports KEY_NOT_FOUND, that the grant is
the one of the job's admission, how the queue serves blobs and the STALL of a table entry are the model's reading (log entries 70, 71, 73 and
117). -/
def Obligations.BlobsUnwrapIntoSlots : Prop :=
  (∀ (s : State) (i : JobId) (j : Job) (x : BlobRead) (k : Nat),
    let c : Instr := .blobUnwrap i
    let b := finishLeft i.val s.blk
    let c0 := checkSys 0 b
    let b0 := useBlobKey j x b
    let h := x.head.bytes
    let m := field h 6 2
    let src := j.desc.op == 0x18 && !x.second
    let asks := fun (o : Owner) (addr : Addr) (n : Nat) =>
      readReqs o (stallIdent b j.stall.val) 2 (4 * j.stall.val + j.ring.val) (pieces addr 0 n)
    let fails := fun (ungranted : Bool) => modBlob i.val k fun x => { x with fails := true, ungranted, phase := 4 }
    let errs := modBlob i.val k fun x => { x with err := true, phase := 4 }
    s.blk.boot.ready = true → holding s.blk 19 = false → b.job i.val = some j → j.stage = .waiting → mayProceed b j = true →
    firstBlob j = some k → j.blobs.getD k {} = x →
    (sealDecides b j = true → x.phase ≠ 5 → Gives c s b)
    ∧ (sealDecides b j = false → x.phase = 0 →
      (x.bat = none → Sends c s (modBlob i.val k (fun x => { x with head := { want := 64 }, phase := 2 }) b) .rp (asks (.blobHead i.val x.second) x.addr 64))
      ∧ ∀ e, x.bat = some e →
        (2 ^ b.tack.batK ≤ e → Gives c s (fails false b))
        ∧ (e < 2 ^ b.tack.batK → Sends c s (modBlob i.val k (fun x => { x with head := { want := 16 }, phase := 1 }) b) .rp
            (asks (.bat i.val x.second) (b.tack.batBase + BitVec.ofNat 64 (16 * e)) 16)))
    ∧ (sealDecides b j = false → x.phase = 1 →
      let stall := field h 12 2 % 512
      let good := decide (field h 12 2 / 2 ^ 15 = 1 ∧ field h 0 8 % 16 = 0)
      (x.head.err = true → Gives c s (errs b))
      ∧ (x.head.err = false → x.head.full = true → (good && blobStallOk b j.stall.val src stall) = false →
          Gives c s (fails (good && grantGone b j x stall) b))
      ∧ (x.head.err = false → x.head.full = true → (good && blobStallOk b j.stall.val src stall) = true →
          Sends c s (modBlob i.val k (fun x => { x with
              addr := BitVec.ofNat 64 (field h 0 8), batLen := some (field h 8 4), head := { want := 64 }, phase := 2 }) b) .rp
            (asks (.blobHead i.val x.second) (BitVec.ofNat 64 (field h 0 8)) 64)))
    ∧ (sealDecides b j = false → x.phase = 2 →
      (x.head.err = true → Gives c s (errs b))
      ∧ (x.head.err = false → x.head.full = true → matLenOk b h x.batLen = false → Gives c s (fails false b))
      ∧ (x.head.err = false → x.head.full = true → matLenOk b h x.batLen = true →
          Sends c s (modBlob i.val k (fun x => { x with rest := { want := 16 + blobPad h }, phase := 3 }) b) .rp
            (asks (.blobRest i.val x.second) (x.addr + 64) (16 + blobPad h))))
    ∧ (sealDecides b j = false → x.phase = 3 → x.rest.err = true → Gives c s (errs b))
    ∧ (sealDecides b j = false → x.phase = 3 → x.rest.err = false → x.rest.full = true →
      (blobHeadOk c0 h = true → blobStallOk c0 j.stall.val src m = true → (c0.sk m).state = 1 → skTagOk c0 m = false →
        Gives c s (lapseIn 3 j (fails false
          (withEvent evSlotBad (toLe 1 1 ++ toLe 2 m) (if anyHold c0 then c0 else modSk m (fun k => { k with state := 2 }) c0)))))
      ∧ (blobHeadOk b0 h = true → grantGone b0 j x m = true → Gives c s (lapseIn 3 j (fails true b0)))
      ∧ ((grantGone b0 j x m && blobHeadOk b0 h) = false → blobNamesKey b0 j.stall.val src h = false → Gives c s (lapseIn 3 j (fails false b0)))
      ∧ (∀ n, blobNamesKey b0 j.stall.val src h = true → blobHit b0 j x = some n → grantGone b0 j x m = false →
        Gives c s (lapseIn 3 j (touch n (modBlob i.val k (fun x => { x with slot := some n, gen := (b0.slot n).gen, phase := 4 }) b0))))
      ∧ (blobNamesKey b0 j.stall.val src h = true → blobHit b0 j x = none → grantGone b0 j x m = false →
        (anyHold b0 = true ∨ noEntropy b0 = true ∨ (unwrapChoice b0).map Prod.fst ≠ some i.val → Gives c s b0)
        ∧ (∀ u l b1, anyHold b0 = false → noEntropy b0 = false → (unwrapChoice b0).map Prod.fst = some i.val → freeUnit b0 = some u →
            takeSlots (some m) (ceilDiv (blobMatLen h) 64) false none (unwrapCharge i.val j 600 b0) = some (l, b1) →
            Gives c s (modBlob i.val k (fun x => { x with phase := 5, unit := some u, room := l })
              { b1 with unwrapJobs := b1.unwrapJobs.set u (some i.val) }))))
    ∧ (x.phase = 5 →
      (anyHold b = true ∨ noEntropy b = true → Gives c s b)
      ∧ (anyHold b = false → noEntropy b = false →
        (blobOpen b0 j.stall.val src h x.rest.bytes = none → Gives c s (fails (grantGone b0 j x m) (unitDone i.val k j x b0)))
        ∧ (∀ mat, blobOpen b0 j.stall.val src h x.rest.bytes = some mat → xtsHalvesEqual (field h 16 2) mat = true →
          Gives c s (fails false (unitDone i.val k j x b0)))
        ∧ (∀ mat, blobOpen b0 j.stall.val src h x.rest.bytes = some mat → xtsHalvesEqual (field h 16 2) mat = false →
          Gives c s (modBlob i.val k (fun y => { y with slot := x.room.head?, gen := (b0.slot (x.room.headD 0)).gen, phase := 4 })
            (writeCopy j.stall.val x mat b0 (unitDone i.val k j x b0)))))))
  ∧ (∀ (n : Nat) (x : BlobRead) (mat : Bytes) (b0 b : Block), let h := x.head.bytes
    writeCopy n x mat b0 b
      = writeKey { blobKey b0 h (field h 6 2) with cacheId := slice x.rest.bytes (blobPad h) 8, sourceOnly := field h 6 2 != n } mat x.room b)
  ∧ (∀ (i : Nat) (b : Block), (∀ u, u < 2 → ∀ l, b.unwrapLeft.get u = some l → l.job ≠ i ∨ anyHold b = true ∨ noEntropy b = true) → finishLeft i b = b)
  ∧ (∀ (b : Block) (u : Nat) (l : LeftBlob), u < 2 → b.unwrapLeft.get u = some l → anyHold b = false → noEntropy b = false →
    (∀ v, v < 2 → v ≠ u → b.unwrapLeft.get v = none) →
    let x := l.blob
    let h := x.head.bytes
    let c := useNamedKey l.stall l.source x b
    let free := unitFree (some u) l.eff l.stall { c with unwrapLeft := c.unwrapLeft.set u none }
    (∀ mat, blobOpen c l.stall l.source h x.rest.bytes = some mat → xtsHalvesEqual (field h 16 2) mat = false →
      finishLeft l.job b = writeCopy l.stall x mat c free)
    ∧ ((∀ mat, blobOpen c l.stall l.source h x.rest.bytes = some mat → xtsHalvesEqual (field h 16 2) mat = true) → finishLeft l.job b = free))

/-- A fragment table, of the source or of the destination chain, is read in pieces inside its aligned 256 bytes; a piece that has arrived adds its
entries to the walk and its conditions to those the job has found, and a failed read ends the walk with PORT_ERROR. A destination's walk sums up
to the job's output length, known for a KEY_WRAP once its subject is (R84 to R87, R174). A chain's walk goes on whatever its job has found (R25, R101). -/
def Obligations.FragmentTablesAreWalked : Prop :=
  ∀ (s : State) (i : JobId) (j : Job) (dst : Bool),
    let b := s.blk
    let w := if dst then j.dstWalk else j.srcWalk
    let other := if dst then j.srcWalk else j.dstWalk
    let put := fun (v : Walk) (l : List Status) =>
      modJob i.val fun j => if dst then { j with dstWalk := v, found := j.found ++ l } else { j with srcWalk := v, found := j.found ++ l }
    b.boot.ready = true → holding b 0 = false → b.job i.val = some j → j.stage = .waiting → mayProceed b j = true →
    w.done = false → (if dst then outLenKnown j = true ∧ other.done = true else other.done = true ∨ outLenKnown j = false) →
    (w.reading = false →
      let n := min (256 - w.next.toNat % 256) (16 * (4096 - w.index))
      let v := if dst then { w with want := wantedLen b j, noSum := outLenUnknown j } else w
      Sends (.fragmentTableWalk i) s (put { v with reading := true, buf := { want := n } } [] b) .rp
        [{ addr := w.next, len := n, ident := stallIdent b j.stall.val
           owner := .table i.val dst, prio := 2, turn := 4 * j.stall.val + j.ring.val }])
    ∧ (w.reading = true → w.buf.full = true → w.buf.err = false →
        let r := walkPiece (w.buf.want / 16) { w with reading := false, pieces := w.pieces ++ [(w.next, tablePart (w.buf.want / 16) w.buf.bytes)] } w.buf.bytes
        Gives (.fragmentTableWalk i) s (settle i.val (put r.1 r.2 b)))
    ∧ (w.reading = true → w.buf.err = true →
        Gives (.fragmentTableWalk i) s (settle i.val (put { w with reading := false, done := true } [.portError] b)))
    ∧ (w.reading = true → w.buf.full = false → w.buf.err = false → Gives (.fragmentTableWalk i) s (settle i.val b))

/-- The fragments of a chain that ends without a condition are exactly the declared length, none empty, each at a 16-byte boundary,
all but the last a multiple of 16 bytes long; no walk ever sums up more than its fragments hold (R83 to R86). -/
def Obligations.AcceptedChainsCoverTheirLength : Prop :=
  ∀ (n : Nat) (w : Walk) (l : Bytes), w.done = false → w.noSum = false → w.sum = (w.frags.map Frag.len).sum →
    (∀ f ∈ w.frags, f.len ≠ 0 ∧ f.addr.toNat % 16 = 0 ∧ f.len % 16 = 0) →
    let r := walkPiece n w l
    r.1.sum = (r.1.frags.map Frag.len).sum ∧ r.1.want = w.want ∧ w.frags <+: r.1.frags
      ∧ (r.2 = [] → (∀ f ∈ r.1.frags, f.len ≠ 0 ∧ f.addr.toNat % 16 = 0) ∧ (∀ f ∈ r.1.frags.dropLast, f.len % 16 = 0)
          ∧ (r.1.done = false → ∀ f ∈ r.1.frags, f.len % 16 = 0)
          ∧ (r.1.done = true → (r.1.frags.map Frag.len).sum = w.want))

/-- The sealed state blob a job continues from is read, 280 bytes from the address in its IV, and opened once it has arrived and the key
decision has ended; what it fails joins the conditions found. The state of a keyed job reaches its lane in two shares, for whose mask it waits
while the entropy island restarts; once that has stopped the job is refused (R270, R281 to R283, R488). -/
def Obligations.StateBlobsAreOpened : Prop :=
  ∀ (s : State) (i : JobId) (j : Job),
    let b := s.blk
    b.boot.ready = true → holding b 0 = false → b.job i.val = some j → j.stage = .waiting → j.restoreDone = false → mayProceed b j = true →
    (j.restore = {} → Sends (.stateBlobRestore i) s (modJob i.val (fun j => { j with restore := { want := 280 } }) b) .rp
      (readReqs (.stateBlob i.val) (stallIdent b j.stall.val) 2 (4 * j.stall.val + j.ring.val)
        (pieces (BitVec.ofNat 64 (field j.desc.iv 0 8)) 0 280)))
    ∧ (j.restore.want = 280 → j.restore.full = true → j.restore.err = false → j.keyDone = true →
        (takesKey j.desc = true → HasEntropy b) →
        let b1 := useSys 2 b
        let r := restoreConds b1 j j.restore.bytes
        let keyed := takesKey j.desc
        Gives (.stateBlobRestore i) s (settle i.val (modJob i.val (fun x => { x with
          found := x.found ++ r.1, restored := if keyed then share2 b1 r.2 else [r.2]
          absorbed := field j.restore.bytes 16 8, restoreDone := true }) (if keyed then drew b1 else b1))))
    ∧ (j.restore.want = 280 → j.restore.full = true → j.restore.err = false → j.keyDone = true → takesKey j.desc = true →
        (b.boot.entropyStopped = true → Gives (.stateBlobRestore i) s
          (settle i.val (modJob i.val (fun x => { x with found := x.found ++ [.islandReset], restoreDone := true }) b)))
        ∧ (b.boot.entropyStopped = false → b.boot.entropyPaused = true → Gives (.stateBlobRestore i) s b))

/-- A grant serves, of the jobs that wait for an engine of the class and can have one now, the highest effective class, and in it the job
hitched first; without one the round robin's stall, charged its quanta and the job's estimated cost; a splice that no pair is free
for reserves one. A cipher grant goes first to a retry, one its faulted lane had kept among them; a stall whose last waiting job is served keeps no
credit. The unwrap units have one queue with the blobs that wait for them. With none to serve nothing happens, but that retries which a faulted lane
had kept move to their page, and that a pair gives way to a splice's retry (R128, R133, R238, R246, R268, R359 to R363). That the earliest dispatched
retry goes first, and that a splice without a pair is passed over, are the model's reading (log entries 55 and 74). -/
def Obligations.GrantsServeTheHighestClass : Prop :=
  ∀ (s : State) (e : EngClass), s.blk.boot.ready = true → holding s.blk 0 = false →
    let b0 := if e = .cipher then moveAllKept s.blk else s.blk
    let b := if e = .cipher then each (retries b0) reserveRetry b0 else b0
    let l := servable b e
    (e = .entropy → b0.boot.entropyStopped = true → Gives (.engineGrant e) s (endEntropyJobs b0))
    ∧ (e = .cipher → retryServable b0 = true → Gives (.engineGrant e) s (laneRetry b0))
    ∧ (e = .unwrap →
        (unwrapChoice b0 = none → Gives (.engineGrant e) s b0)
        ∧ ∀ i j, unwrapChoice b0 = some (i, j) → (∀ x ∈ unwrapQueue b0, j.eff ≤ x.2.eff)
          ∧ (blobWaits b0 j = true → Gives (.engineGrant e) s b0)
          ∧ ∀ g, blobWaits b0 j = false → engineFor b0 i j e = some g →
              Gives (.engineGrant e) s (giveEngine i j g (modJob i (fun x => { x with estCost := estCost b0 j.desc j.pblk (costKeys b0 j) })
                (unwrapCharge i j (estCost b0 j.desc j.pblk (costKeys b0 j)) b0))))
    ∧ (e ≠ .unwrap → ¬ (e = .entropy ∧ b0.boot.entropyStopped = true) → ¬ (e = .cipher ∧ retryServable b0 = true) →
        (l = [] → Gives (.engineGrant e) s b)
        ∧ ∀ c, c < 4 → (∀ x ∈ l, c ≤ x.2.eff) → (∃ x ∈ l, x.2.eff = c) →
          let m := l.filter fun x => x.2.eff == c
          let ns := (m.map fun x => x.2.stall.val).dedup
          (∀ i j, firstHitched m = some (i, j) →
            (∀ g, engineFor b i j e = some g → Gives (.engineGrant e) s (lapseIn (classNum e) j (giveEngine i j g b)))
            ∧ (engineFor b i j e = none → Gives (.engineGrant e) s (reservePair i b)))
          ∧ (∀ n i j, firstHitched m = none → drrChoose b (classNum e) c ns = some n → stallHead m n = some (i, j) →
            (∀ g, engineFor b i j e = some g →
              Gives (.engineGrant e) s (giveEngine i j g (modJob i (fun x => { x with estCost := estCost b j.desc j.pblk j.keys })
                (drrGrant (classNum e) c i n (estCost b j.desc j.pblk j.keys) ns b))))
            ∧ (engineFor b i j e = none → Gives (.engineGrant e) s (reservePair i b))))

/-- A lane asked for leaves its work at a block boundary its job has reached, and a digest lane likewise with its island's hitch counter
for a keyed job; a digest that squeezes a long output leaves between two of its blocks; a zero-fill leaves at once. Where nobody
asks, or the place is no boundary, nothing happens (R233, R236, R238, R240, R244, R285 to R287). -/
def Obligations.HitchesAtBlockBoundaries : Prop :=
  ∀ (s : State) (k : Nat), s.blk.boot.ready = true →
    let b := s.blk
    (∀ (l : LaneId) (i : Nat) (j : Job), holding b (1 + l.val) = false → firstLeaver b l.val = some (i, j) →
      let gives := laneForced b l.val || (laneAsked b l.val && laneHitchable b l.val)
      (gives = true → j.zeroFill = true → Gives (.hitch (.lane l) k) s (laneLeave l.val k i j b))
      ∧ (gives = true → j.zeroFill = false → boundary j k = true → seenLen j ≤ k → k ≤ haveLen j → (j.restore.full || k == seenLen j) = true → chuteBehind j k = true →
          (stagedOut j || mayRelease j (passOut j k)) = true → Gives (.hitch (.lane l) k) s (laneLeave l.val k i j b))
      ∧ ((gives = false ∨ (j.zeroFill = false ∧ boundary j k = false)) → Gives (.hitch (.lane l) k) s b))
    ∧ (∀ l : LaneId, holding b (1 + l.val) = true ∨ firstLeaver b l.val = none → Gives (.hitch (.lane l) k) s b)
    ∧ (∀ (l : Fin 16) (i : Nat) (j : Job), holding b (9 + l.val / 8) = false → b.digestJobs.get l.val = some i → b.job i = some j →
      (digestAsked b l.val = true → canLeave b i j = true → boundary j k = true → j.seen.length ≤ k → k ≤ (haveSrc j).length →
          chuteBehind j k = true → Gives (.hitch (.digest l) k) s (digestLeave l.val k i b))
      ∧ (digestAsked b l.val = true → canLeave b i j = true → digestLeavesAt b j k = true →
        Gives (.hitch (.digest l) k) s (digestLeave l.val k i b))
      ∧ ((digestAsked b l.val = false ∨ digestLeavesAt b j k = false) → Gives (.hitch (.digest l) k) s b))

/-! ## Jobs on their engines (R20, R27, R87, R103, R201 to R210, R243) -/

/-- A prepared job with no condition found and an engine starts when its chute input, if any, is there, its engine's island does not hold and
the charge of its keys can be written: it runs, every key it is charged for that its slot still holds loses one use, the keyed-digest cache is
looked up, and its source, tag, expected value and second table reads are offered. One whose lane must draw a mask for a new cache entry waits
while the entropy island restarts and ends with ISLAND_RESET once that has stopped. One with a condition found ends with the lowest, without an
engine's work. In a hold of the yard it waits (R13, R20, R26, R87, R101, R102, R243, R278, R485, R488). -/
def Obligations.PreparedJobsStartOrEnd : Prop :=
  ∀ (b : Block) (i : Nat) (j : Job), b.job i = some j → j.stage = .waiting → prepared j = true →
    (holding b 0 = true → settle i b = b)
    ∧ (holding b 0 = false → (∀ st, lowest j.found = some st → settle i b = endJob i st b)
    ∧ (mayStart b j = true → cacheMiss b j = true →
        (b.boot.entropyStopped = true → settle i b = endJob i .islandReset b)
        ∧ (b.boot.entropyStopped = false → b.boot.entropyPaused = true → settle i b = b))
    ∧ (j.found = [] → j.engine.isSome = true → mayProceed b j = true → inChute j.desc = none → engineHeld b j = false → chargeable b j = true →
        (cacheMiss b j = true → HasEntropy b) →
        let t := settle i b
        let x : Job := { j with stage := .running, started := true }
        (∃ y, t.job i = some y ∧ y.stage = .running ∧ y.started = true ∧ y.desc = j.desc ∧ y.keys = j.keys ∧ y.engine = j.engine)
        ∧ t.tack = (each (chargedKeys j) chargeUse b).tack ∧ t.islands = (cacheUse i j b).islands
        ∧ (∀ r ∈ srcReads (.src i) x b 0 ++ auxReads i x b 0 ++ readAt (.exp i) x b (tapRead x), Offered t j.port r)
        ∧ (∀ r ∈ tableReads i x b, Offered t .rp r)))

/-- A job's finished work: the bytes not yet released go to its destination, each further area to its address, and the job drains with
its result: off its cipher lane, whose key register is cleared, as soon as its last block has been handed over, on any other engine
until its end, and not while its island holds; nothing else changes (R15, R22, R27, R201, R243). -/
def Obligations.FinishedWorkIsWritten : Prop :=
  ∀ (b : Block) (i : Nat) (j : Job) (out : Bytes) (more : List (Addr × Bytes)) (r : RunResult),
    b.job i = some j → outChute j.desc = none → (∀ l, (b.lane l).jobs.Nodup ∧ (b.lane l).leaving = false) →
    let t := finish i out more r b
    let y : Job := { j with stage := .draining, result := r }
    let handedOver := j.outRest = [] ∧ waitingWrites t i = [] ∧ engineHeld b j = false
    ((∀ l, j.engine ≠ some (.lane l)) → t.still = (modJob i (fun _ => y) b).still)
    ∧ (∀ l, j.engine = some (.lane l) →
        (handedOver → { t with lanes := b.lanes }.still = (modJob i (fun _ => { y with keys := [] }) b).still
          ∧ ∀ k : LaneId, i ∉ (t.lane k.val).jobs)
        ∧ (¬ handedOver → t.still = (modJob i (fun _ => y) b).still))
    ∧ (∀ q ∈ jobWrites b i j j.dstDone (out.drop j.dstDone) (dstPieces j j.dstDone (out.drop j.dstDone).length), Offered t j.port q)
    ∧ (∀ p ∈ more, ∀ q ∈ jobWrites b i j 0 p.2 (pieces p.1 0 p.2.length), Offered t j.port q)

/-- ENCRYPT and DECRYPT write the mode's output, MAC_GEN the tag; SEAL writes ciphertext at DST and the tag at AUX, a GCM-SIV job
in two passes of which the first gives the tag, the second read again from memory or from the landing buffer (R91, R201 to R209, R226). -/
def Obligations.CiphersAndTags : Prop :=
  ∀ (s : State) (i : JobId) (j : Job) (b : Block), s.blk.boot.ready = true → feedAndCheck i.val s.blk = b →
    let d := j.desc
    let aad := (haveSrc j).take d.aLen
    let pt := (haveSrc j).drop d.aLen
    (Works b 0x10 i.val j → Gives (.encrypt i) s
      (finish i.val (fit d.sLen (plainCipher false d.mode d.param (keyAt j 0) d.iv (haveSrc j))) [] { bytesWritten := d.sLen } b))
    ∧ (Works b 0x11 i.val j → Gives (.decrypt i) s
      (finish i.val (fit d.sLen (plainCipher true d.mode d.param (keyAt j 0) d.iv (haveSrc j))) [] { bytesWritten := d.sLen } b))
    ∧ (Works b 0x14 i.val j → Gives (.macGen i) s
      (finish i.val (fit (tagLen d.mode d.param) (macOf d.mode d.param (keyAt j 0) d.iv (haveSrc j))) []
        { bytesWritten := tagLen d.mode d.param } b))
    ∧ (Works b 0x12 i.val j →
        let r := sealText d.mode d.param (keyAt j 0) (jobIv j) aad pt
        ((d.mode ≠ 6 ∨ d.payload = 0) →
          Gives (.seal i) s (finish i.val (fit d.payload r.1) [(d.aux, r.2)] { bytesWritten := d.payload } b))
        ∧ (d.mode = 6 → d.payload ≠ 0 →
          (j.pass2 = false → let skip := d.aLen + j.seen2.length
            Sends (.seal i) s (modJob i.val (fun x => { x with
                pass2 := true, again := { want := d.sLen - skip, parts := if d.srcChute then [(skip, j.chuteIn.drop skip)] else [] } }) b)
              j.port (srcReads (.srcAgain i.val) j b skip))
          ∧ (j.pass2 = true → j.again.full = true → Gives (.seal i) s (finish i.val
              (fit d.payload (aeadStream 6 (keyAt j 0) (jobIv j) (fullTag 6 (keyAt j 0) (jobIv j) aad pt) (payload2 j)))
              [(d.aux, r.2)] { bytesWritten := d.payload } b))
          ∧ (j.pass2 = true → j.again.full = false → Gives (.seal i) s b)))

/-- A check whose takes agree and whose values are equal, with entropy for its delay, ends DONE with the match pair; any other ends with
AUTH_FAILED and the mismatch pair, an OPEN with its whole declared area zeroed: staged plaintext was withheld, that of a payload above
65,536 bytes has been released before. Takes that differ raise
DECISION_SPLIT, an invalid pair VERDICT_INVALID, and an entropy island that failed between them neither; while the entropy island restarts there is no delay to draw, and a check waits (R96, R97, R208, R218, R222 to R224, R275, R488, R489,
R501). -/
def Obligations.ChecksEndWithVerdicts : Prop :=
  ∀ (s : State) (i : JobId) (j : Job) (b : Block) (v : Verdict), s.blk.boot.ready = true → feedAndCheck i.val s.blk = b →
    let d := j.desc
    let o := openText d.mode d.param (keyAt j 0) d.iv ((haveSrc j).take d.aLen) (fit 16 j.aux.bytes) ((haveSrc j).drop d.aLen)
    let ev := fun b => if v = .split then withEvent evDecisionSplit [] b else if v = .invalid then withEvent evVerdictInvalid [] b else b
    let hit : RunResult := { verdict := matchWord, verdictInv := matchInv }
    let miss : RunResult := { status := .authFailed, verdict := missWord, verdictInv := missInv }
    let sure := fun (e : Prop) => v = .sound ∧ b.boot.entropyStopped = false ∧ e
    let mac := macOf d.mode d.param (keyAt j 0) d.iv (haveSrc j) = j.aux.bytes
    let dg := digestOut j j.aux.bytes.length = j.aux.bytes
    let fail := fun u => zeroFrom i.val 0 (modJob i.val (fun x => { x with fillAt := d.sLen, tapState := none }) (if stagedOut j = true then dropWaitingWrites i.val u
      else writeOut i.val j.dstDone false ((fit d.payload o.1).drop j.dstDone) u))
    let paused := b.boot.entropyPaused = true ∧ b.boot.entropyStopped = false
    (paused → ∀ p ∈ [(0x13, Instr.openAead i v), (0x15, Instr.macCheck i v), (0x22, Instr.hmacCheck i v), (0x24, Instr.kmacCheck i v)],
        Works b p.1 i.val j → Gives p.2 s b)
    ∧ (¬ paused →
    (Works b 0x13 i.val j →
      (sure (o.2 = j.aux.bytes) → Gives (.openAead i v) s (finish i.val (fit d.payload o.1) [] { hit with bytesWritten := d.payload } b))
      ∧ (¬ sure (o.2 = j.aux.bytes) → Gives (.openAead i v) s (drain i.val miss (fail (ev b)))))
    ∧ (Works b 0x15 i.val j → (sure mac → Gives (.macCheck i v) s (drain i.val hit b))
        ∧ (¬ sure mac → Gives (.macCheck i v) s (drain i.val miss (ev b))))
    ∧ (Works b 0x22 i.val j → (sure dg → Gives (.hmacCheck i v) s (drain i.val hit b))
        ∧ (¬ sure dg → Gives (.hmacCheck i v) s (drain i.val miss (ev b))))
    ∧ (Works b 0x24 i.val j → (sure dg → Gives (.kmacCheck i v) s (drain i.val hit b))
        ∧ (¬ sure dg → Gives (.kmacCheck i v) s (drain i.val miss (ev b)))))

/-- A splice whose checks pass writes the ciphertext of the plaintext its source opens to, and its tag, a long one into GCM-SIV in a
second pass over its source, which must give the tag of the first. One whose source tag or
tap fails has its whole area and the tag location zeroed, where a staged output and a GCM-SIV one were withheld, and keeps its tap's state for a tap
save; the status is AUTH_FAILED or, where only the tap failed, FIXITY_MISMATCH. Takes that differ raise DECISION_SPLIT, an invalid pair
VERDICT_INVALID (R97, R244, R249, R251 to R264, R266). -/
def Obligations.SplicesOpenCheckAndSeal : Prop :=
  ∀ (s : State) (i : JobId) (j : Job) (b : Block) (tag tap : Verdict), s.blk.boot.ready = true → feedAndCheck i.val s.blk = b →
    let d := j.desc
    let aad := (haveSrc j).take d.aLen
    let o := spliceOpen j aad ((haveSrc j).drop d.aLen)
    let pt := fit d.payload o.1
    let pt2 := fit d.payload (spliceOpen j aad (payload2 j)).1
    let siv := fun x => fullTag 6 (keyAt j 1) (spDstIv j.pblk) aad x
    let r := spliceSeal j aad pt
    let r2 := spliceSeal j aad pt2
    let tapped := spTapAlg j.pblk != 0
    let tagOk := aeadMode (spSrc d) = false ∨ passes b tag (o.2 == j.aux.bytes) = true
    let tapOk := spTapAlg j.pblk = 0 ∨ passes b tap (tapDigest b j pt == j.exp.bytes) = true
    let good : RunResult := { verdict := if tapped then matchWord else 0, verdictInv := if tapped then matchInv else 0, bytesWritten := d.payload }
    let ev := fun (v : Verdict) (b : Block) =>
      if v = .split then withEvent evDecisionSplit [] b else if v = .invalid then withEvent evVerdictInvalid [] b else b
    let b1 := (if tapped then ev tap else id) ((if aeadMode (spSrc d) then ev tag else id) b)
    let fail := fun u => zeroTag i.val (zeroFrom i.val 0 (modJob i.val (fun x => { x with fillAt := d.sLen, tapState := tapHeld u j d.payload })
      (if stagedOut j = true ∨ spDst d = 6 then dropWaitingWrites i.val u
        else writeOut i.val j.dstDone false ((fit d.payload r.1).drop j.dstDone) u)))
    Works b 0x18 i.val j →
    (j.pass2 = true → j.again.full = true →
        (siv pt2 = siv pt → Gives (.splice i tag tap) s
          (finish i.val (fit d.payload r2.1) ((tagAddr j).toList.map fun p => (p.1, r2.2)) good b))
        ∧ (siv pt2 ≠ siv pt → Gives (.splice i tag tap) s (runError i.val .doubleFault b)))
    ∧ (j.pass2 = false → b.boot.entropyPaused = true → b.boot.entropyStopped = false → Gives (.splice i tag tap) s b)
    ∧ (j.pass2 = false → (b.boot.entropyPaused = false ∨ b.boot.entropyStopped = true) →
      (tagOk → tapOk → (spliceTwo d = false ∨ d.srcChute = true) →
        Gives (.splice i tag tap) s (finish i.val (fit d.payload r.1) ((tagAddr j).toList.map fun p => (p.1, r.2)) good b1))
      ∧ (tagOk → tapOk → spliceTwo d = true → d.srcChute = false → let skip := d.aLen + j.seen2.length
        Sends (.splice i tag tap) s (modJob i.val (fun x => { x with pass2 := true, again := { want := d.sLen - skip } }) b1)
          j.port (srcReads (.srcAgain i.val) j b skip))
      ∧ (¬ tagOk → Gives (.splice i tag tap) s (drain i.val { status := .authFailed, verdict := if tapped then missWord else 0
                                                              verdictInv := if tapped then missInv else 0 }
          (fail b1)))
      ∧ (tagOk → ¬ tapOk → Gives (.splice i tag tap) s (drain i.val { status := .fixityMismatch, verdict := missWord, verdictInv := missInv }
          (fail b1))))

/-- DIGEST, HMAC_GEN, KMAC_GEN and XOF write their output; in state modes 1 and 2 they write instead a sealed state blob of 280 bytes, which
takes one draw (R271, R280 to R284). -/
def Obligations.DigestsAndSavedStates : Prop :=
  ∀ (s : State) (i : JobId) (j : Job) (b : Block) (p : Nat × (JobId → Instr)), s.blk.boot.ready = true → feedAndCheck i.val s.blk = b →
    p ∈ [(0x20, Instr.digest), (0x21, Instr.hmacGen), (0x23, Instr.kmacGen), (0x25, Instr.xof)] → Works b p.1 i.val j →
    let n := outLen b j.desc [] 0
    (j.desc.stateMode ≠ 1 → j.desc.stateMode ≠ 2 →
        Gives (p.2 i) s (finish i.val (digestOut j n) [] { bytesWritten := n } b))
    ∧ ((j.desc.stateMode = 1 ∨ j.desc.stateMode = 2) → HasEntropy b →
        let b1 := useSys 2 b
        Gives (p.2 i) s (finish i.val (fit 280 (stateBlob b1 j)) [] { bytesWritten := 280 } (drew b1)))

/-- A key written into slots `k ∷ l` reads back whole from its head, with the attributes it was given, VALID, and every slot's GEN as it
was; no other slot changes (R161, R173, R191). -/
def Obligations.WrittenKeysReadBack : Prop :=
  ∀ (b : Block) (a : Slot) (m : Bytes) (k : Nat) (l : List Nat), (k :: l).Nodup → materialLen b a.alg a.size = some m.length →
    m.length ≤ 64 * (l.length + 1) →
    let t := writeKey a m (k :: l) b
    keyMaterial t k = m ∧ runSlots t (t.slot k).runLen k = k :: l
      ∧ (t.slot k).valid = true ∧ (t.slot k).owner = a.owner ∧ (t.slot k).alg = a.alg ∧ (t.slot k).size = a.size
      ∧ (t.slot k).uses = a.uses ∧ (t.slot k).useLimit = a.useLimit ∧ (t.slot k).engineMask = a.engineMask ∧ (t.slot k).parent = a.parent
      ∧ (∀ q, (t.slot q).gen = (b.slot q).gen) ∧ (∀ q, q ∉ k :: l → t.slot q = b.slot q)


/-! ## Key opcodes and public-key cores (09, 10, R170 to R177) -/

/-- KEY_UNWRAP installs the key of a blob of its own stall, or the material a KW or KWP unwrap gives when it fits the attribute block;
KEY_DERIVE a child of its key by the key-derivation functions of R172, KEY_GENERATE fresh material, none of them while an island holds; an XTS key with equal
halves is refused, or drawn again, and what does not open, or has the wrong length, ends with KEY_NOT_FOUND. KEY_WRAP writes the blob or the wrapped key, RANDOM the bytes asked for (R170 to R177, R205, R485).
That a KW or KWP unwrapped key is a child of the stall key, at depth 1, and what the parent of a key made from a GLOBAL key is, are the model's
reading (log entries 31 and 56). -/
def Obligations.KeyOpcodesUnwrapWrapAndDerive : Prop :=
  ∀ (s : State) (i : JobId) (j : Job), let b := s.blk
    b.boot.ready = true → holding b 19 = false →
    let a := (materialLen b (j.newKey.getD {}).alg (j.newKey.getD {}).size).getD 0
    let w := j.desc.variant == 2
    (Works b 0x30 i.val j → j.desc.variant = 0 →
      (unwrapSource b j = none → Gives (.keyUnwrap i) s (runError i.val .keyNotFound b))
      ∧ (∀ r m, unwrapSource b j = some (r, m) →
          (xtsHalvesEqual r.alg m = true → Gives (.keyUnwrap i) s (runError i.val .keyUseDenied b))
          ∧ (xtsHalvesEqual r.alg m = false → HasEntropy b → anyHold b = false → Gives (.keyUnwrap i) s
              (installAndWrite i.val { j with target := j.target.take (ceilDiv m.length 64) } r m [] b))))
    ∧ (Works b 0x30 i.val j → j.desc.variant ≠ 0 → ∀ k, j.newKey = some k →
      (∀ m, Config.kwUnwrap w (keyAt j 0) (haveSrc j) = some m → m.length = a → xtsHalvesEqual k.alg m = false →
          HasEntropy b → anyHold b = false → Gives (.keyUnwrap i) s (installAndWrite i.val j (stallKeyChild b j.stall.val (newRecord k)) m [] b))
      ∧ (∀ m, Config.kwUnwrap w (keyAt j 0) (haveSrc j) = some m → m.length = a → xtsHalvesEqual k.alg m = true →
          Gives (.keyUnwrap i) s (runError i.val .keyUseDenied b))
      ∧ ((∀ m, Config.kwUnwrap w (keyAt j 0) (haveSrc j) = some m → m.length ≠ a) → Gives (.keyUnwrap i) s (runError i.val .keyNotFound b)))
    ∧ (Works b 0x31 i.val j → let n := jobOutLen b j
      (j.desc.variant = 0 → HasEntropy b → Gives (.keyWrap i) s
        (finish i.val (fit n (blobOf b j (j.keys.getD 0 {}) (j.keys.getD 1 {}))) [] { bytesWritten := n } (drew b)))
      ∧ (j.desc.variant ≠ 0 → Gives (.keyWrap i) s
        (finish i.val (fit n (Config.kwWrap w (keyAt j 1) (keyAt j 0))) [] { bytesWritten := n } b)))
    ∧ (Works b 0x32 i.val j → ∀ k, j.newKey = some k →
      let m := fit a (kdfOf j.desc.variant.toNat (keyAt j 0) (haveSrc j) a)
      (xtsHalvesEqual k.alg m = false → HasEntropy b → anyHold b = false → Gives (.keyDerive i) s (installAndWrite i.val j (childOf b j (newRecord k)) m [] b))
      ∧ (xtsHalvesEqual k.alg m = true → Gives (.keyDerive i) s (runError i.val .keyUseDenied b)))
    ∧ (Works b 0x33 i.val j → HasEntropy b → (anyHold b = true → Gives (.keyGenerateOp i) s b)
      ∧ (anyHold b = false → ∀ k, j.newKey = some k →
        (xtsHalvesEqual k.alg (drbgNow b a) = false →
          Gives (.keyGenerateOp i) s (installAndWrite i.val j (childOf b j (newRecord k)) (drbgNow b a) [] (drew b)))
        ∧ (xtsHalvesEqual k.alg (drbgNow b a) = true → Gives (.keyGenerateOp i) s (drew b))))
    ∧ (Works b 0x34 i.val j → HasEntropy b → holding b 21 = false →
      Gives (.random i) s (finish i.val (drbgNow b j.desc.aLen) [] { bytesWritten := j.desc.aLen } (drew b)))

/-- A public-key job with an edge condition ends with the lowest, its output zero. An operation with a secret waits without entropy, or ends
with ISLAND_RESET when that island has stopped; an operation on public values alone needs none. A verification ends with DONE and the match
pair when the signature verifies and with SIGNATURE_INVALID and the mismatch pair when not, and likewise, with VERDICT_INVALID raised, when the
core's verdict pair is neither of the two; the core keeps the public inputs (R96, R97, R294, R296, R297, R307, R320, R344, R488). -/
def Obligations.PublicKeyChecksComeFirst : Prop :=
  ∀ (s : State) (i : JobId) (j : Job) (p : Nat × (JobId → Instr)) (pairSound : Bool), let b := s.blk
    let verifies := [(0x42, fun job => Instr.ecdsaVerify { job, pairSound }), (0x45, fun job => Instr.eddsaVerify { job, pairSound })
      , (0x56, fun job => Instr.mldsaVerify { job, pairSound }), (0x5A, fun job => Instr.lmsVerify { job, pairSound })
      , (0x5B, fun job => Instr.xmssVerify { job, pairSound }), (0x5D, fun job => Instr.slhdsaVerify { job, pairSound })]
    b.boot.ready = true → CoreWorks b p.1 i.val j →
    (p ∈ verifies ++ [(0x49, Instr.rsaPublic), (0x4A, Instr.modexp), (0x4B, Instr.modmul)] →
      ∀ st, lowest (pkConds b j) = some st → Gives (p.2 i) s (pkReject i.val j st 0 b))
    ∧ (p ∈ [(0x41, fun i => Instr.ecdsaSign i true .agree), (0x43, Instr.ecdh), (0x44, fun i => Instr.eddsaSign i true .agree)
        , (0x46, Instr.xdh), (0x48, fun i => Instr.rsaPrivate i true .agree), (0x51, Instr.mlkemEncaps)] →
      (∀ st, HasEntropy b → lowest (pkConds b j) = some st → Gives (p.2 i) s (pkReject i.val j st 0 b))
      ∧ (b.boot.entropyStopped = true → Gives (p.2 i) s (runError i.val .islandReset b))
      ∧ (b.boot.entropyStopped = false → b.boot.entropyPaused = true → Gives (p.2 i) s b))
    ∧ (p ∈ verifies → lowest (pkConds b j) = none →
      let miss : RunResult := { status := .signatureInvalid, verdict := missWord, verdictInv := missInv }
      (pairSound = true → pkAccepts b j = true →
        Gives (p.2 i) s (drain i.val { verdict := matchWord, verdictInv := matchInv } (coreTake j b)))
      ∧ (pairSound = true → pkAccepts b j = false → Gives (p.2 i) s (drain i.val miss (coreTake j b)))
      ∧ (pairSound = false → Gives (p.2 i) s (drain i.val miss (withEvent evVerdictInvalid [] (coreTake j b)))))

/-- A signature is written unless its check pass fails; then nothing of it leaves the core: DOUBLE_FAULT, the output zeroed,
the failure counted and raised with the core, takes that differ raised too. ECDSA draws its per-message secret, EdDSA is a function of
seed and message; the check pass verifies with the stored public key. An ECDSA signature with a zero half ends with INPUT_ZERO;
ML-DSA signs with 32 fresh bytes, reports its rounds and ends with INPUT_ZERO after 1,000 without an accepted signature; SLH-DSA signs
the context and message of the source, with a freshly drawn value of n bytes (the model's choice, log entry 66). Each of the four always ends so
once its inputs are there (R297, R312, R319, R321, R322, R334, R339 to R341). -/
def Obligations.SignaturesAreCheckedBeforeRelease : Prop :=
  ∀ (s : State) (i : JobId) (j : Job) (pass : Bool) (t : Take), let b := s.blk
    let n := jobOutLen b j
    let sig := signatureOf b j
    let good := signatureChecks b j sig = true ∧ pass = true ∧ t = .agree
    b.boot.ready = true → HasEntropy b → lowest (pkConds b j) = none →
    (CoreWorks b 0x41 i.val j → let c := curveOf b j.desc.variant.toNat
      let l := (curveLens b j.desc.variant.toNat).2
      let u := blinded (drew b)
      sig = toBe l (c.sign (keyScalar b j.desc.variant.toNat (keyAt j 0)) (c.fromDraw (drbgNow b c.drawLen)) (haveSrc j)).1
          ++ toBe l (c.sign (keyScalar b j.desc.variant.toNat (keyAt j 0)) (c.fromDraw (drbgNow b c.drawLen)) (haveSrc j)).2
      ∧ (j.desc.checkPass = false →
          Gives (.ecdsaSign i pass t) s (if halvesSet j sig = true then pkWrite i.val j sig u else pkReject i.val j .inputZero 0 u))
      ∧ (j.desc.checkPass = true → good →
          Gives (.ecdsaSign i pass t) s (if halvesSet j sig = true then pkWrite i.val j sig u else pkReject i.val j .inputZero 0 u))
      ∧ (j.desc.checkPass = true → ¬ good →
          Gives (.ecdsaSign i pass t) s (if halvesSet j sig = true then pkCheckFail i.val j t u else pkReject i.val j .inputZero 0 u)))
    ∧ (CoreWorks b 0x44 i.val j →
        sig = edSignature j.desc.variant.toNat ((keyAt j 0).take (edLen j.desc.variant.toNat)) (haveSrc j)
        ∧ ((j.desc.checkPass = false ∨ good) → Gives (.eddsaSign i pass t) s (pkWrite i.val j sig (blinded b)))
        ∧ (j.desc.checkPass = true → ¬ good → Gives (.eddsaSign i pass t) s (pkCheckFail i.val j t (blinded b))))
    ∧ (CoreWorks b 0x55 i.val j → let x := drbgNow b 32
        let pk := (keyAt j 0).drop 32
        let out := fit n (dsaSignature j x)
        1 ≤ dsaRounds j x
        ∧ (128 ≤ j.desc.variant.toNat → jobMu j.desc pk (haveSrc j) = haveSrc j)
        ∧ (j.desc.variant.toNat < 128 → jobMu j.desc pk (haveSrc j) = dsaMu pk ([0] ++ toLe 1 j.desc.aLen ++ haveSrc j))
        ∧ Gives (.mldsaSign i) s
          (if 1000 < dsaRounds j x then pkReject i.val j .inputZero 1000 (drew b)
           else finish i.val out [] { bytesWritten := n, rounds := BitVec.ofNat 16 (dsaRounds j x) } (coreKeep j out (drew b))))
    ∧ (CoreWorks b 0x5C i.val j → let v := j.desc.variant.toNat
        Gives (.slhdsaSign i) s (pkWrite i.val j
          (Config.slhSign v (keyAt j 0) ([0] ++ toLe 1 j.desc.aLen ++ haveSrc j) (drbgNow b (slhPk v / 2))) (drew b)))

/-- MODEXP and RSA_PUBLIC write base to the exponent modulo n, MODMUL the product modulo n, in the modulus's length; RSA_PRIVATE writes a number
that is the input to d_p modulo p and to d_q modulo q, when q·q_inv is 1 modulo p, and with a check pass only when its power e modulo
p·q is the input again; each of the four always ends so when no edge condition holds (R297, R313, R315, R316, R320, R321). -/
def Obligations.ModularResultsAreExact : Prop :=
  (∀ (s : State) (i : JobId) (j : Job), let b := s.blk
    let k := 8 * j.desc.variant.toNat
    let x := haveSrc j
    let key := keyAt j 0
    b.boot.ready = true → lowest (pkConds b j) = none →
    (CoreWorks b 0x49 i.val j → Gives (.rsaPublic i) s
      (pkWrite i.val j (toBe k (beNat (slice x k k) ^ beNat (x.drop (2 * k)) % beNat (x.take k))) b))
    ∧ (CoreWorks b 0x4A i.val j → Gives (.modexp i) s
      (pkWrite i.val j (toBe k (beNat (slice x k k) ^ beNat (x.drop (2 * k)) % beNat (x.take k))) b))
    ∧ (CoreWorks b 0x4B i.val j → Gives (.modmul i) s
      (pkWrite i.val j (toBe k (beNat (slice x k k) * beNat (slice x (2 * k) k) % beNat (x.take k))) b))
    ∧ (∀ pass t, HasEntropy b → CoreWorks b 0x48 i.val j →
      let good := rsaPrivate key x k ^ beNat (key.take 8) % (rsaPart key k 0 * rsaPart key k 1) = beNat x ∧ pass = true ∧ t = .agree
      ((j.desc.checkPass = false ∨ good) →
        Gives (.rsaPrivate i pass t) s (pkWrite i.val j (toBe k (rsaPrivate key x k)) (blinded b)))
      ∧ (j.desc.checkPass = true → ¬ good → Gives (.rsaPrivate i pass t) s (pkCheckFail i.val j t (blinded b)))))
  ∧ ∀ (key x : Bytes) (k : Nat), let p := rsaPart key k 0
      let q := rsaPart key k 1
      let m := rsaPrivate key x k
      0 < p → 0 < q → q * rsaPart key k 4 % p = 1 % p →
      m % p = beNat x ^ rsaPart key k 2 % p ∧ m % q = beNat x ^ rsaPart key k 3 % q

/-- Key generation on a core installs private material with the public part and writes the public part after the result record; a shared secret
is written at the destination or installed as a key, an all-zero XDH secret ends with INPUT_ZERO; ML-KEM decapsulation always gives a
key (R312, R318, R320, R333, R337, R338). -/
def Obligations.CoresMakeKeysAndSecrets : Prop :=
  ∀ (s : State) (i : JobId) (j : Job), let b := s.blk
    let u := blinded b
    let v := j.desc.variant.toNat
    b.boot.ready = true → HasEntropy b →
    (∀ p ∈ [(0x40, Instr.ecKeygen), (0x50, Instr.mlkemKeygen), (0x54, Instr.mldsaKeygen)], CoreWorks b p.1 i.val j →
      ∀ k, j.newKey = some k → let m := wholeMaterial b k.alg k.size (genMaterial b k.alg k.size)
      (anyHold b = false → Gives (p.2 i) s (installWith (coreKeep j) i.val j (insideKey b j (newRecord k)) m
          (m.drop ((privateLen b k.alg k.size).getD 0)) (blinded (drew b))))
      ∧ (anyHold b = true → Gives (p.2 i) s b))
    ∧ (lowest (pkConds b j) = none → CoreWorks b 0x43 i.val j →
        let z := toBe (curveLens b v).1 (pointX (sharedPoint b v (keyAt j 0) (haveSrc j)))
        (j.newKey = none → Gives (.ecdh i) s (pkWrite i.val j z u))
        ∧ (∀ k, j.newKey = some k → anyHold b = false →
            Gives (.ecdh i) s (installWith (coreKeep j) i.val j (childOf u j (newRecord k)) z [] u)))
    ∧ (CoreWorks b 0x46 i.val j →
        let z := xdh v ((keyAt j 0).take (xdhLen v)) (haveSrc j)
        let sure := lowest (pkConds b j) = none
        (allZero z = true → Gives (.xdh i) s (pkReject i.val j .inputZero 0 b))
        ∧ (sure → allZero z = false → j.newKey = none → Gives (.xdh i) s (pkWrite i.val j z u))
        ∧ (∀ k, sure → allZero z = false → j.newKey = some k → anyHold b = false →
            Gives (.xdh i) s (installWith (coreKeep j) i.val j (childOf u j (newRecord k)) z [] u)))
    ∧ (lowest (pkConds b j) = none → CoreWorks b 0x51 i.val j →
        let z := fit (32 + kemC v) (Config.mlkemEncaps v (haveSrc j) (drbgNow b 32))
        (j.newKey = none → Gives (.mlkemEncaps i) s (pkWrite i.val j (z.drop 32 ++ z.take 32) (drew b)))
        ∧ (∀ k, j.newKey = some k → anyHold b = false → Gives (.mlkemEncaps i) s
            (installWith (coreKeep j) i.val j (insideKey (drew b) j (newRecord k)) (z.take 32) (z.drop 32) (drew b))))
    ∧ (CoreWorks b 0x52 i.val j → let z := fit 32 (Config.mlkemDecaps v ((keyAt j 0).take 64) (haveSrc j))
        (j.newKey = none → Gives (.mlkemDecaps i) s (pkWrite i.val j z u))
        ∧ (∀ k, j.newKey = some k → anyHold b = false →
            Gives (.mlkemDecaps i) s (installWith (coreKeep j) i.val j (childOf u j (newRecord k)) z [] u)))

/-- LMS_KEYGEN closes its leaf cell's batch and asks the studbook for the cell's value, and makes the key from the value answered. LMS_SIGN jobs
of a cell are served in the order they reached their leaf step, and each takes its value only from a reserved batch: it asks for a
batch of 1,024 when its own is used up, reads the path of the value it takes, then takes it once and for all, and writes the signature
only when the path gives the tree's root and the takes agree; a cache or a region that does
not match, or a value past the last leaf, ends with STATE_EXHAUSTED (R345 to R351). -/
def Obligations.LeavesAreTakenFromReservedBatches : Prop :=
  ∀ (s : State) (i : JobId) (j : Job) (t : Take), let b := useSys 0 s.blk
    let m := keyAt j 0
    let v := j.desc.variant.toNat
    let c := lmsCell m
    let y := joinQueue c j b
    let x := y.tack.cells.get c
    let value := if x.next < x.stop then x.next else x.value
    let q := value - lmsBase m
    let mine := (leafQueue y c).head? = some j.ord
    s.blk.boot.ready = true → HasEntropy s.blk → j.leafFail = false →
    (CoreWorks s.blk 0x58 i.val j → j.desc.variant = 0x04 →
        Gives (.lmsKeygen i) s (pkWrite i.val j (lowerRegion b m (field j.desc.iv 0 8)) b))
    ∧ (CoreWorks s.blk 0x58 i.val j → j.desc.variant ≠ 0x04 → j.leaf = none → j.leafWait = false →
        Gives (.lmsKeygen i) s (askLeaf i.val j.desc.aLen 0 0 (closeBatch j.desc.aLen b)))
    ∧ (∀ k r l base, CoreWorks s.blk 0x58 i.val j → j.desc.variant ≠ 0x04 → j.leaf = some base → j.newKey = some k → j.target = r :: l → anyHold b = false →
        let z := lmsMaterial b j.desc base
        let b1 := installKey i.val j (insideKey b j (newRecord k)) z (drew (drew b))
        let out := treeCache b1 v z (resultRecord b1 r)
        Gives (.lmsKeygen i) s (finish i.val (fit (jobOutLen b j) out) [] { bytesWritten := jobOutLen b j } (coreKeep j out b1)))
    ∧ (CoreWorks s.blk 0x59 i.val j → cacheHeadOk b v m j.aux.bytes = false → Gives (.lmsSign i t) s (pkReject i.val j .stateExhausted 0 b))
    ∧ (CoreWorks s.blk 0x59 i.val j → cacheHeadOk b v m j.aux.bytes = true →
        (¬ mine → Gives (.lmsSign i t) s y)
        ∧ (mine → (x.known = true ∨ x.next < x.stop) → lmsLeaves v (lmsCodes m) ≤ q → Gives (.lmsSign i t) s (pkReject i.val j .stateExhausted 0 y))
        ∧ (mine → x.next = x.stop → j.leafWait = false →
            (x.known = true → q < lmsLeaves v (lmsCodes m) → Gives (.lmsSign i t) s (askLeaf i.val c 1 1024 y))
            ∧ (x.known = false → Gives (.lmsSign i t) s (askLeaf i.val c 0 0 y)))
        ∧ (mine → x.next < x.stop → q < lmsLeaves v (lmsCodes m) →
            (j.leaf ≠ some x.next → Gives (.lmsSign i t) s (askPath i.val x.next j (pathReads v (lmsCodes m) q) y))
            ∧ (j.leaf = some x.next → j.again.full = true → regionBad y v m q j.again.bytes = true →
                Gives (.lmsSign i t) s (pkReject i.val j .stateExhausted 0 y))
            ∧ (j.leaf = some x.next → j.again.full = true → regionBad y v m q j.again.bytes = false →
              ∃ d : Block, d.tack.cells.get c = { x with next := x.next + 1, queue := x.queue.drop 1, lowRaised := (d.tack.cells.get c).lowRaised }
                ∧ ((lmsChecks v m q j.again.bytes = true ∧ t = .agree) → Gives (.lmsSign i t) s
                    (pkWrite i.val j (lmsSignature v m (haveSrc j) (drbgNow y (lmsN (lmsType (lmsCodes m) 0))) q j.again.bytes) (drew d)))
                ∧ (¬ (lmsChecks v m q j.again.bytes = true ∧ t = .agree) → Gives (.lmsSign i t) s (pkCheckFail i.val j t d)))))

/-! ## Port responses and completions (R62 to R70, R94 to R98, R536 to R542) -/

/-- A beat under a tag of an outstanding read: one that is not the last adds its bytes, the last retires the tag and hands the bytes of all
beats, but for those of the first lane before the ones needed, to what asked for them; fewer bytes than asked for are an error. A read that was given
up changes nothing else. A running job's source, tag, expected value or second pass gathers its bytes, and an error there is a data error of the job, as
is one in a second read of its tables, which must agree with the first; descriptors, parameter blocks, tables, attribute blocks, blobs, state
blobs, sheets, command inputs and the reads of a mover channel gather theirs, with their errors. A job without a key has its attribute block checked at
once. A saved tap state that does not open ends its job. A cipher lane whose last block the port now takes lets its job go. A beat under any other
tag has no effect (R13, R58, R83, R87, R99, R103, R171, R178, R201, R252, R266, R390, R466, R536, R537, R542). -/
def Obligations.ReadDataReachesItsAsker : Prop :=
  (∀ (s : State) (p : Port) (tag : Nat) (data : Bytes) (err last : Bool), let b := s.blk
    let c : Instr := .dataReadResponse p tag data err last
    (flightOf b p tag = none → Gives c s b)
    ∧ ∀ g, flightOf b p tag = some g →
      let all := (g.got ++ data).drop (g.req.lead p)
      let l := fit g.req.len all
      let bad := g.bad || err || decide (all.length < g.req.len)
      let f := fun (x : Buf) => if bad then { x with err := true } else x.put g.req.off l
      let u := retire p tag b
      let ends := fun x => Gives c s (drained (lanesDone x))
      let o := g.req.owner
      (g.req.write = true → Gives c s b)
      ∧ (g.req.write = false → last = false → Gives c s (setPort p { b.port p with out := (b.port p).out.map fun x =>
          if x.tag == tag then { x with got := x.got ++ data, bad := x.bad || err } else x } b))
      ∧ (g.req.write = false → last = true →
          u.still = b.still
          ∧ ((u.port p).waiting ++ (u.port p).out.map Flight.req).Perm
              ((b.port p).waiting ++ ((b.port p).out.filter fun f => f.tag != tag).map Flight.req)
          ∧ (o = .discard → ends u)
          ∧ (∀ i, o = .src i → bad = false → ends (shareRunning i (modJob i (fun j => { j with src := j.src.put g.req.off l }) u)))
          ∧ (∀ i, o = .src i → bad = true → ends (shareRunning i (dataError i u)))
          ∧ (∀ i, o = .srcAgain i ∨ o = .aux i ∨ o = .exp i → bad = true → ends (dataError i u))
          ∧ (∀ i, o = .srcAgain i → bad = false → ends (modJob i (fun j => { j with again := j.again.put g.req.off l }) u))
          ∧ (∀ i, o = .aux i → bad = false → ends (modJob i (fun j => { j with aux := j.aux.put g.req.off l }) u))
          ∧ (∀ i, o = .exp i → bad = false → ends (modJob i (fun j => { j with exp := j.exp.put g.req.off l }) u))
          ∧ (∀ i x, o = .tableAgain i x →
              (bad = true → ends (dataError i u))
              ∧ (bad = false → l = x → ends u)
              ∧ (∀ j, bad = false → l ≠ x → b.job i = some j → j.stage = .running → ends (errorIn i .fragmentTableInvalid u)))
          ∧ (∀ n r first, o = .desc n r first → ends (modRing n.val r.val (fun q => { q with fetching := q.fetching.map fun e =>
              if e.1 == first then (e.1, e.2.1, f e.2.2.1, e.2.2.2) else e }) u))
          ∧ (∀ n r k, o = .pblk n r k → ends (modRing n.val r.val (fun q => { q with captured := q.captured.map fun y =>
              if y.idx = k then { y with pblk := givePblk y.pblk f } else y }) u))
          ∧ (∀ i dst, o = .table i dst → ends (modJob i (fun j =>
              if dst then { j with dstWalk := { j.dstWalk with buf := f j.dstWalk.buf } }
              else { j with srcWalk := { j.srcWalk with buf := f j.srcWalk.buf } }) u))
          ∧ (∀ i j, o = .attr i → b.job i = some j →
              let v := modJob i (fun j => { j with attrBlk := f j.attrBlk }) u
              (takesKey j.desc = true ∨ holding b 19 = true → ends v)
              ∧ (takesKey j.desc = false → holding b 19 = false → ends (settle i (checkAttr i v))))
          ∧ (∀ i second, o = .bat i second ∨ o = .blobHead i second → ends (modJob i (fun j => { j with
              blobs := j.blobs.map fun x => if x.second == second then { x with head := f x.head } else x }) u))
          ∧ (∀ i second, o = .blobRest i second → ends (modJob i (fun j => { j with
              blobs := j.blobs.map fun x => if x.second == second then { x with rest := f x.rest } else x }) u))
          ∧ (∀ i j, o = .stateBlob i → b.job i = some j →
              (j.stage ≠ .running → ends (modJob i (fun j => { j with restore := f j.restore }) u))
              ∧ (j.stage = .running → bad = true → j.restore.full = false → ends (dataError i (useSys 2 u)))
              ∧ (j.stage = .running → bad = false →
                let v := modJob i (fun j => { j with restore := j.restore.put g.req.off l }) (useSys 2 u)
                ends (if tapLost v { j with restore := j.restore.put g.req.off l } then errorIn i .doubleFault v else v)))
          ∧ (∀ k, o = .sheet k → ends (sheetStep k (modCmd k (fun x => { x with sheet := f x.sheet }) u)))
          ∧ (∀ k, o = .input k → ends (modCmd k (fun x => { x with input := f x.input }) u))
          ∧ (∀ m, o = .moverDesc m → ends (moverReturned m.val (modMover m.val (fun x =>
              if x.state = 2 ∧ x.step = 1 then { x with buf := f x.buf } else x) u)))
          ∧ (∀ m, o = .moverTable m → ends (moverReturned m.val (modMover m.val (fun x =>
              if x.state = 2 ∧ x.step = 2 then { x with buf := f x.buf } else x) u)))
          ∧ (∀ m, o = .moverData m → ends (moverReturned m.val (modMover m.val (fun x =>
              if x.state = 2 ∧ x.step = 3 then { x with data := f x.data } else x) u)))))
  ∧ (∀ (x : Buf) (f : Buf → Buf),
    ((f x).err = true → givePblk (.reading x) f = .failed)
    ∧ ((f x).err = false → (f x).full = true → givePblk (.reading x) f = .got (f x).bytes)
    ∧ ((f x).err = false → (f x).full = false → givePblk (.reading x) f = .reading (f x)))
  ∧ (∀ t : Block, (∀ l : LaneId, ∀ i ∈ (t.lane l.val).jobs, ∀ j, t.job i = some j → laneEmpty t i j = false) → lanesDone t = t)
  ∧ ∀ t : Block, t.portDrain = false → drained t = t

/-- An acknowledged data write leaves its port and nothing else changes; an errored one is a data error of its job. An errored interrupt message
counts against its stall; a tap save, a command's payload, header and image, and a channel's writes go on or fail as their owners say; a
completion's is handled as COMPLETION_WRITE_ACK handles it; a cipher lane whose last block the port now takes lets its job go
(R22, R103, R187, R201, R249, R392, R393, R434, R467, R542). -/
def Obligations.WriteResponsesReachTheirWriter : Prop :=
  ∀ (s : State) (p : Port) (tag : Nat) (err : Bool), let b := s.blk
    let c : Instr := .writeDoneResponse p tag err
    (flightOf b p tag = none → Gives c s b)
    ∧ ∀ g, flightOf b p tag = some g → g.req.write = true →
      let u := retire p tag b
      let ends := fun x => Gives c s (drained (lanesDone x))
      u.still = b.still
      ∧ ((u.port p).waiting ++ (u.port p).out.map Flight.req).Perm
          ((b.port p).waiting ++ ((b.port p).out.filter fun f => f.tag != tag).map Flight.req)
      ∧ (∀ i, (g.req.owner = .data i ∨ g.req.owner = .zero i) → (err = false → ends u) ∧ (err = true → ends (dataError i u)))
      ∧ (∀ n, g.req.owner = .irq n → (err = false → ends u)
          ∧ (err = true → ends (modStall n.val (fun q => { q with irqErrors := satAdd 32 q.irqErrors 1 }) u)))
      ∧ (∀ i, g.req.owner = .tapSave i → ends (tapSaved i err u))
      ∧ (∀ k, g.req.owner = .image k → ends (if err then modCmd k (fun x => { x with note := 1 }) u else u))
      ∧ (∀ k, g.req.owner = .payload k → ends (payloadDone k err u))
      ∧ (∀ k, g.req.owner = .header k → ends (headerDone k err u))
      ∧ (∀ m, g.req.owner = .moverData m → ends (moverWriteDone m.val false err u))
      ∧ (∀ m, g.req.owner = .moverStatus m → ends (moverWriteDone m.val true err u))
      ∧ (∀ n k, g.req.owner = .completion n k → p = .rp → b.boot.ready = true → exec c s = exec (.completionWriteAck tag err) s)

/-- A completion entry is 64 bytes: the descriptor's TAG, the status, RING, the knot, hitch, hold and retry flags and PHASE, the bytes written
when it is DONE and zero otherwise, the stall, the nonce of a DONE job that drew one, the verdict pair, the rounds, the ring
index, and zeros. The block writes the PHASE flag, bit 0 of the completion flags, in each entry that it writes at completion index i as 1 less the
bit k of i: 1 on the first pass after index 0, then alternating, without a break when the index wraps (R66, R68, R94, R95, R98). -/
def Obligations.CompletionEntryLayout : Prop :=
  (∀ (j : Job) (phase : Nat), phase < 2 → j.result.bytesWritten < 2 ^ 48 → j.nonce.length = 12 →
    let e := completionBytes j phase
    let st := j.result.status
    e.length = 64 ∧ field e 0 4 = j.desc.tag.toNat ∧ field e 4 2 = st.code
      ∧ field e 6 1 = j.byKnot.toNat * 16 + j.wasHitched.toNat * 8 + j.supplyHold.toNat * 4 + j.retried.toNat * 2 + phase
      ∧ field e 7 1 = j.ring.val ∧ (st = .done → field e 8 6 = j.result.bytesWritten) ∧ (st ≠ .done → field e 8 6 = 0)
      ∧ field e 14 2 = j.stall.val ∧ (st = .done → j.desc.nonceHw = true → slice e 16 12 = j.nonce)
      ∧ (st ≠ .done ∨ j.desc.nonceHw = false → slice e 16 12 = zeros 12)
      ∧ field e 28 4 = j.result.verdict.toNat ∧ field e 32 4 = j.result.verdictInv.toNat ∧ field e 36 2 = j.result.rounds.toNat
      ∧ field e 38 2 = j.seq.toNat ∧ slice e 40 24 = zeros 24)
  ∧ (∀ (b : Block) (n i : Nat) (j : Job), let q := b.stall n
    let phase := 1 - q.cqIssue.toNat / 2 ^ q.cqK % 2
    (issueOne n i j b).still = (modStall n (fun q => { q with cqIssue := q.cqIssue + 1 })
        (modJob i (fun j => { j with stage := .issued, cqIndex := q.cqIssue }) b)).still
    ∧ Offered (issueOne n i j b) .rp { write := true, addr := q.cqBase + BitVec.ofNat 64 (64 * (q.cqIssue.toNat % 2 ^ q.cqK)), len := 64
                                       data := completionBytes j phase, ident := stallIdent b n, owner := .completion (Fin.ofNat 512 n) q.cqIssue })
  ∧ ∀ (i : Idx) (k : Nat), k ≤ 15 → phaseBit i k < 2
    ∧ (i.toNat < 2 ^ k → phaseBit i k = 1) ∧ phaseBit (i + BitVec.ofNat 16 (2 ^ k)) k = 1 - phaseBit i k

/-- A job completes when its entry is acknowledged: it leaves the job table and IN_FLIGHT falls; `cq_prod` passes its entry, and returns a held
credit, when it is the next one, and stays while a lower entry is unacknowledged; an errored entry is kept, and written again at its
own place no sooner than 1 µs after the error, the later ones only once it has been acknowledged. A completion with FIXITY_MISMATCH counts in TAP_MISMATCHES. While the yard holds, an
acknowledgement waits in the FIFO of `rp_` (R13, R20, R62, R259, R542). -/
def Obligations.AcknowledgedEntriesComplete : Prop :=
  (∀ (s : State) (tag : Nat) (err : Bool) (f : Flight) (n : StallId) (x : Idx), let b := s.blk
    b.boot.ready = true → holding b 0 = true → flightOf b .rp tag = some f → f.req.owner = .completion n x →
      (∀ e ∈ b.rpFifo, e.1 ≠ tag) → Gives (.completionWriteAck tag err) s { b with rpFifo := b.rpFifo ++ [(tag, err)] })
  ∧ (∀ (s : State) (tag : Nat) (err : Bool) (f : Flight) (n : StallId) (x : Idx), let b := s.blk
    let q := b.stall n.val
    b.boot.ready = true → holding b 0 = false → flightOf b .rp tag = some f → f.req.owner = .completion n x →
    (err = true → ∃ t, Gives (.completionWriteAck tag err) s t
      ∧ t.still = (modStall n.val (fun q => if q.cqAgain = some x then { q with cqAgain := none, cqRetry := (x, f.req.data, b.now) :: q.cqRetry }
          else { q with cqRetry := q.cqRetry ++ [(x, f.req.data, b.now)] }) b).still)
    ∧ (∀ i j, err = false → (jobsOf b n.val).find? (fun e => e.2.stage == .issued && e.2.cqIndex == x) = some (i, j) →
        ∃ t, Gives (.completionWriteAck tag err) s t ∧ t.job i = none ∧ (t.stall n.val).inFlight = q.inFlight - 1
          ∧ (x = q.cqProd → q.cqAcked = [] → (t.stall n.val).cqProd = q.cqProd + 1 ∧ (t.stall n.val).held = q.held - 1
              ∧ (t.stall n.val).cqAcked = [])
          ∧ (x ≠ q.cqProd → q.cqProd ∉ q.cqAcked → (t.stall n.val).cqProd = q.cqProd ∧ (t.stall n.val).held = q.held
              ∧ x ∈ (t.stall n.val).cqAcked)
          ∧ (t.stall n.val).tapMismatches = (if j.result.status = .fixityMismatch then satAdd 32 q.tapMismatches 1 else q.tapMismatches)
          ∧ (t.stall n.val).cqAgain = (if q.cqAgain = some x then none else q.cqAgain)
          ∧ (q.state = .quiescing → q.inFlight = 1 → (t.stall n.val).state = .quiesced)))
  ∧ (∀ (s : State) (n : StallId) (x : Idx) (data : Bytes) (t0 : Nat) (l : List (Idx × Bytes × Nat)), let b := s.blk
    let q := b.stall n.val
    b.boot.ready = true → holding b 0 = false →
    (q.cqRetry = [] ∨ q.cqAgain ≠ none → Gives (.cqWriteRetry n) s b)
    ∧ (q.cqRetry = (x, data, t0) :: l → q.cqAgain = none → ∃ t, Gives (.cqWriteRetry n) s t ∧ t.now = max b.now (t0 + 1)
        ∧ (t.stall n.val).cqRetry = l ∧ (t.stall n.val).cqAgain = some x ∧ (t.stall n.val).cqRetries = satAdd 32 q.cqRetries 1
        ∧ Offered t .rp { write := true, addr := q.cqBase + BitVec.ofNat 64 (64 * (x.toNat % 2 ^ q.cqK)), len := 64, data
                          ident := stallIdent b n.val, owner := .completion (Fin.ofNat 512 n.val) x }))

/-- A counted completion raises the pending count, the first starts the timer; at IRQ_COUNT, or with URGENT_BYPASS for a job of SQ0, and when the
timer reaches IRQ_TIME with a count pending, one message is written and the count cleared. A job without IRQ, and a stall with messages
disabled, count nothing. A failing knot with HALT_ON_ERROR halts its ring, and the halt's message covers its completion (R69, R70, R118). -/
def Obligations.InterruptMessagesFollowTheCount : Prop :=
  ∀ (s : State) (n : StallId) (j : Job), let b := s.blk
    let q := b.stall n.val
    let msg : Req := { write := true, addr := q.irqAddr, len := 4, data := toLe 4 q.irqData.toNat, ident := stallIdent b n.val
                       owner := .irq (Fin.ofNat 512 n.val) }
    let sent := fun c : Block => (modStall n.val (fun q => { q with irqPending := 0, irqSince := none }) c).still
    let due := q.irqCount ≤ q.irqPending + 1 ∨ (q.irqCtrl.getLsbD 1 = true ∧ j.ring = 0)
    (j.desc.haltOnError = true → j.result.status.isResult = false → j.desc.isKnot = true → (b.ring n.val j.ring.val).halted = false →
        haltOrCount n.val j b = haltRing n.val j.ring.val 2 b)
    ∧ ((j.desc.haltOnError = false ∨ j.result.status.isResult = true ∨ j.desc.isKnot = false ∨ (b.ring n.val j.ring.val).halted = true) → haltOrCount n.val j b = countIrq n.val j b)
    ∧ ((j.desc.irq && q.irqCtrl.getLsbD 0) = false → countIrq n.val j b = b)
    ∧ ((j.desc.irq && q.irqCtrl.getLsbD 0) = true → ¬ due → countIrq n.val j b
        = modStall n.val (fun q => { q with irqPending := q.irqPending + 1
                                            irqSince := if q.irqPending = 0 then some b.now else q.irqSince }) b)
    ∧ ((j.desc.irq && q.irqCtrl.getLsbD 0) = true → due → (countIrq n.val j b).still = sent b ∧ Offered (countIrq n.val j b) .rp msg)
    ∧ (b.boot.ready = true → holding b 0 = false →
        (∀ t0, q.irqSince = some t0 → q.irqPending ≠ 0 → ∃ t, Gives (.irqTimerExpiry n) s t ∧ Offered t .rp msg
          ∧ t.still = sent { b with now := max b.now (t0 + q.irqTime) })
        ∧ (q.irqPending = 0 → Gives (.irqTimerExpiry n) s b))

/-- NOP and KNOT end with DONE without an engine or a key, a knot once the earlier jobs it orders after have completed. A job whose last data write
is acknowledged ends with the status it drained with, its occupancy correcting the charges of the round robin and of the urgent budgets; one
with writes outstanding, output left for its chute or an error that a hold keeps back, or whose engine's island holds, does not end
(R13, R27, R89, R110, R111, R122, R243, R362, R364). -/
def Obligations.JobsEndWhenTheirWorkIsDone : Prop :=
  ∀ (s : State) (i : JobId) (occ : Nat) (j : Job), let b := s.blk
    b.boot.ready = true → holding b 0 = false → b.job i.val = some j →
    (j.stage = .waiting → (j.desc.op = 0x00 → (mayProceed b j = true → Gives (.nop i) s (endJob i.val .done b))
          ∧ (mayProceed b j = false → Gives (.nop i) s b))
        ∧ (j.desc.op = 0x01 → (mayProceed b j = true → Gives (.knot i) s (endJob i.val .done b)) ∧ (mayProceed b j = false → Gives (.knot i) s b)))
    ∧ (j.stage = .draining → j.outRest = [] → dataWrites b i.val = 0 → j.errDue = none → engineHeld b j = false → ∀ e, opClass j.desc.op = some e →
      ∃ c : Block, Gives (.engineEndReport i occ) s (endJob i.val j.result.status c)
        ∧ c.deficit.get (deficitKey (classNum e) j.eff j.stall.val)
            = b.deficit.get (deficitKey (classNum e) j.eff j.stall.val) + ((j.estCost : Int) - occ)
        ∧ (let r := (refill j.stall.val b).stall j.stall.val
           c.stall j.stall.val = if j.eff = 0 ∧ classNum e < 3 ∧ j.ring = 0 then
             { r with tokens := tokAdd r.tokens (classNum e) (100 * ((j.charged : Int) - occ)) } else r)
        ∧ (∀ k, k ≠ j.stall.val → c.stall k = b.stall k) ∧ c.jobs = b.jobs ∧ c.lanes = b.lanes)
    ∧ (j.stage ≠ .draining ∨ j.outRest ≠ [] ∨ dataWrites b i.val ≠ 0 ∨ j.errDue ≠ none ∨ engineHeld b j = true → Gives (.engineEndReport i occ) s b)

/-! ## Mailboxes and command sheets (R376 to R398) -/

/-- A tag written to a free inbound half is taken with its sender and time; one from a requester the binding shuts out, or into a full half, is
dropped, raises MBOX_DROPPED and sets DROPPED; either wakes Nartia. A read of OUT_TAG acknowledges the outbound half. A write of 1 to PAIR_RESET empties the host
side and silences the pair's commands. A misaligned or partial access, and any before the end of step 4, does nothing but end a sleep. Every
write is answered with 0. Without a credit no access of a management port is made; while the port islands hold one spends its credit and waits in
their FIFO, to be handled after the hold as it would have been without (R13, R18, R370, R379, R381, R383, R388, R527, R539). When a credit comes back, and that a window write of one entry takes all it
needs at once, is the model's reading (log entry 103). -/
def Obligations.MailboxRegisterAccesses : Prop :=
  (∀ (s : State) (c : Instr) (x : Sender) (n : Nat), let b := s.blk
    ((n = 1 ∧ ((∃ p tag whole, c = .inTagWrite p tag x whole) ∨ (∃ p whole, c = .outTagRead p x whole) ∨ (∃ p whole, c = .pairReset p x whole)
          ∨ (∃ v whole, c = .odCtrlRead v x whole) ∨ (∃ v whole, c = .odCtrlWrite v x whole) ∨ (∃ l whole, c = .latchAcquire l x whole)
          ∨ (∃ l v whole, c = .latchFree l v x whole) ∨ (∃ off v whole, c = .registerWrite off v x whole)))
        ∨ (n = 3 ∧ ((∃ v, c = .ltArmSet v x) ∨ (∃ v, c = .ltRespSet v x) ∨ (∃ k how, c = .srcRetireBurn k x how)))
        ∨ (∃ i sub d how, c = .fzWrite i sub d x how ∧ (fzField i.toNat sub.toNat).isSome = true ∧ n = 2 + (d.length + 3) / 4)) →
      (mpCredits b x.port = 0 → Gives c s b)
      ∧ (mpCredits b x.port ≠ 0 → holding b 22 = true →
          Gives c s { setCredits x.port (mpCredits b x.port - n) b with mpFifo := b.mpFifo ++ [c] })
      ∧ (n = 1 → mpCredits b x.port ≠ 0 → holding b 22 = false → Gives c s (handleMp c b)))
  ∧ ∀ (s : State) (p : MboxId) (tag : BitVec 32) (x : Sender) (whole : Bool), let b := s.blk
    mpCredits b x.port ≠ 0 → holding b 22 = false →
    let m := b.pair p.val
    let drop := withEvent evMboxDropped (toLe 1 p.val)
    let put := fun (b : Block) (v : BitVec 32) => modYm (fun y => if x.port = .a then { y with rdataA := v } else { y with rdataB := v }) b
    let w := put (wake b) 0
    ((windowsOpen b && whole) = false → Gives (.inTagWrite p tag x whole) s w ∧ Gives (.outTagRead p x whole) s w
        ∧ Gives (.pairReset p x whole) s w)
    ∧ ((windowsOpen b && whole) = true →
        (boundOut m x = false → m.inFull = false → Gives (.inTagWrite p tag x whole) s
          (modPair p.val (fun m => { m with
            inTag := tag, inSince := b.now, reqId := x.rid, inPort := x.port, inPriv := x.priv, dropped := false, inFull := true })
            (modYm (fun y => { y with gated := false }) w)))
        ∧ (boundOut m x = true ∨ m.inFull = true → Gives (.inTagWrite p tag x whole) s
          (drop (modPair p.val (fun m => { m with dropped := true }) (modYm (fun y => { y with gated := false }) w))))
        ∧ (boundOut m x = true → Gives (.outTagRead p x whole) s (drop w) ∧ Gives (.pairReset p x whole) s (drop w))
        ∧ (boundOut m x = false → Gives (.outTagRead p x whole) s
            (put (modPair p.val (fun m => { m with outFull := false, stale := false }) (wake b)) m.outTag))
        ∧ (boundOut m x = false → Gives (.pairReset p x whole) s
            (modYm (fun y => { y with cmds := y.cmds.map fun e => (e.1, if e.2.pair.val == p.val then { e.2 with silent := true } else e.2)
                                      unwritten := y.unwritten.filter fun e => e.2.pair.val != p.val })
              (modPair p.val (fun m => { m with inFull := false, outFull := false, note := 0, stale := false, queue := [] }) w))))

/-- Nartia takes in a notice while fewer than four commands and notices of the pair are in hand: an aligned sheet's first 64 bytes are read, any
other gets a notice with NOTE 2. It posts a queued notice when the outbound half is free; one that has waited 10 ms makes the pair STALE,
discards the queue and raises HOST_UNRESPONSIVE (R382 to R384, R390, R393, R397). -/
def Obligations.NoticesAreTakenAndPosted : Prop :=
  ∀ (s : State) (p : MboxId), let b := s.blk
    let m := b.pair p.val
    b.boot.ready = true → holding b 20 = false →
    (b.ym.gated = false → m.inFull = true → (pairCmds b p.val).length + m.queue.length < 4 →
      let b1 := modPair p.val (fun m => { m with inFull := false }) b
      (m.inPtr.toNat % 64 ≠ 0 → Gives (.noticeReceive p) s
        (queueNotice p.val b.ym.nextCmd m.inPtr m.inTag 2 (modYm (fun y => { y with nextCmd := b.ym.nextCmd + 1 }) b1)))
      ∧ (m.inPtr.toNat % 64 = 0 → Sends (.noticeReceive p) s (modYm (fun y => { y with
            nextCmd := b.ym.nextCmd + 1
            cmds := y.cmds ++ [(b.ym.nextCmd, { pair := Fin.ofNat 8 p.val, tag := m.inTag, sheetAddr := m.inPtr, since := m.inSince
                                                sender := { rid := m.reqId, priv := m.inPriv, port := m.inPort }
                                                sheet := { want := 64 } })] }) b1)
          .dp0 (readReqs (.sheet b.ym.nextCmd) { pid := 0, stall := 0, priv := true } 1 40 (pieces m.inPtr 0 64))))
    ∧ (m.inFull = false ∨ 4 ≤ (pairCmds b p.val).length + m.queue.length → Gives (.noticeReceive p) s b)
    ∧ (∀ id a t k l, m.queue = (id, a, t, k) :: l → m.outFull = false → m.stale = false → Gives (.noticePost p) s (forgetUnwritten (fun e => e.1 == id) (modPair p.val (fun m => { m with
        queue := l, outPtr := a, outTag := t, note := k, outFull := true, outSince := b.now }) b)))
    ∧ (m.outFull = true → Gives (.noticePost p) s b)
    ∧ (m.outFull = true → m.stale = false → Gives (.hostUnresponsive p) s (withEvent evHostUnresponsive (toLe 1 p.val)
        (forgetUnwritten (fun e => e.2.pair.val == p.val)
          (modPair p.val (fun m => { m with stale := true, queue := [] }) { b with now := max b.now (m.outSince + 10000) }))))
    ∧ (m.outFull = false → Gives (.hostUnresponsive p) s b)

/-- A command that ends has its result recorded and its payload, or with none its header, written to the result area; nothing else changes but
the end of an undated gate session, whose duration counts from the result write of the command that opened it. When the header is acknowledged the
command is gone and its notice is queued, unless its pair was reset (R386, R388, R391, R392, R434). -/
def Obligations.EndedCommandsReport : Prop :=
  ∀ (b : Block) (id : Nat) (c : Cmd) (r d : Nat) (pay : Bytes), b.cmd id = some c →
    let t := endCmd id r d pay b
    let head := toLe 2 r ++ toLe 2 d ++ toLe 4 c.seq ++ toLe 4 0 ++ toLe 4 (min (b.now - c.since) 0xFFFFFFFF)
    t.aside = (if pay = [] ∧ r = rcOk ∧ (c.op = 0x0404 ∨ c.op = 0x0405) ∧ b.ym.gate.undated = true then
        modGate (fun g => { g with undated := false, session := g.session.map fun x => (x.1, x.2.1, b.now + c.par 4 4 * 1000000) }) b else b).aside
    ∧ (∀ k, k ≠ id → t.cmd k = b.cmd k)
    ∧ (∃ x, t.cmd id = some x ∧ x.result = r ∧ x.detail = d ∧ x.payload = pay ∧ x.rlen = pay.length
        ∧ x.phase = (if pay = [] then 5 else 4) ∧ x.pair = c.pair ∧ x.sheet = c.sheet)
    ∧ (pay ≠ [] → ∀ q ∈ writeReqs (.payload id) { pid := 0, stall := 0, priv := true } 1 40 0 pay (pieces (c.resAddr + 16) 0 pay.length),
        Offered t .dp0 q)
    ∧ (pay = [] → ∀ q ∈ writeReqs (.header id) { pid := 0, stall := 0, priv := true } 1 40 0 head (pieces c.resAddr 0 16), Offered t .dp0 q)
    ∧ (c.aborted = false → c.silent = false → (b.pair c.pair.val).stale = false → headerDone id false b
        = dropCmd id (modPair c.pair.val (fun m => { m with queue := m.queue ++ [(id, c.sheetAddr, c.tag, 0)] }) b))
    ∧ (c.aborted = false → c.silent = true → headerDone id false b = dropCmd id b)

/-- The checks of a command come in the order of R395, and the first that fails decides its result, before any effect: privilege, gate, result area,
parameters, seal, supply hold, state, program. A command behind one of its group does not run. A command that waits through a hold,
or for `vfz`, ends after 50 ms (R395, R396, R398, R432, R549). -/
def Obligations.RefusedCommandsOnlyReport : Prop :=
  (∀ (b : Block) (id : Nat) (c : Cmd) (is : Cmd → Bool) (checks : Block → Cmd → Checks) (body : Nat → Cmd → Block → Block),
    b.cmd id = some c → is c = true → c.aborted = false → c.phase = 2 →
    let k := checks b c
    let run := runCmd is checks body id b
    (mayRun b id c = false → run = b)
    ∧ (mayRun b id c = true →
      (k.right ≠ .any → c.sender.priv = false → run = failCmd id rcNotPrivileged 0 b)
      ∧ (∀ g, k.right = .gate g → c.sender.priv = true → gatePasses b c.sender g = false → run = failCmd id rcGateRequired 0 b)
      ∧ (rightFails b c.sender k.right = none →
        (c.resLen < 16 + k.pay → run = spaceCmd id k.pay b)
        ∧ (16 + k.pay ≤ c.resLen →
          (∀ o, k.bad = some o → run = failCmd id rcBadParameter o b)
          ∧ (k.bad = none → k.seals = true → run = failCmd id rcSealed 0 b)
          ∧ (k.bad = none → k.seals = false → k.writes = true → anyHold b = true → k.waits = false → run = failCmd id rcSupplyHeld 0 b)
          ∧ (k.bad = none → k.seals = false → k.writes = true → anyHold b = true → k.waits = true →
              run = modCmd id (fun c => { c with waitSince := some (c.waitSince.getD b.now) }) b)
          ∧ (k.bad = none → k.seals = false → (k.writes && anyHold b) = false →
            (∀ d, k.state = some d → run = failCmd id rcWrongState d b)
            ∧ (k.state = none → k.program = true → b.pack.ready = false → run = failCmd id rcNoProgram 0 b))))))
  ∧ (∀ (s : State) (id : Nat) (c : Cmd), let b := s.blk
    b.boot.ready = true → b.cmd id = some c →
    (c.waitSince = none → Gives (.writeWaitAllowanceExpiry id) s b)
    ∧ (∀ t0, c.waitSince = some t0 →
      let late := { b with now := max b.now (t0 + 50000) }
      (c.phase = 2 ∨ (c.phase = 3 ∧ c.op ∈ [0x0202, 0x0205, 0x0206]) → anyHold b = true →
        Gives (.writeWaitAllowanceExpiry id) s (failCmd id rcSupplyHeld 0 late))
      ∧ (c.phase = 3 → b.boot.vfz = false → c.op = 0x0402 → Gives (.writeWaitAllowanceExpiry id) s (failCmd id rcForgeFailed 0 late))
      ∧ (c.phase = 3 → b.boot.vfz = false → c.op = 0x0401 → Gives (.writeWaitAllowanceExpiry id) s (failCmd id rcCheckFailed 6 late))
      ∧ (c.phase = 3 → b.boot.vfz = false → c.op = 0x0502 →
          Gives (.writeWaitAllowanceExpiry id) s (failCmd id rcFuseFailed 0 late))))

/-! ## Stall commands (R29 to R40, R140 to R142, R399) -/

/-- STALL_CREATE gives the lowest FREE stall, or the one named, its defaults and QUIESCED; STALL_BIND checks the rings and binds a process
identifier; STALL_RESUME clears the halts, makes the stall ACTIVE and wakes the block; STALL_RESET zeroes indices and halts; STALL_DESTROY frees it under
a new tenancy; a quiesce of a BOUND stall is done at once, of a running one when nothing is in flight, and a hard one aborts every
dispatched job (R30, R31, R33, R38, R39, R140, R141, R184, R370). -/
def Obligations.StallCommandsMoveStalls : Prop :=
  ∀ (s : State) (id : Nat) (c : Cmd), let b := s.blk
    let n := c.par 0 2
    let g := commenced id b
    let q := b.stall n
    (Turn s id c 0x0101 → Passes b c (createChecks b c) → n < 512 → Gives (.stallCreate id) s (okCmd id (toLe 2 n) (createStall n g)))
    ∧ (Turn s id c 0x0101 → Passes b c (createChecks b c) → 512 ≤ n →
        (∀ m, lowestFree g = some m → Gives (.stallCreate id) s (okCmd id (toLe 2 m) (createStall m g)))
        ∧ (lowestFree g = none → Gives (.stallCreate id) s (failCmd id rcNoSlot 0 g)))
    ∧ (Turn s id c 0x0102 → Passes b c (bindChecks b c) →
        (bindFails q = none → Gives (.stallBind id) s
          (okCmd id [] (modStall n (fun x => { x with state := .bound, pid := some (BitVec.ofNat 20 (c.par 4 4)) }) g)))
        ∧ (∀ k, bindFails q = some k → Gives (.stallBind id) s (failCmd id rcCheckFailed k g)))
    ∧ (Turn s id c 0x0104 → Passes b c (resumeChecks b c) → (q.state = .quiesced → bindFails q = none) →
        Gives (.stallResume id) s (okCmd id [] (wake (modStall n (fun x => { clearHalts x with
          state := .active, wasActive := some (x.cqBase, x.cqK) }) g))))
    ∧ (Turn s id c 0x0105 → Passes b c (quiescedChecks false b c) → Gives (.stallReset id) s (okCmd id [] (resetStall n g)))
    ∧ (Turn s id c 0x0106 → Passes b c (quiescedChecks true b c) → Gives (.stallDestroy id) s (okCmd id [] (destroyStall n g)))
    ∧ (Turn s id c 0x0103 → Passes b c (quiesceChecks b c) → c.step = 0 →
        (c.par 2 1 = 0 → q.inFlight ≠ 0 → q.state ≠ .bound → Gives (.stallQuiesceSoft id) s
          (cmdStep id 1 (modStall n (fun x => { x with state := .quiescing }) g)))
        ∧ (c.par 2 1 = 0 → (q.state = .bound ∨ q.inFlight = 0) → Gives (.stallQuiesceSoft id) s
          (okCmd id [] (cmdStep id 1 (modStall n (fun x => { x with state := .quiesced }) g))))
        ∧ (c.par 2 1 = 1 → q.inFlight ≠ 0 → q.state ≠ .bound →
          let d := cmdStep id 1 (abortJobs n (modStall n (fun x => { x with state := .quiescing }) g))
          ((d.stall n).state ≠ .quiesced → Gives (.stallQuiesceHard id) s d)
          ∧ ((d.stall n).state = .quiesced → Gives (.stallQuiesceHard id) s (okCmd id [] d))))
    ∧ (Going s id c 0x0103 → c.step = 1 → q.state = .quiesced →
        (c.par 2 1 = 0 → Gives (.stallQuiesceSoft id) s (okCmd id [] b)) ∧ (c.par 2 1 = 1 → Gives (.stallQuiesceHard id) s (okCmd id [] b)))
    ∧ (∀ m, ((createStall m b).stall m).state = .quiesced ∧ ((createStall m b).stall m).pid = none ∧ (∀ r, (createStall m b).ring m r = {})
        ∧ ((destroyStall m b).stall m).state = .free ∧ ((destroyStall m b).stall m).pid = none
        ∧ ((destroyStall m b).sk m).tenancyGen = (b.sk m).tenancyGen + 1
        ∧ ((resetStall m b).stall m).cqProd = 0 ∧ ((resetStall m b).stall m).cqCons = 0 ∧ ((resetStall m b).stall m).cqHalted = false
        ∧ ((resetStall m b).stall m).haltCause = 0
        ∧ (∀ r : RingId, (resetStall m b).ring m r.val = { base := (b.ring m r.val).base, k := (b.ring m r.val).k }))

/-! ## Key commands (R169, R179 to R195, R400 to R403) -/

/-- KEY_IMPORT_CLEAR and KEY_GENERATE take slots, evicting where they must, and install the key with its public part, once there is randomness
for its mask and, for a key pair, a core to compute that part; material that fails its checks is refused and nothing is evicted for it. INSTALL and DESTROY read their message in FIELD only, advance cell 1, and make the change
and write the new image once the studbook has answered, as KEY_DESTROY of a stall key and the custodian commands do; KEY_DESTROY of a
working key zeroes its slots at once. A restored image is loaded when it opens under the image key, in FIELD alone, is of this part, and its counter is the current one or the one
before.
KEY_ATTEST writes its statement (R169, R180, R182 to R185, R187, R189, R191, R194, R314). The model's choices: what waits for the entropy
island (log entry 33), that a restore of the current image ends a replay (63), and the image sealed after the system slots were emptied (114). -/
def Obligations.KeyCommandsChangeTheTackRoom : Prop :=
  ∀ (s : State) (id : Nat) (c : Cmd), let b := s.blk
    let g := commenced id b
    let room := takeSlots (if newGlobal c then none else some ((newOwner c).toNat % 512))
      (ceilDiv ((materialLen b (newAlg c) (newSize c)).getD 0) 64) true (if newTarget c == 0xFFFF then none else some (newTarget c)) g
    let named := fun (t : Block) (k : Nat) => toLe 4 (handleOf t k) ++ toLe 4 (t.slot k).gen.toNat
    let own := slice c.params 64 (c.par 52 2)
    (Turn s id c 0x0201 → Passes b c (newChecks true b c) →
      (room = none → Gives (.keyImportClear id) s (failCmd id rcNoSlot 0 g))
      ∧ (∀ l b1, room = some (l, b1) →
        (materialOk b (newAlg c) (newSize c) own = false → Gives (.keyImportClear id) s (failCmd id rcKeyRefused 0 g))
        ∧ (materialOk b (newAlg c) (newSize c) own = true → newWaits b c = true → Gives (.keyImportClear id) s g)
        ∧ (materialOk b (newAlg c) (newSize c) own = true → newWaits b c = false →
          let t := writeKey (newSlot true b1 c) (wholeMaterial b1 (newAlg c) (newSize c) own) l b1
          Gives (.keyImportClear id) s (okCmd id (named t (l.headD 0)) t))))
    ∧ (Turn s id c 0x0203 → Passes b c (newChecks false b c) →
      (room = none → Gives (.keyGenerate id) s (failCmd id rcNoSlot 0 g))
      ∧ (∀ l b1, room = some (l, b1) →
        let m := genMaterial b1 (newAlg c) (newSize c)
        (newWaits b c = true → Gives (.keyGenerate id) s g)
        ∧ (newWaits b c = false → materialOk b (newAlg c) (newSize c) m = false → Gives (.keyGenerate id) s (drew g))
        ∧ (newWaits b c = false → materialOk b (newAlg c) (newSize c) m = true →
          let t := writeKey (newSlot false b1 c) (wholeMaterial b1 (newAlg c) (newSize c) m) l (drew b1)
          Gives (.keyGenerate id) s (okCmd id (named t (l.headD 0)) t))))
    ∧ (Turn s id c 0x0202 → Passes b c (updChecks b c) → c.par 0 1 = 0 → c.step = 0 →
        (b.lc ≠ 2 → Gives (.install id) s (failCmd id rcCheckFailed 1 g))
        ∧ (b.lc = 2 → updLen c ≠ 0 → Sends (.install id) s
            (modCmd id (fun c => { c with step := 1, input := { want := min (updLen c) 17872 } }) g) .dp0
            (readReqs (.input id) ymIdent 1 40 (pieces (updIn c) 0 (min (updLen c) 17872)))))
    ∧ (∀ cmd, (cmd = .install id ∧ c.op = 0x0202 ∧ c.par 0 1 ≠ 1 ∧ field c.input.bytes 5 1 ≠ 2)
          ∨ (cmd = .destroy id ∧ c.op = 0x0202 ∧ c.par 0 1 ≠ 1 ∧ field c.input.bytes 5 1 = 2) ∨ (cmd = .keyDestroy id ∧ c.op = 0x0205)
          ∨ (cmd = .custodianEnroll id ∧ c.op = 0x0206 ∧ c.par 1 1 ≠ 2) ∨ (cmd = .custodianClear id ∧ c.op = 0x0206 ∧ c.par 1 1 = 2) →
        Going s id c c.op →
        let d := useClassC (applyChange c b)
        (c.step = 3 → c.sb = 2 → noEntropy b = true → Gives cmd s b)
        ∧ (c.step = 3 → c.sb = 2 → anyHold b = true → noEntropy b = false →
            Gives cmd s (modCmd id (fun c => { c with waitSince := some (c.waitSince.getD b.now) }) b))
        ∧ (c.step = 3 → c.sb = 2 → anyHold b = false → noEntropy b = false → Sends cmd s (cmdStep id 4 (drew d)) .dp0
            (writeReqs (.image id) ymIdent 1 40 0 (imageOf d) (pieces (imageAddr c) 0 (imageOf d).length)))
        ∧ (c.step = 3 → c.sb = 3 → Gives cmd s (failCmd id rcStudbookFailed 0 b))
        ∧ (c.step = 4 → ownPending (fun o => o == .image id) b = 0 → Gives cmd s (okCmd id (updPay b c (c.note == 0)) b)))
    ∧ (Turn s id c 0x0205 → Passes b c (destroyChecks b c) → c.step = 0 →
        (∀ i, workingOf b (c.par 0 4) = some i → Gives (.keyDestroy id) s (okCmd id (updPay (dropKey i g) c false) (dropKey i g)))
        ∧ (workingOf b (c.par 0 4) = none → b.tack.counterKnown = true → b.tack.replay = false →
            Gives (.keyDestroy id) s (cmdAsk id 1 1 1 3 g)))
    ∧ (Going s id c 0x0202 → c.par 0 1 = 1 → c.step = 1 → c.input.err = false → c.input.full = true → b.tack.counterKnown = true →
        let u := useSys 1 b
        let x := c.input.bytes
        let n := field x 8 8
        let now := u.tack.updateCounter
        (u.lc ≠ 2 ∨ barnHeld u = false ∨ imageKey u = [] ∨ (u.tack.sys.get 1).bad = true → imageOpens u x = none)
        ∧ (u.lc = 2 → barnHeld u = true → imageKey u ≠ [] → (u.tack.sys.get 1).bad = false →
            imageOpens u x = Config.gcmOpen (imageKey u) (slice x 32 12) (x.take 64) (x.drop 64))
        ∧ (∀ pt, imageOpens u x = some pt → slice x 16 16 ≠ serialOf u → Gives (.tackRoomImageRestore id) s (failCmd id rcCheckFailed 17 u))
        ∧ (∀ pt, imageOpens u x = some pt → slice x 16 16 = serialOf u →
          (n = now ∨ n + 1 = now → anyHold u = false →
            let t := modTack (fun t => { t with replay := n != now }) (loadImage pt u)
            Gives (.tackRoomImageRestore id) s (okCmd id (updPay t c false) t))
          ∧ (n ≠ now → n + 1 ≠ now → Gives (.tackRoomImageRestore id) s (failCmd id rcCheckFailed 18 u)))
        ∧ (imageOpens u x = none →
            Gives (.tackRoomImageRestore id) s (failCmd id rcCheckFailed 16 u)))
    ∧ (Turn s id c 0x0204 → Passes b c (attestChecks b c) → c.step = 0 → noEntropy b = true → Gives (.keyAttest id) s g)
    ∧ (∀ x, Turn s id c 0x0204 → Passes b c (attestChecks b c) → c.step = 0 → noEntropy b = false →
        let u := useAttested (c.par 0 4) g
        attestSubject u (c.par 0 4) = some x →
        let st := statement u c x
        (c.par 16 4 < st.length → Gives (.keyAttest id) s (spaceCmd id st.length u))
        ∧ (st.length ≤ c.par 16 4 → Sends (.keyAttest id) s (modCmd id (fun c => { c with step := 1, keep := toLe 4 st.length }) (drew (drew u))) .dp0
            (writeReqs (.image id) ymIdent 1 40 0 st (pieces (BitVec.ofNat 64 (c.par 8 8)) 0 st.length))))
    ∧ (Going s id c 0x0204 → c.step = 1 → ownPending (fun o => o == .image id) b = 0 → c.note = 0 → Gives (.keyAttest id) s (okCmd id c.keep b))

/-- The changes themselves, once the barn key's own tag has been checked, a check that leaves everything as it is where that tag is right: an
INSTALL message gives its stall's slot the decapsulated key under a new generation, a DESTROY message or KEY_DESTROY zeroes it, and a
custodian slot takes the fingerprint of the enrolled keys or is cleared, BAD as before; the replay is over (R163, R183 to R185, R187, R189). -/
def Obligations.StallKeysChangeUnderANewGeneration : Prop :=
  ∀ (b0 : Block) (c : Cmd), let t := applyChange c b0
    let b := checkSys 0 b0
    let m := c.input.bytes
    ((b0.tack.sys.get 0).bad = true ∨ sysTagOk b0 0 = true → b = b0)
    ∧ t.tack.replay = false ∧ t.tack.updateCounter = b.tack.updateCounter ∧ t.tack.slots = b.tack.slots
    ∧ (c.op = 0x0202 → field m 5 1 = 1 → ∀ k, msgKey b m = some k →
        (t.sk (field m 6 2)).material = k ∧ (t.sk (field m 6 2)).state = 1 ∧ (t.sk (field m 6 2)).fp = skFp k
          ∧ (t.sk (field m 6 2)).keyGen = (b.sk (field m 6 2)).keyGen + 1 ∧ skUsable t (field m 6 2) = true
          ∧ ∀ n, n ≠ field m 6 2 → t.sk n = b.sk n)
    ∧ (∀ i, (c.op = 0x0202 ∧ field m 5 1 ≠ 1 ∧ i = field m 6 2) ∨ (c.op = 0x0205 ∧ i = c.par 0 4 % 512) →
        (t.sk i).material = zeros 32 ∧ (t.sk i).state = 0 ∧ (t.sk i).keyGen = (b.sk i).keyGen + 1 ∧ skUsable t i = false
          ∧ ∀ n, n ≠ i → t.sk n = b.sk n)
    ∧ (c.op = 0x0206 → t.tack.stallKeys = b.tack.stallKeys ∧ (∀ k, k ≠ 5 + c.par 0 1 → t.tack.sys.get k = b.tack.sys.get k)
        ∧ (t.tack.sys.get (5 + c.par 0 1)).bad = (b.tack.sys.get (5 + c.par 0 1)).bad
        ∧ (c.par 1 1 = 1 → (t.tack.sys.get (5 + c.par 0 1)).content = sha3 (slice c.params 16 160))
        ∧ (c.par 1 1 ≠ 1 → (t.tack.sys.get (5 + c.par 0 1)).content = []))

/-! ## Packs, curves, life cycle and roots (R147, R151, R152, R299 to R302, R324 to R327, R404, R406) -/

/-- CURVE_LOAD reads a record, takes the next free core for its checks, and loads it when every check of R325 passes, else names the first that
fails; CURVE_UNLOAD empties the slot once no admitted job names it. PACK_LOAD takes the lowest core in service for the seed program once no core
runs or reloads, refuses a pack whose signatures fail, and installs one whose version is not below the floor, first advancing cell 3 where the
pack asks for it; from the clearing of the seed program to its end the cores hold no microcode. A core taken is given back with what ran on it,
and taken again when its island was reset meanwhile (R299 to R302, R325 to R327, R330, R404). That both wait while no core is free, and take
one anew after such a reset, is the model's choice (log entries 34 and 81), as is what a reset leaves of the two (77). -/
def Obligations.CurvesAndPacksAreLoadedWhole : Prop :=
  ∀ (s : State) (id : Nat) (c : Cmd) (t : Take), let b := s.blk
    let g := commenced id b
    let n := c.par 0 1
    let r := c.input.bytes
    let code := slice r 256 (ucodeLen r)
    let inst := fun b1 : Block => okCmd id (toLe 4 (packVer r) ++ toLe 4 b1.floor) { b1 with
      pack := { ready := true, version := packVer r, ops := BitVec.ofNat 32 (field r 16 4), microcode := code }
      cores := (List.range 8).foldl (fun t k => t.mod k fun x => if x.inService then { x with microcode := code } else x) b1.cores }
    let core := c.note - 1
    let back := modCore core (fun x => { x with state := 0 }) b
    let taken := fun k step : Nat => modCmd id (fun c => { c with step, note := k + 1 }) (modCore k (fun x => { x with state := 3 }) b)
    let cleared : Block := { b with ym := { b.ym with unwritten := b.ym.unwritten.map fun e => (e.1, if e.2.op = 0x0303 then { e.2 with step := 7 } else e.2) }, cores := (List.range 8).foldl (fun t k => t.mod k fun x => if x.inService then { x with microcode := [] } else x) b.cores }
    (Turn s id c 0x0301 → Passes b c (curveChecksOf b c) → c.step = 0 → Sends (.curveLoad id) s
        (modCmd id (fun c => { c with step := 1, input := { want := 448 } }) g) .dp0
        (readReqs (.input id) ymIdent 1 40 (pieces (BitVec.ofNat 64 (c.par 8 8)) 0 448)))
    ∧ (Going s id c 0x0301 → c.step = 1 → c.input.err = false → c.input.full = true →
        let meets := (List.range 32).any fun k => (b.curves.get k).state != 0 && (b.curves.get k).fp.take 2 == (sha3 r).take 2
        (meets = true → Gives (.curveLoad id) s (failCmd id rcWrongState 0x0101 b))
        ∧ (meets = false → freeCore b = none → Gives (.curveLoad id) s b)
        ∧ (∀ k, meets = false → freeCore b = some k → Gives (.curveLoad id) s (taken k 2)))
    ∧ (Going s id c 0x0301 → c.step = 2 →
        ((b.cores.get core).state ≠ 3 → Gives (.curveLoad id) s (cmdStep id 1 b))
        ∧ ((b.cores.get core).state = 3 → holding b (11 + core) = true → Gives (.curveLoad id) s b)
        ∧ ((b.cores.get core).state = 3 → holding b (11 + core) = false →
          (curveFails r = none → Gives (.curveLoad id) s
            (okCmd id ((sha3 r).take 2 ++ zeros 14 ++ sha3 r) (modCurve n (fun _ => { state := 1, record := r, fp := sha3 r }) back)))
          ∧ (∀ k, curveFails r = some k → Gives (.curveLoad id) s (failCmd id rcCheckFailed k back))))
    ∧ (Turn s id c 0x0302 → Passes b c (unloadChecks b c) →
        (slotInUse b n = false → Gives (.curveUnload id) s (okCmd id [] (modCurve n (fun _ => {}) g)))
        ∧ (slotInUse b n = true → Gives (.curveUnload id) s (cmdStep id 1 (modCurve n (fun x => { x with state := 2 }) g))))
    ∧ (Going s id c 0x0302 → slotInUse b n = false → Gives (.curveUnload id) s (okCmd id [] (modCurve n (fun _ => {}) b)))
    ∧ (Turn s id c 0x0303 → Passes b c (packChecks b c) → c.step = 0 →
        (b.lc = 4 ∨ b.sensed.packKeyHash = none → Gives (.packLoad id t) s (failCmd id rcPackRefused 0 g))
        ∧ (b.lc ≠ 4 → b.sensed.packKeyHash ≠ none → packLen c ≠ 0 → Sends (.packLoad id t) s
            (modCmd id (fun c => { c with step := 1, input := { want := min (packLen c) 49536 } }) g) .dp0
            (readReqs (.input id) ymIdent 1 40 (pieces (BitVec.ofNat 64 (c.par 8 8)) 0 (min (packLen c) 49536)))))
    ∧ (Going s id c 0x0303 → c.step = 2 →
        (seedCore b = none → Gives (.packLoad id t) s b) ∧ (∀ k, seedCore b = some k → Gives (.packLoad id t) s (taken k 5)))
    ∧ (Going s id c 0x0303 → c.step = 5 →
        ((b.cores.get core).state ≠ 3 → Gives (.packLoad id t) s (cmdStep id 2 b))
        ∧ ((b.cores.get core).state = 3 → holding b (11 + core) = true → Gives (.packLoad id t) s b))
    ∧ (Going s id c 0x0303 → c.step = 5 → (b.cores.get core).state = 3 → holding b (11 + core) = false → HasEntropy b →
        let msg := r.take (256 + ucodeLen r)
        let p384 := p384Verifies (slice r 64 96) msg (slice r (256 + ucodeLen r) 96)
        let lms := lmsVerifies (slice r 160 64) msg (slice r (352 + ucodeLen r) (packLms r))
        let refuse := fun (k : Nat) (b : Block) => failCmd id k 0 { b with pack := { b.pack with withheld := false } }
        (t = .split → Gives (.packLoad id t) s (refuse rcSplit (withEvent evDecisionSplit [] back)))
        ∧ (t = .cut → Gives (.packLoad id t) s (refuse rcPackRefused back))
        ∧ (t = .agree → p384 = false → Gives (.packLoad id t) s (refuse rcPackP384 back))
        ∧ (t = .agree → p384 = true → lms = false → Gives (.packLoad id t) s (refuse rcPackLms back))
        ∧ (t = .agree → p384 = true → lms = true → Gives (.packLoad id t) s (cmdAsk id 0 3 0 3 back)))
    ∧ (Going s id c 0x0303 → c.step = 3 → c.sb = 2 → HasEntropy b → t = .agree →
        (packVer r < b.floor → Gives (.packLoad id t) s (failCmd id rcPackRollback 0 { b with pack := { b.pack with withheld := false } }))
        ∧ (b.floor < packVer r → field r 22 1 = 1 → Gives (.packLoad id t) s (cmdAsk id 2 3 (packVer r) 4 b))
        ∧ (b.floor ≤ packVer r → (field r 22 1 ≠ 1 ∨ b.floor = packVer r) → Gives (.packLoad id t) s (cmdStep id 6 cleared)))
    ∧ (Going s id c 0x0303 → c.step = 4 → c.sb = 2 → Gives (.packLoad id t) s (cmdStep id 6 cleared))
    ∧ (Going s id c 0x0303 → c.step = 6 → Gives (.packLoad id t) s (inst b))

/-- A transition burns the eight copies of its life-cycle group, zeroes every key slot and makes a warm reset due; FORGE_ROOTS burns roots drawn
from the DRBG and derives the system keys unless the scan ports have been used. A burn that reads back wrong ends with its failure code,
and one that loses `vfz` waits (R145, R147, R151, R152, R406, R549). -/
def Obligations.LifeCycleBurnsAreIrreversible : Prop :=
  ∀ (s : State) (id : Nat) (c : Cmd), let b := s.blk
    let g := commenced id b
    c.step = 0 → burnReady b = true →
    (Turn s id c 0x0401 → Passes b c (lifecycleChecks b c) → b.boot.warmDue = false →
      (∀ k, transitionLacks b (c.par 0 1) = some k → Gives (.lifecycleAdvance id .good) s (failCmd id rcCheckFailed k g))
      ∧ (transitionLacks b (c.par 0 1) = none →
        let f : Fin 4 := Fin.ofNat 4 (c.par 0 1 - 1)
        let d := cmdStep id 1 g
        let burnt : FuseArray := { s.fuse with lcGroups := s.fuse.lcGroups ||| BitVec.ofNat 32 (0xFF * 2 ^ (8 * f.val)) }
        let z : Sensed := { b.sensed with spent := .lcGroup f :: b.sensed.spent }
        exec (.lifecycleAdvance id .good) s = .next { s with
            fuse := burnt
            blk := okCmd id [] (modBoot (fun t => { t with warmDue := true }) (zeroSlots { d with sensed := { z with lc := (sense burnt).lc } })) }
        ∧ (∃ t, exec (.lifecycleAdvance id .bad) s = .next t ∧ t.blk = failCmd id rcFuseFailed 0 { freed d with sensed := z }
            ∧ s.fuse.lcGroups &&& t.fuse.lcGroups = s.fuse.lcGroups ∧ t.fuse = { s.fuse with lcGroups := t.fuse.lcGroups })
        ∧ (∃ t, exec (.lifecycleAdvance id .vfzLost) s = .next t ∧ t.blk.boot.vfz = false
            ∧ (∃ x, t.blk.cmd id = some x ∧ x.waitSince = some b.now ∧ x.phase = 3))))
    ∧ (Turn s id c 0x0402 → Passes b c (forgeChecks s b c) → b.boot.entropyPaused = false →
        let x := drbgNow b 128
        let d := drew (modCmd id (fun c => { c with step := 1, keep := x }) g)
        let burnt : FuseArray := { s.fuse with roots := s.fuse.roots ||| BitVec.ofNat 2048 (burnMask .roots x) }
        let z : Sensed := { b.sensed with spent := .roots :: b.sensed.spent }
        let done : Block := { d with sensed := { z with roots := (sense burnt).roots } }
        exec (.forgeRoots id .good) s = .next { s with
            fuse := burnt, blk := okCmd id [] (if b.boot.scanUsed then done else deriveSystem done) }
        ∧ (∃ t, exec (.forgeRoots id .bad) s = .next t ∧ t.blk = failCmd id rcForgeFailed 0 { freed d with sensed := z }))

/-! ## The gate (R432 to R440) -/

/-- A response or password is refused outright in a state without the gate, in a lockout and while another sender's session lasts; any other is
charged before it is examined, and only its success, with takes that agree, clears the count and opens the sender's session, whose duration
begins with the result write; a wrong one
is denied with the check that failed, takes that differ or that the entropy island failed between are refused, the first with an event, and
from three failures on starts a lockout. DEBUG in FIELD zeroes the keys before the port opens
(R407, R433, R434, R436 to R439, R489, R501). -/
def Obligations.GateCredentialsAreChargedFirst : Prop :=
  ∀ (s : State) (id : Nat) (c : Cmd) (pw : Bool) (t : Take), let b := s.blk
    let g := commenced id b
    let cmd : Instr := if pw then .gatePassword id t else .gateRespond id t .agree
    let op := if pw then 0x0405 else 0x0404
    let spent := fun b : Block => if pw then b else modGate (fun g => { g with challenge := none }) b
    let dated := fun (x : Cmd) (b : Block) => modGate (fun g => { g with undated := false, session := g.session.map fun y => (y.1, y.2.1, b.now + x.par 4 4 * 1000000) }) b
    let lock := fun b : Block => modGate (fun g => { g with
      lockoutEnd := if 3 ≤ g.fails then some (b.now + lockoutUs g.fails) else g.lockoutEnd }) b
    (Turn s id c op → Passes b c (if pw then passwordChecks b c else respondChecks b c) → c.step = 0 → b.ym.gate.known = true →
      (b.lc = 0 ∨ b.lc = 1 ∨ b.lc = 4 → Gives cmd s (failCmd id rcWrongState b.lc g))
      ∧ (b.lc = 2 ∨ b.lc = 3 →
        (lockedOut b = true → Gives cmd s (failCmd id rcGateLocked 0 g))
        ∧ (lockedOut b = false → otherHolds b c.sender = true → Gives cmd s (failCmd id rcWrongState 0x0100 g))
        ∧ (lockedOut b = false → otherHolds b c.sender = false → b.boot.entropyStopped = false → b.ym.gate.reread = false →
            b.ym.gate.fails ≠ 255 → Gives cmd s (cmdAsk id 1 2 1 2 g))))
    ∧ (Going s id c op → c.step = 2 → c.sb = 2 → HasEntropy b →
      let d := cmdStep id 3 (setGateCell c.sbVal b)
      let no := if pw then passwordFails b c else respondFails b c
      (t = .split → Gives cmd s (failCmd id rcSplit 0 (lock (withEvent evDecisionSplit [] (spent d)))))
      ∧ (t = .cut → Gives cmd s (failCmd id rcSplit 0 (lock (spent d))))
      ∧ (t = .agree → ∀ k, no = some k → Gives cmd s (failCmd id rcGateDenied k (lock (spent d))))
      ∧ (t = .agree → no = none → Gives cmd s (cmdAsk id 2 2 ((c.sbVal / 256 + 1) * 256) 4 (spent d))))
    ∧ (Going s id c op → c.step = 4 → c.sb = 2 →
      let d := modGate (fun g => { g with session := some (c.sender, scopeOf c, b.now + c.par 4 4 * 1000000), undated := true, port := false }) (setGateCell c.sbVal b)
      ((scopeOf c).getLsbD 4 = false ∨ b.lc ≠ 2 → GivesClosing cmd s (okCmd id (toLe 4 (c.par 4 4)) d))
      ∧ ((scopeOf c).getLsbD 4 = true → b.lc = 2 → noEntropy b = false → Gives cmd s
          (okCmd id (toLe 4 (c.par 4 4)) (modGate (fun g => { g with port := true }) (withEvent evDebugOpened [] (zeroKeys d))))))
    ∧ (∀ x : Cmd, b.cmd id = some x → x.op = op → x.result = rcOk → b.ym.gate.undated = true →
        writeHeader id b = dated x (ymWrite (.header id) x.resAddr (resultHeader b x) (modCmd id (fun c => { c with phase := 5 }) b)))

/-- GATE_CHALLENGE draws and keeps a fresh challenge in place of the last; GATE_CLOSE ends the holder's own session and no other's; a session, a
challenge and a lockout end when their time has come, a session not before its duration has begun, and a failed read of cell 2 is tried again at the end of the lockout it began. The end
of a session that held the test port open in FIELD resets the block when `scan_mode` is high (R407, R434, R435, R439, R440, R550, R551, R555). -/
def Obligations.GateTermsEnd : Prop :=
  ∀ (s : State) (id : Nat) (c : Cmd), let b := s.blk
    let g := commenced id b
    let shut := fun b : Block => tapFollows (modGate (fun y => { y with session := none, undated := false, port := false }) b)
    (Turn s id c 0x0403 → Passes b c (challengeChecks b c) → gateRead b = true → noEntropy b = false → Gives (.gateChallenge id) s
        (okCmd id (drbgNow b 32) (modGate (fun y => { y with
          challenge := some (drbgNow b 32, b.now), replaced := y.replaced ++ y.challenge.toList.map Prod.fst }) (drew g))))
    ∧ (Turn s id c 0x0406 → Passes b c (closeChecks b c) → gateRead b = true →
      (openSession b = none → Gives (.gateClose id) s (okCmd id [] g))
      ∧ (∀ h k, openSession b = some (h, k) →
        (sameHolder h c.sender = true → GivesClosing (.gateClose id) s (okCmd id [] (shut g)))
        ∧ (sameHolder h c.sender = false → Gives (.gateClose id) s (failCmd id rcGateRequired 0 g))))
    ∧ (b.ym.gate.port = true → b.lc = 2 → ∀ t : State, t.blk.ym.gate.port = false →
        scanClosed b t = if t.blk.boot.scan = true then warmReset causeScan t else t)
    ∧ (∀ t : State, (b.ym.gate.port = false ∨ b.lc ≠ 2) → scanClosed b t = t)
    ∧ (b.boot.ready = true →
      (∀ x y t0, b.ym.gate.session = some (x, y, t0) → b.ym.gate.undated = false → GivesClosing .gateSessionExpiry s
        (shut { b with now := max b.now t0 }))
      ∧ (b.ym.gate.undated = true → Gives .gateSessionExpiry s b)
      ∧ (∀ n, (tapFollows n).boot.tapIr = if tapOpen n then n.boot.tapIr else match n.boot.tapIr with | .other _ => .bypass | x => x)
      ∧ (∀ x t0, b.ym.gate.challenge = some (x, t0) → Gives .gateChallengeExpiry s
        (modGate (fun y => { y with challenge := none }) { b with now := max b.now (t0 + 60000000) }))
      ∧ (∀ t0, b.ym.gate.lockoutEnd = some t0 → Gives .gateLockoutExpiry s
        (modGate (fun y => { y with lockoutEnd := none }) { b with now := max b.now t0 }))
      ∧ (holding b 20 = false → b.ym.gate.retry = true → gateReading b = false → Gives .gateCellRetry s
        (sbAsk { user := .gateRead, cell := 2 } { b with now := max b.now (b.ym.gate.lockoutEnd.getD 0) }))
      ∧ (b.ym.gate.session = none → Gives .gateSessionExpiry s b) ∧ (b.ym.gate.challenge = none → Gives .gateChallengeExpiry s b)
      ∧ (b.ym.gate.lockoutEnd = none → Gives .gateLockoutExpiry s b))

/-! ## Chutes, movers and timers (R443 to R472) -/

/-- A valid item enters an inbound chute with room and is dropped, counted and raised at a full one; a read gives the next released item, or the
idle item, also from an empty chute; a packet is released by its EOP, by its threshold bytes, once taken from and once released (before CHUTE_MODE changed); FLUSH marks what is there up to the last EOP and FLUSH_NOW discards everything of a chute of binding kind 3, both for a
manager alone (R444, R446, R448, R449, R459, R460). -/
def Obligations.ChutesCarryItems : Prop :=
  ∀ (s : State) (k : RingId) (data : Bytes) (ctl : BitVec 16) (c : ChuteId) (x : Sender), let b := s.blk
    let it : Item := { data := fit 32 data, ctl := ctl &&& 0x03FF }
    let h := b.chute k.val
    let o := 4 + k.val
    b.boot.ready = true →
    (it.valid = false → Gives (.chuteItemWrite k data ctl) s b)
    ∧ (it.valid = true → h.holder = none →
      (512 ≤ h.items.length + h.drained → Gives (.chuteItemWrite k data ctl) s
        (withEvent evChuteOverrun (toLe 1 k.val) (modChute k.val (fun y => { y with errors := satAdd 32 y.errors 1 }) b)))
      ∧ (h.items.length + h.drained < 512 → h.flush = none → h.draining = false → Gives (.chuteItemWrite k data ctl) s
        (modChute k.val (fun y => { y with items := y.items ++ [it] }) (wake b))))
    ∧ (∀ i l, (b.chute o).items = i :: l → (b.chute o).holder = none →
      (readable (b.chute o) = true → holding b 23 = false → (b.chute o).flush = none → Gives (.chuteItemRead k) s
        (modChute o (fun y => { y with items := l, drained := (y.drained + 1) % 256, inPacket := if i.eop then false else y.inPacket || i.sop, last := i, released := if i.eop then y.released - 1 else y.released }) b)))
    ∧ (readable (b.chute o) = false ∨ holding b 23 = true → Gives (.chuteItemRead k) s
        (modChute o (fun y => { y with last := if (b.chute o).mode.getLsbD 8 then { data := (b.chute o).idle, ctl := 0x09 }
                                               else { data := zeros 32, ctl := 0 } }) b))
    ∧ (readable (b.chute o) = true ↔ ∃ i l, (b.chute o).items = i :: l ∧ ((b.chute o).inPacket = true ∨ 0 < (b.chute o).released
        ∨ cutThrough (b.chute o) (i :: l) = true))
    ∧ (x.priv = true → ∃ t : Block, Gives (.chuteFlush c x) s t ∧ (∀ j, j ≠ c.val → t.chute j = b.chute j)
        ∧ (flushPoint (b.chute c.val).items = 0 → t.chute c.val = b.chute c.val)
        ∧ (flushPoint (b.chute c.val).items ≠ 0 →
            t.chute c.val = applyFlush { b.chute c.val with flush := some (flushPoint (b.chute c.val).items) })
        ∧ { t with chutes := b.chutes } = b)
    ∧ (x.priv = true → bindKind (b.chute c.val) = 3 → (b.chute c.val).mover = none → ∃ t : Block, Gives (.chuteFlushNow c x) s t
        ∧ (t.chute c.val).released = 0 ∧ (t.chute c.val).putBack = [] ∧ (t.chute c.val).landing = [] ∧ (t.chute c.val).flush = none
        ∧ (t.chute c.val).items = (if 4 ≤ c.val ∧ (b.chute c.val).inPacket = true then [abortItem] else [])
        ∧ (∀ j, j ≠ c.val → t.chute j = b.chute j) ∧ { t with chutes := b.chutes } = b)
    ∧ (x.priv = false → Gives (.chuteFlush c x) s b ∧ Gives (.chuteFlushNow c x) s b)
    ∧ (bindKind (b.chute c.val) ≠ 3 → Gives (.chuteFlushNow c x) s b)

/-- MOVER_CTRL: enabling makes a granted channel IDLE at its head, START and a timer's tick trigger it, disabling stops it and withdraws what it has
not issued. A walk reads the next descriptor; COPY, BRAID and UNBRAID read their source and write it, grain by grain over the ways of a
braid; the end writes status and count, and goes on to the next descriptor or halts the channel (R461 to R470). -/
def Obligations.MoverChannelsWalkAndMove : Prop :=
  ∀ (s : State) (m : ChanId) (v : BitVec 32) (x : Sender) (k : RingId), let b := s.blk
    let y := b.mover m.val
    let d := y.desc
    let p := moverPort m.val
    b.boot.ready = true → holding b 0 = false →
    (x.priv = false ∨ ownChannel m.val = true → Gives (.moverEnable m v x) s b ∧ Gives (.moverStart m x) s b ∧ Gives (.moverDisable m x) s b)
    ∧ (x.priv = true → ownChannel m.val = false →
      ((v ||| 1).toNat / 16 % 4 ≠ 3 → v.getLsbD 1 = false → y.ctrl.getLsbD 0 = false → grantKind y ≠ 0 → ownPending (moverReq m.val) b = 0 →
        Gives (.moverEnable m v x) s (modMover m.val (fun y => { y with
          ctrl := (v ||| 1) &&& 0xF331, state := 1, pos := y.head, doneCount := 0, step := 0, waitEnable := false
          ident := moverIdent b m.val }) b))
      ∧ ((y.ctrl ||| 2).toNat / 16 % 4 ≠ 3 → y.ctrl.getLsbD 0 = true → y.state = 1 → Gives (.moverStart m x) s
        (wake (modMover m.val (fun y => { y with ctrl := (y.ctrl ||| 2) &&& 0xF331, state := 2, step := 0, ran := false }) b)))
      ∧ ((y.ctrl &&& 0xFFFFFFFE).toNat / 16 % 4 ≠ 3 → y.ctrl.getLsbD 0 = true → ∃ t, Gives (.moverDisable m x) s t
        ∧ (t.mover m.val).state = 0 ∧ (t.mover m.val).ctrl.getLsbD 0 = false ∧ (t.mover m.val).head = y.head
        ∧ (t.mover m.val).grant = y.grant ∧ (∀ r ∈ (t.port p).waiting, moverReq m.val r.owner = false)
        ∧ (∀ n, n ≠ m.val → t.mover n = b.mover n)))
    ∧ (∃ t, Gives (.timerTick k) s t ∧ t.now = max b.now (b.timers.get k.val).2
        ∧ t.timers.get k.val = ((b.timers.get k.val).1, t.now + (b.timers.get k.val).1)
        ∧ ∀ n : ChanId, let z := b.mover n.val
          let mine := z.ctrl.toNat / 16 % 4 = 1 ∧ z.ctrl.toNat / 256 % 4 = k.val
          (¬ mine → t.mover n.val = z) ∧ (mine → z.state = 1 → t.mover n.val = { z with state := 2, step := 0, ran := false })
            ∧ (mine → z.state = 2 → z.pendingTrig = false → t.mover n.val = { z with pendingTrig := true }))
    ∧ (y.state = 2 → y.step = 0 → mayWalk b m.val = true → Sends (.moverWalk m) s
        (modMover m.val (fun y => { y with step := 1, buf := { want := 64 } }) b) p
        (readReqs (.moverDesc m) y.ident 1 (41 + m.val) (pieces y.pos 0 64)))
    ∧ (y.state = 2 → y.step = 3 → moverIn d = none → moverOut d = none → ∀ q ∈ [((1 : Byte), Instr.copy m), (2, .braid m), (3, .unbraid m)], d.mop = q.1 →
      (y.issued = false → ∃ t, Gives q.2 s t ∧ t.still = (modMover m.val (fun y => { y with issued := true, data := { want := d.len } }) b).still
        ∧ (d.mop ≠ 3 → ∀ r ∈ readReqs (.moverData m) y.ident 1 (41 + m.val) (pieces d.src 0 d.len), Offered t p r)
        ∧ (d.mop = 3 → ∀ i ∈ grains d, ∀ r ∈ readReqs (.moverData m) y.ident 1 (41 + m.val)
            (pieces (y.table.getD (i % d.ways.toNat) 0 + BitVec.ofNat 64 (i / d.ways.toNat * d.grain)) (i * d.grain) (min d.grain (d.len - i * d.grain))),
            Offered t p r))
      ∧ (y.issued = true → y.data.full = true → y.data.err = false → y.chuteErr = none → d.len % 64 = 0 → ∃ t, Gives q.2 s t
        ∧ t.still = (modMover m.val (fun y => { y with step := 4, mstatus := .done, moved := d.len }) b).still
        ∧ (d.mop ≠ 2 → ∀ r ∈ writeReqs (.moverData m) y.ident 1 (41 + m.val) 0 (fit (roundUp y.data.bytes.length 64) y.data.bytes)
            (pieces d.dst 0 (roundUp y.data.bytes.length 64)), Offered t p r)
        ∧ (d.mop = 2 → ∀ i ∈ grains d,
            let g := slice (fit (roundUp y.data.bytes.length 64) y.data.bytes) (i * d.grain) (min d.grain (d.len - i * d.grain))
            ∀ r ∈ writeReqs (.moverData m) y.ident 1 (41 + m.val) 0 g
              (pieces (y.table.getD (i % d.ways.toNat) 0 + BitVec.ofNat 64 (i / d.ways.toNat * d.grain)) 0 g.length), Offered t p r)))
    ∧ (y.state = 2 → ownPending (fun o => o == .moverData m || o == .moverStatus m) b = 0 →
      (y.step = 4 → Sends (.moverDescriptorEnd m) s (modMover m.val (fun y => { y with step := 5 }) b) p
        (writeReqs (.moverStatus m) y.ident 1 (41 + m.val) 0 ([0, 0] ++ toLe 2 y.mstatus.code ++ toLe 6 y.moved ++ zeros 6) (pieces (y.pos + 48) 0 16)))
      ∧ (y.step = 5 → moverIn d = none → moverOut d = none → y.mstatus = .done → d.next ≠ 0 → d.mflags.getLsbD 2 = false →
        Gives (.moverDescriptorEnd m) s (modMover m.val (fun y => { y with doneCount := satAdd 32 y.doneCount 1, pos := d.next, step := 0 }) b))
      ∧ (y.step = 5 → moverIn d = none → moverOut d = none → y.mstatus ≠ .done →
        Gives (.moverDescriptorEnd m) s (withEvent evMoverHalted (toLe 1 m.val ++ toLe 2 y.mstatus.code)
          (modMover m.val (fun y => { y with state := 3, step := 0, pendingTrig := false }) b))))

/-! ## Lanes in trouble, and the tack room's own work (R127 to R138, R188 to R192, R220, R279) -/

/-- A first lane fault makes a job a retry and its lane SUSPECT, in its recovery frame where that is free, else in the lane, which then
waits with it; while other recoveries are open the lanes of all are fenced. A second one ends it with both lanes and those of the other
open recoveries fenced, as it does a splice whose other lane faults in the same lane cycle. The earliest retry a lane or pair is free for
is resumed; else a splice's retry has a pair give way (the order is the model's choice, log entry 55). A SUSPECT lane that is empty returns
to service when its test passes and is fenced when it fails, unless a SELFTEST that names it is under way; a reseed gives a lane a fresh generator, and a late one pauses it (R127, R128,
R130 to R133, R135, R220, R246, R266). -/
def Obligations.LaneFaultsRetryOnce : Prop :=
  ∀ (s : State) (l : LaneId) (i : JobId) (k : Nat) (j : Job), let b := s.blk
    let open' := openRecoveries b i.val
    let bad := fun t : Block => (t.lane l.val).fencedFault = true ∧ ∀ q ∈ open', (t.lane q).fencedFault = true
    let both := fun t : Block => bad t ∧ ∀ q, j.faultLane = some q → (t.lane q).fencedFault = true
    b.boot.ready = true → b.job i.val = some j →
    (holding b (1 + l.val) = false → pairFault l.val j = false → faultsAt b l.val i.val k j = true →
      (j.faultLane = none → (b.lane l.val).jobs = [i.val] → b.boot.entropyStopped = false → ∃ t, Gives (.laneFault l i k) s t
        ∧ (t.lane l.val).faults = satAdd 32 (b.lane l.val).faults 1
        ∧ (open' = [] → (t.lane l.val).suspect = true) ∧ (open' ≠ [] → bad t)
        ∧ ∃ x, t.job i.val = some x ∧ x.stage = .retry ∧ x.retried = j.retried ∧ x.faultLane = some l.val ∧ x.keys = [] ∧ x.desc = j.desc
          ∧ (recoveryFree b i.val j = true → x.engine = none) ∧ (recoveryFree b i.val j = false → x.engine = j.engine ∧ x.kept ≠ []))
      ∧ (j.faultLane ≠ none → ∃ t, Gives (.laneFault l i k) s t ∧ both t))
    ∧ (holding b (1 + l.val) = false → pairFault l.val j = false → faultsAt b l.val i.val k j = false → Gives (.laneFault l i k) s b)
    ∧ (holding b (1 + l.val) = false → pairFault l.val j = true → ∃ t, Gives (.laneFault l i k) s t ∧ both t)
    ∧ (holding b 0 = false → let u := moveAllKept b
        (firstRetry u = none → Gives .laneRetry s (each (retries u) reserveRetry u))
        ∧ ∀ (n : Nat) (y : Job) (e : Engine), firstRetry u = some (n, y) → engineFor u n y .cipher = some e → Gives .laneRetry s (giveEngine n y e u))
    ∧ ((b.lane l.val).testing = true → ∀ pass, Gives (.laneSelftestAuto l pass) s b)
    ∧ (holding b 20 = false → holding b (1 + l.val) = false → (b.lane l.val).suspect = true → (b.lane l.val).testing = false → (b.lane l.val).jobs = [] →
      (∃ t, Gives (.laneSelftestAuto l false) s t ∧ (t.lane l.val).fencedFault = true ∧ (t.lane l.val).suspect = false)
      ∧ (let t := modLane l.val (fun x => { x with suspect := false }) (refilled b)
         Gives (.laneSelftestAuto l true) s (if (t.lane l.val).inService then withEvent evLaneUnfenced [] t else t)))
    ∧ (holding b (1 + l.val) = false → b.boot.entropyStopped = false →
      (b.boot.entropyPaused = false → holding b 21 = false → Gives (.laneReseed l false) s
        (drew (modLane l.val (fun x => { x with paused := false, generator := drbgNow b 32 }) b)))
      ∧ ((b.lane l.val).paused = false → Gives (.laneReseed l true) s
        (modLane l.val (fun x => { x with paused := true, reseedsLate := satAdd 32 x.reseedsLate 1 }) b)))

/-- Grooming changes a slot's shares and no key; remasking changes a cache entry's shares and no state. A sweep finds a stall-key slot that has
changed and marks it BAD, as it does a custodian's, derives a derived system key again and draws the state key again, also one that was BAD
because nothing could be drawn; an orphan's slot is zeroed under a new GEN and keeps ORPHANED alone; a digest island drops the entries of
slots whose GEN has risen (R188, R189, R192, R279). -/
def Obligations.TackRoomTendsItself : Prop :=
  ∀ (s : State) (d : Fin 2) (n : Nat), let b := s.blk
    let cs := (b.islands.get d.val).cache
    b.boot.ready = true →
    (holding b 19 = false → anyHold b = false → HasEntropy b → b.tack.groomPos < 8192 →
      (∀ k, (b.slot k).material.length = (b.slot k).mask.length ∧ (b.slot k).mask.length ≤ 64) → ∃ t, Gives .groomStep s t
        ∧ (∀ k, slotBytes (t.slot k) = slotBytes (b.slot k)) ∧ (t.slot b.tack.groomPos).mask = drbgNow b 64
        ∧ t.tack.groomPos = (b.tack.groomPos + 1) % 8192 ∧ (∀ k, k ≠ b.tack.groomPos → t.slot k = b.slot k))
    ∧ (holding b 19 = false → barnHeld b = true → anyHold b = false → b.boot.entropyPaused = false →
      let sound := fun m : Nat => (∀ k, k < 512 → k ≠ m → (b.sk k).state = 2 ∨ skTagOk b k = true)
        ∧ ∀ k, k < 16 → k + 512 ≠ m → (b.tack.sys.get k).bad = true ∨ sysTagOk b k = true
      let drawn := (b.tack.sys.get 2).bad = false ∨ noEntropy b = true
      (sound 528 → drawn → Gives (.slotIntegritySweep [] []) s b)
      ∧ (∀ x, sound 528 → (b.tack.sys.get 2).bad = true → noEntropy b = false → sysOf b 2 = some x →
          Gives (.slotIntegritySweep [] []) s (drew (setSys 2 x b)))
      ∧ (∀ u : Fin 528, sound u.val → drawn →
        (u.val < 512 → (b.sk u.val).state ≠ 2 →
          Gives (.slotIntegritySweep [u] []) s (withEvent evSlotBad (toLe 1 1 ++ toLe 2 u.val) (modSk u.val (fun k => { k with state := 2 }) b)))
        ∧ (∀ k, u.val = k + 512 → (b.tack.sys.get k).bad = false → (b.tack.sys.get k).content ≠ [] →
          let e := withEvent evSlotBad (toLe 1 2 ++ toLe 2 k) b
          (5 ≤ k → Gives (.slotIntegritySweep [u] []) s
            (modTack (fun t => { t with sys := t.sys.set k { b.tack.sys.get k with bad := true } }) e))
          ∧ (∀ x, k < 5 → k ≠ 2 → sysOf b k = some x →
              (k = 0 → ∀ n, n < 512 → (b.sk n).state = 2 ∨ skTagOk (setSys 0 x e) n = true) → Gives (.slotIntegritySweep [u] []) s (setSys k x e))
          ∧ (∀ x, k = 2 → HasEntropy b → sysOf b 2 = some x → Gives (.slotIntegritySweep [u] []) s (drew (setSys 2 x e))))))
    ∧ (holding b 19 = false → anyHold b = false →
      (orphans b = [] → Gives .orphanSweep s b)
      ∧ (orphans b = [n] → (b.slot n).runLen = 1 → ∃ t, Gives .orphanSweep s t
        ∧ t.slot n = { gen := (b.slot n).gen + 1, kflags := kOrphaned } ∧ ∀ k, k ≠ n → t.slot k = b.slot k))
    ∧ (holding b (9 + d.val) = false →
      Gives (.digestCachePurge d) s
        (modIsland d.val (fun x => { x with cache := x.cache.filter fun e => !x.purge.contains e.slot, purge := [] }) b)
      ∧ ∃ t : Block, Gives (.digestCacheRemask d) s t ∧ (t.islands.get d.val).cache.length = cs.length
        ∧ ∀ (k : Nat) (e : CacheEnt), cs[k]? = some e → e.share.length = e.mask.length → ∃ x : CacheEnt, (t.islands.get d.val).cache[k]? = some x
          ∧ x.slot = e.slot ∧ x.gen = e.gen ∧ x.alg = e.alg ∧ xorBytes x.share x.mask = xorBytes e.share e.mask
          ∧ (HasEntropy b → x.mask = fit e.mask.length (Config.drbg (b.draws + k) 128)))

/-! ## Sheet services (R132, R137, R408 to R411, R498, R502 to R508) -/

/-- EVENTLOG_READ gives the held records from a sequence on, the acknowledgements raise the mark the larger of which stands, TIME_SET pairs wall
time with the tick, WEAR_REPORT and WEAR_MEASURE give a record per island, the latter after measuring; the fence commands give LANE_STATE once
every named lane is empty; SELFTEST tells which engines passed; STUDBOOK_STATUS reads sixteen cells, the second of which is the update counter's; OD_READ and OD_WRITE take their items in
order up to the first refused, once every operation that arrived before them has been handled (R198, R330, R354, R408 to R411, R423, R425, R498,
R566). That the items of a command arrive together when Nartia takes it up is the model's reading (log entry 100). -/
def Obligations.ServiceCommandsReport : Prop :=
  ∀ (s : State) (id : Nat) (c : Cmd), let b := s.blk
    let g := commenced id b
    let recs := (b.lt.store.filter fun r => c.par 0 8 ≤ r.seq).take (c.par 8 2)
    (Turn s id c 0x0701 → Passes b c (eventReadChecks b c) → Gives (.eventlogRead id) s
        (okCmd id (toLe 2 recs.length ++ zeros 6 ++ recs.flatMap recordBytes) g))
    ∧ (Turn s id c 0x0702 → Passes b c (uptoChecks .manager b c) → Gives (.eventlogAck id) s
        (okCmd id [] { g with lt := acknowledge false (c.par 0 8) b.lt }))
    ∧ (Turn s id c 0x0902 → Passes b c (uptoChecks (.gate 3) b c) → Gives (.alarmAck id) s
        (okCmd id [] { g with lt := acknowledge true (c.par 0 8) b.lt }))
    ∧ (∀ (alarm : Bool) (u : Nat) (l : LeanTo), let t := acknowledge alarm u l
        let v := min u (l.nextSeq - 1)
        (l.nextSeq = 0 → t = l)
        ∧ (l.nextSeq ≠ 0 → t.ackUpto = some (max (l.ackUpto.getD v) v)
          ∧ t.alarmUpto = (if alarm then some (max (l.alarmUpto.getD v) v) else l.alarmUpto)
          ∧ t.store.length = l.store.length ∧ ∀ (k : Nat) (r : EvRecord), l.store[k]? = some r → ∃ x : EvRecord, t.store[k]? = some x
            ∧ x.seq = r.seq ∧ x.detail = r.detail
            ∧ x.acked = (r.acked || (decide (r.seq ≤ v) && (alarm || decide (r.resp ≤ 1))))))
    ∧ (Turn s id c 0x0901 → Passes b c (timeChecks b c) → Gives (.timeSet id) s
        (okCmd id (toLe 8 b.lt.tick) { g with lt := { b.lt with wallTime := some (c.par 0 8, b.lt.tick) } }))
    ∧ (Turn s id c 0x0603 → Passes b c { right := .any, pay := 176, bad := paramFails c.params [] 0 [] } → Gives (.wearReport id) s
        (okCmd id ((List.range 22).flatMap (wearRecord s)) g))
    ∧ (Turn s id c 0x0602 → Passes b c (wearChecks b c) → c.step = 0 → ∀ m, exec (.wearMeasure id m) s
        = .next (measure false (ownIslands c b) m { s with blk := cmdStep id 1 g }))
    ∧ (Going s id c 0x0602 → c.step = 1 → (∀ i ∈ namedIslands c, (b.wear.get i).rerun = false) → ∀ m, Gives (.wearMeasure id m) s
        (okCmd id ((namedIslands c).flatMap (wearRecord s)) b))
    ∧ (Turn s id c 0x0801 → Passes b c (maskChecks b c) → c.step = 0 →
        ((∀ l ∈ namedLanes c, (b.lane l).jobs = [] ∧ (b.lane l).forTest = false) → ∃ t, Gives (.laneFence id) s (okCmd id (laneStates t) t)
          ∧ (∀ l ∈ namedLanes c, (t.lane l).fencedManager = true ∧ (t.lane l).leaving = false) ∧ ∀ l, l ∉ namedLanes c →
            { t.lane l with reservedBy := (b.lane l).reservedBy, givesWay := (b.lane l).givesWay } = b.lane l
            ∧ ((∀ m ∈ namedLanes c, m / 2 ≠ l / 2) → t.lane l = b.lane l))
        ∧ ((∃ l ∈ namedLanes c, (b.lane l).jobs ≠ []) → ∃ t x, Gives (.laneFence id) s t ∧ t.cmd id = some x ∧ x.phase = 3 ∧ x.step = 1))
    ∧ (Turn s id c 0x0802 → Passes b c (maskChecks b c) → ∃ t : Block, Gives (.laneUnfence id) s (okCmd id (laneStates t) t)
        ∧ (∀ l, t.lane l = if l ∈ namedLanes c then { b.lane l with fencedManager := false } else b.lane l) ∧ { t with lanes := b.lanes } = refilled g)
    ∧ (Turn s id c 0x0601 → Passes b c (testChecks b c) → c.step = 0 → ∀ pass,
        let l := namedTests c
        let t := each l testBegin (modCmd id (fun x => { x with step := 1, keep := toLe 4 (testMask (l.filter (testServed b))) }) g)
        let good := l.filter fun k => pass.getLsbD k
        let bad := l.filter fun k => !pass.getLsbD k
        ((∃ k ∈ l, testReady t k = false) → Gives (.selftest id pass) s t)
        ∧ ((∀ k ∈ l, testReady t k = true) → Gives (.selftest id pass) s
            (endCmd id (if bad = [] then rcOk else rcSelftestFailed) 0 (toLe 4 (testMask good) ++ toLe 4 (testMask bad))
              (each l (testEnd pass) t))))
    ∧ (Going s id c 0x0601 → c.step ≠ 0 → ∀ pass,
        let l := namedTests c
        let t := each (l.filter (· < 8)) leave b
        let good := l.filter fun k => pass.getLsbD k
        let bad := l.filter fun k => !pass.getLsbD k
        ((∃ k ∈ l, testReady t k = false) → Gives (.selftest id pass) s t)
        ∧ ((∀ k ∈ l, testReady t k = true) → Gives (.selftest id pass) s
            (endCmd id (if bad = [] then rcOk else rcSelftestFailed) 0 (toLe 4 (testMask good) ++ toLe 4 (testMask bad))
              (each l (testEnd pass) t))))
    ∧ (Turn s id c 0x0A01 → Passes b c { pay := 128, bad := paramFails c.params [] 0 [] } → c.step = 0 →
        Gives (.studbookStatus id) s (cmdAsk id 0 0 0 1 g))
    ∧ (Going s id c 0x0A01 → c.step ≠ 0 →
        (c.sb = 3 → Gives (.studbookStatus id) s (failCmd id rcStudbookFailed 0 b))
        ∧ (c.sb = 2 → c.step = 16 → Gives (.studbookStatus id) s (okCmd id (c.keep ++ toLe 8 c.sbVal) b))
        ∧ (c.sb = 2 → c.step < 16 →
          Gives (.studbookStatus id) s
            (cmdAsk id 0 c.step 0 (c.step + 1) (modCmd id (fun x => { x with keep := x.keep ++ toLe 8 x.sbVal }) b))))
    ∧ (∀ (o : SbOp) (v : Nat), b.sb = some o → o.user = .cmd id →
        let t := if o.cell = 1 then modTack (fun y => { y with updateCounter := v, counterKnown := true }) { b with sb := none }
          else if o.cell = 3 then { b with sb := none, floor := v }
          else if 4 ≤ o.cell then modTack (fun y => { y with cells := y.cells.mod o.cell fun x => { x with value := v } }) { b with sb := none }
          else { b with sb := none }
        v < 2 ^ 64 → Gives (.sbResponse false false (BitVec.ofNat 64 v)) s (sbPump (modCmd id (fun x => { x with sb := 2, sbVal := v }) t)))
    ∧ (Turn s id c 0x0501 →
        let e := takeTurn id b
        let x := { c with turn := some (c.turn.getD b.ym.odNext) }
        let r := readItems { s with blk := commenced id e } c (odCount c) 0
        (c.turn = none → e = modCmd id (fun _ => x) (modYm (fun y => { y with odNext := y.odNext + 1 }) b)) ∧ (c.turn ≠ none → e = b)
        ∧ (opsBefore e (c.turn.getD b.ym.odNext) = true → Gives (.odRead id) s e)
        ∧ (opsBefore e (c.turn.getD b.ym.odNext) = false →
          (Passes e x (odReadChecks s e x) →
            (r.2 = none → Gives (.odRead id) s (okCmd id r.1 (commenced id e)))
            ∧ (∀ k, r.2 = some k → Gives (.odRead id) s (endCmd id rcWrongState k r.1 (commenced id e))))
          ∧ ∀ k, checksBefore e x (odReadChecks s e x) = some k → Gives (.odRead id) s (failCheck id k e)))
    ∧ (Turn s id c 0x0502 → Passes b c (odWriteChecks b c) → c.step = 0 → c.note = 0 → c.waitSince = none → odCount c ≠ 0 → ∀ how,
        let d : State := { s with blk := cmdStep id 1 (takeTurn id g) }
        let r := odWriteOp false how c.sender (selIdx (c.par 8 4)) (selSub (c.par 8 4)) (slice c.params 16 (c.par 12 2)) d
        let q := itemsFrom how c 65 1 false r.2
        let held := fun (k : Nat) (t : State) => exec (.odWrite id how) s
          = .next { t with blk := modCmd id (fun x => { x with note := k, waitSince := some b.now }) t.blk }
        (opsBefore d.blk (c.turn.getD b.ym.odNext) = true → exec (.odWrite id how) s = .next d)
        ∧ (opsBefore d.blk (c.turn.getD b.ym.odNext) = false →
          (r.1 = none → held 0 r.2)
          ∧ (∀ e, r.1 = some e → e ≠ odOk → exec (.odWrite id how) s = .next { r.2 with blk := endCmd id rcWrongState 0 (toLe 2 0) r.2.blk })
          ∧ (r.1 = some odOk →
            (q.2.2 = some true → exec (.odWrite id how) s = .next { q.1 with blk := okCmd id (toLe 2 q.2.1) q.1.blk })
            ∧ (q.2.2 = some false → exec (.odWrite id how) s = .next { q.1 with blk := endCmd id rcWrongState q.2.1 (toLe 2 q.2.1) q.1.blk })
            ∧ (q.2.2 = none → held q.2.1 q.1))))
    ∧ (Going s id c 0x0502 → c.step = 1 → ∀ how,
        (opsBefore b (c.turn.getD 0) = true → exec (.odWrite id how) s = .next s)
        ∧ (opsBefore b (c.turn.getD 0) = false → odCount c ≤ c.note → Gives (.odWrite id how) s (okCmd id (toLe 2 c.note) b)))
    ∧ (∀ (how : Burn) (k n : Nat) (again : Bool) (t : State), let v := c.par (itemOff c k) 4
        let r := odWriteOp again how c.sender (selIdx v) (selSub v) (slice c.params (itemOff c k + 8) (itemLen c k)) t
        (odCount c ≤ k → itemsFrom how c (n + 1) k again t = (t, k, some true))
        ∧ (k < odCount c →
          (r.1 = none → itemsFrom how c (n + 1) k again t = (r.2, k, none))
          ∧ (r.1 = some odOk → itemsFrom how c (n + 1) k again t = itemsFrom how c n (k + 1) false r.2)
          ∧ (∀ e, r.1 = some e → e ≠ odOk → itemsFrom how c (n + 1) k again t = (r.2, k, some false))))

/-! ## Access windows, the dictionary and latches (R376, R413 to R430, R477, R480, R549, R561) -/

/-- With a credit, and while the port islands do not hold: a whole write to OD_CTRL starts a read or a write of an idle window, which takes the
next place among the dictionary operations, or ends it at once with BAD_REQUEST; a busy window ignores every write and its registers hold. A read of a latch takes it when it is free; a write of 0 by its owner frees it, by another privileged sender breaks it. Other
registers take whole aligned writes, and those that another command of the table writes have its effect. Any other access, and any before the end of step 4, does nothing but end a sleep, and every
write's response carries 0. The read side: a whole aligned read gives each register of the window its fields, any other and a reserved offset read
0; a read of a stall's page gives its indices and status, or 0 and DOORBELL_REJECTED; the level outputs follow their conditions (R43 to R49, R370,
R376 to R379, R418 to R421, R424, R426 to R428, R446, R447, R498, R499, R527 to R529, R534, R539, R554, R564, R565). That the outputs are driven from
step 9 on, and that a read is a function of the state, is the model's reading (log entries 104 and 60). -/
def Obligations.WindowsAndLatchesAnswer : Prop :=
  (∀ (s : State) (v : BitVec 32) (x : Sender) (whole : Bool) (l : Fin 64), let b := s.blk
    let r := wake b
    let w := mpWrite x b
    let y := b.win x.port
    let len := v.extractLsb' 8 8
    let start := fun wr => wakeYm (modWin x.port (fun z => { z with
      len := len, busy := true, isWrite := wr, sender := x, burnSince := none, turn := b.ym.odNext }) (modYm (fun y => { y with odNext := y.odNext + 1 }) w))
    let bad := endWindow x.port odBadRequest (wakeYm (modWin x.port (fun z => { z with len := len }) w))
    let owner := b.ym.latches.get l.val
    let reg := fun (off : BitVec 16) => Instr.registerWrite off v x whole
    let latchFreed := fun (b : Block) => modYm (fun m => { m with latches := m.latches.set l.val none }) b
    mpCredits b x.port ≠ 0 → holding b 22 = false →
    ((windowsOpen b && whole) = false →
      Gives (.odCtrlRead v x whole) s w ∧ Gives (.odCtrlWrite v x whole) s w ∧ Gives (.latchAcquire l x whole) s (answer x.port 0 r)
      ∧ Gives (.latchFree l v x whole) s w ∧ ∀ off, Gives (reg off) s w)
    ∧ ((windowsOpen b && whole) = true →
      (y.busy = true → Gives (.odCtrlRead v x whole) s w ∧ Gives (.odCtrlWrite v x whole) s w ∧ Gives (reg 0x0100) s w ∧ Gives (reg 0x0104) s w
        ∧ ∀ k : Fin 16, Gives (reg (BitVec.ofNat 16 (0x0140 + 4 * k.val))) s w)
      ∧ (y.busy = false →
        Gives (.odCtrlRead v x whole) s (if v.getLsbD 1 then bad else start false)
        ∧ Gives (.odCtrlWrite v x whole) s (if v.getLsbD 0 = true ∨ len = 0 ∨ 64 < len.toNat then bad else start true)
        ∧ Gives (reg 0x0100) s (modWin x.port (fun z => { z with select := v }) w)
        ∧ ∀ k : Fin 16, Gives (reg (BitVec.ofNat 16 (0x0140 + 4 * k.val))) s
            (modWin x.port (fun z => { z with data := z.data.take (4 * k.val) ++ toLe 4 v.toNat ++ z.data.drop (4 * k.val + 4) }) w))
      ∧ (owner = none → Gives (.latchAcquire l x whole) s (answer x.port 0 (modYm (fun m => { m with latches := m.latches.set l.val (some x) }) r))
          ∧ Gives (.latchFree l v x whole) s w)
      ∧ (∀ h, owner = some h →
        Gives (.latchAcquire l x whole) s (answer x.port (BitVec.ofNat 32 (2 ^ 31 + ownerWord h)) r)
        ∧ (v ≠ 0 → Gives (.latchFree l v x whole) s w)
        ∧ (v = 0 → sameHolder h x = true → Gives (.latchFree l v x whole) s (latchFreed w))
        ∧ (v = 0 → sameHolder h x = false → x.priv = true → Gives (.latchFree l v x whole) s
            (withEvent evLatchBroken (toLe 1 l.val ++ toLe 4 (ownerWord h)) (latchFreed w)))
        ∧ (v = 0 → sameHolder h x = false → x.priv = false → Gives (.latchFree l v x whole) s w))
      ∧ (∀ p : MboxId, let m := b.pair p.val
        (m.inFull = false → Gives (reg (BitVec.ofNat 16 (0x0400 + 32 * p.val))) s
            (modPair p.val (fun m => { m with inPtr := (m.inPtr &&& 0xFFFFFFFF00000000) ||| v.setWidth 64 }) (wakeYm w))
          ∧ Gives (reg (BitVec.ofNat 16 (0x0404 + 32 * p.val))) s
            (modPair p.val (fun m => { m with inPtr := (m.inPtr &&& 0xFFFFFFFF) ||| (v.setWidth 64 <<< 32) }) (wakeYm w)))
        ∧ (m.inFull = true → Gives (reg (BitVec.ofNat 16 (0x0400 + 32 * p.val))) s (wakeYm w)
          ∧ Gives (reg (BitVec.ofNat 16 (0x0404 + 32 * p.val))) s (wakeYm w))
        ∧ exec (reg (BitVec.ofNat 16 (0x0408 + 32 * p.val))) s = exec (.inTagWrite p v x whole) s
        ∧ (let en := modPair p.val (fun m => { m with irqEn := v.getLsbD 8, wakeEn := v.getLsbD 9 }) w
          (v.getLsbD 16 = false → Gives (reg (BitVec.ofNat 16 (0x041C + 32 * p.val))) s en)
          ∧ (v.getLsbD 16 = true → Gives (reg (BitVec.ofNat 16 (0x041C + 32 * p.val))) s (pairResetBy p.val x en))))
      ∧ exec (reg (BitVec.ofNat 16 (0x0200 + 4 * l.val))) s = exec (.latchFree l v x whole) s
      ∧ (y.busy = false → v.getLsbD 0 = false → v.getLsbD 1 = false → Gives (reg 0x0104) s (modWin x.port (fun z => { z with len := len }) w))
      ∧ (v.getLsbD 0 = true → exec (reg 0x0104) s = exec (.odCtrlRead v x whole) s)
      ∧ (v.getLsbD 1 = true → exec (reg 0x0104) s = exec (.odCtrlWrite v x whole) s)
      ∧ (∀ p : MboxId, ∀ k ∈ [0x0C, 0x10, 0x14, 0x18], Gives (reg (BitVec.ofNat 16 (0x0400 + 32 * p.val + k))) s w)
      ∧ (∀ off : BitVec 16, let n := off.toNat
          n % 4 ≠ 0 ∨ n < 0x0100 ∨ (0x0104 < n ∧ n < 0x0140) ∨ (0x0180 ≤ n ∧ n < 0x0200) ∨ (0x0300 ≤ n ∧ n < 0x0400) ∨ 0x0500 ≤ n → Gives (reg off) s w)))
  ∧ (∀ (b : Block) (p : MPort), let w := b.win p
    let reads := fun off => windowReg b p off true
    let ctrl := reads 0x0104
    let stat := reads 8
    let boot := reads 0xC
    (∀ off whole, whole = false ∨ off % 4 ≠ 0 ∨ (0xC < off ∧ off < 0x0100) ∨ (0x0108 < off ∧ off < 0x0140) ∨ (0x0180 ≤ off ∧ off < 0x0200)
        ∨ (0x0300 ≤ off ∧ off < 0x0400) ∨ (0x0500 ≤ off ∧ off ≠ 0x0800) → windowReg b p off whole = 0)
    ∧ reads 0 = 0x4D424F41 ∧ reads 4 = 0x00020100 + Config.patchLevel.setWidth 32 ∧ reads 0x0800 = BitVec.ofNat 32 b.lt.nextSeq
    ∧ stat.getLsbD 0 = b.boot.ready ∧ stat.getLsbD 1 = b.pack.ready ∧ stat.getLsbD 2 = sealedPin b ∧ stat.getLsbD 3 = (driven b && holdNow b)
    ∧ stat.getLsbD 4 = (openSession b).isSome ∧ stat.getLsbD 5 = irqAlarm b ∧ stat >>> 6 = 0
    ∧ (b.boot.step < 16 → b.boot.cause < 256 → boot.extractLsb' 0 4 = BitVec.ofNat 4 (if b.boot.step = 2 then 1 else b.boot.step)
      ∧ boot.getLsbD 4 = b.boot.stopped ∧ boot.extractLsb' 8 8 = BitVec.ofNat 8 b.boot.cause ∧ boot.getLsbD 16 = (b.sensed.damage != 0)
      ∧ boot.getLsbD 17 = b.boot.engineLost ∧ boot.getLsbD 18 = b.boot.noBarnKey ∧ boot.getLsbD 19 = b.boot.noEpoch
      ∧ boot.getLsbD 20 = b.boot.entropyLost ∧ boot >>> 21 = 0)
    ∧ (windowsOpen b = false → ∀ off, 0x0100 ≤ off → off ≠ 0x0800 → reads off = 0)
    ∧ (windowsOpen b = true → reads 0x0100 = w.select ∧ reads 0x0108 = w.info
      ∧ ctrl.getLsbD 0 = false ∧ ctrl.getLsbD 1 = false ∧ ctrl.getLsbD 2 = w.busy ∧ ctrl.extractLsb' 8 8 = w.len ∧ ctrl.extractLsb' 16 8 = w.status
      ∧ (∀ k : Fin 16, reads (0x0140 + 4 * k.val) = BitVec.ofNat 32 (leNat (slice w.data (4 * k.val) 4)))
      ∧ (∀ l : Fin 64, let o := reads (0x0200 + 4 * l.val)
          (b.ym.latches.get l.val = none → o = 0)
          ∧ ∀ h, b.ym.latches.get l.val = some h → o.getLsbD 31 = true ∧ o.extractLsb' 0 16 = h.rid ∧ o.getLsbD 16 = h.priv ∧ o.getLsbD 17 = (h.port == .b))
      ∧ (∀ q : MboxId, let m := b.pair q.val
          let at' := 0x0400 + 32 * q.val
          let i := reads (at' + 0x0C)
          let o := reads (at' + 0x1C)
          reads at' = m.inPtr.setWidth 32 ∧ reads (at' + 4) = m.inPtr.extractLsb' 32 32 ∧ reads (at' + 8) = m.inTag
          ∧ reads (at' + 0x10) = m.outPtr.setWidth 32 ∧ reads (at' + 0x14) = m.outPtr.extractLsb' 32 32 ∧ reads (at' + 0x18) = m.outTag
          ∧ i.getLsbD 0 = m.inFull ∧ i.getLsbD 1 = m.dropped ∧ i.getLsbD 8 = m.inPriv ∧ i.getLsbD 9 = (m.inPort == .b) ∧ i.extractLsb' 16 16 = m.reqId
          ∧ o.getLsbD 0 = m.outFull ∧ o.getLsbD 2 = m.stale
          ∧ (m.note < 16 → o.extractLsb' 4 4 = BitVec.ofNat 4 m.note ∧ o.getLsbD 8 = m.irqEn ∧ o.getLsbD 9 = m.wakeEn ∧ o.getLsbD 16 = false))))
  ∧ (∀ (b : Block) (n off : Nat) (pid : BitVec 20) (priv whole : Bool), let q := b.stall n
    let reads := pageRead n off pid priv whole b
    let st := stallStatus b n
    (b.boot.ready = false → reads = (0, b))
    ∧ (b.boot.ready = true → Accepted q pid priv whole →
      (∀ r : RingId, off = 4 * r.val → reads = ((b.ring n r.val).cons ++ (b.ring n r.val).prod, b))
      ∧ (off = 0x10 → reads = (q.cqProd ++ q.cqCons, b)) ∧ (off = 0x14 → reads = (0, b)) ∧ (off = 0x18 → reads = (st, b)))
    ∧ (b.boot.ready = true → ¬ Accepted q pid priv whole ∨ 0x18 < off ∨ off % 4 ≠ 0 →
        reads = (0, withEvent evDoorbellRejected (toLe 2 n ++ toLe 2 off ++ toLe 4 pid.toNat) b))
    ∧ (q.inFlight < 8192 → st.extractLsb' 0 3 = BitVec.ofNat 3 q.state.code ∧ (∀ r : RingId, st.getLsbD (4 + r.val) = (b.ring n r.val).halted)
        ∧ st.getLsbD 8 = q.cqHalted ∧ st.getLsbD 9 = (q.invMask != 0) ∧ st.getLsbD 10 = decide (q.cap ≤ q.inFlight)
        ∧ st.getLsbD 11 = decide (credits q ≤ 0) ∧ st.extractLsb' 12 4 = q.haltCause ∧ st.extractLsb' 16 13 = BitVec.ofNat 13 q.inFlight))
  ∧ ∀ b : Block,
    (b.boot.step ≤ 2 → lcPins b = 0) ∧ (2 < b.boot.step → lcPins b = b.lc)
    ∧ (sealedPin b = false ↔ b.boot.sealClear = true ∧ barnHeld b = true ∧ sealNow b = false)
    ∧ (driven b = false → irqMgr b = false ∧ irqAlarm b = false ∧ irqErr b = false ∧ irqMbox b = false ∧ wakeHost b = false)
    ∧ (driven b = true → irqAlarm b = (holdNow b || sealNow b) ∧ (irqErr b = true ↔ ∃ r ∈ b.lt.store, r.resp = 0 ∧ r.acked = false)
      ∧ (irqMbox b = true ↔ ∃ p : MboxId, (b.pair p.val).outFull = true ∧ (b.pair p.val).irqEn = true)
      ∧ (wakeHost b = true ↔ ∃ p : MboxId, (b.pair p.val).outFull = true ∧ (b.pair p.val).wakeEn = true)
      ∧ (irqMgr b = true ↔ (b.ym.irqMgrMask.getLsbD 0 = true ∧ ∃ e ∈ b.stalls.ents, e.2.state = .halted)
          ∨ (b.ym.irqMgrMask.getLsbD 1 = true ∧ ∃ e ∈ b.movers.ents, e.2.state = 3) ∨ (b.ym.irqMgrMask.getLsbD 2 = true ∧ lanesFenced b ≠ 0)
          ∨ (b.ym.irqMgrMask.getLsbD 3 = true ∧ ((∃ i < 2, (b.islands.get i).inService = false) ∨ ∃ k < 8, (b.cores.get k).inService = false))
          ∨ (b.ym.irqMgrMask.getLsbD 4 = true ∧ b.boot.nonceState ≠ 0)))
    ∧ (b.boot.ready = true → holding b 23 = false → ∀ k : RingId, (chuteFull b k.val = true ↔ 509 ≤ placesTaken (b.chute k.val))
        ∧ (chuteEmpty b (4 + k.val) = true ↔ (b.chute (4 + k.val)).items = []))

/-- The operation of a window runs once `ready` has risen and every operation that arrived earlier, at the other window or as an item of a
command, has been handled: a read gives the entry's bytes or its
status, a write its status, and a burn that loses `vfz` keeps it busy for up to 50 ms. An FZ entry takes its one write in MAKER; SRC_RETIRE_BURN
retires a source for good and raises MONITOR_RETIRED; LT_ARM_SET and LT_RESP_SET go to the lean-to, with source 7 armed always and
a source armed anew able to fire again
(R148, R414, R419, R420, R422, R423, R425, R476, R477, R480, R549, R561). The model's readings: NOT_WRITABLE after a bad burn or 50 ms without
`vfz` (log entry 41), the meshes among the sources armed anew (79), the place of a command's items (100). -/
def Obligations.DictionaryOperationsRun : Prop :=
  ∀ (s : State) (how : Burn), let b := s.blk
    let free := fun (x : Sender) => b.boot.ready = true ∧ holding b 20 = false ∧ 5 ≤ b.boot.step ∧ opsBefore b b.ym.odNext = false
      ∧ (b.win x.port).busy = false ∧ mpCredits b x.port ≠ 0 ∧ holding b 22 = false
    let ends := fun (t : Block) (x : Sender) (st : BitVec 8) => (t.win x.port).busy = false ∧ (t.win x.port).status = st
    (∀ n, opsBefore b n = true ↔ (∃ q : MPort, (b.win q).busy = true ∧ (b.win q).turn < n)
      ∨ ∃ e ∈ b.ym.cmds, e.2.aborted = false ∧ ((e.2.op = 0x0501 ∧ e.2.phase = 2) ∨ (e.2.op = 0x0502 ∧ e.2.phase = 3)) ∧ ∃ k, e.2.turn = some k ∧ k < n)
    ∧ (∀ p : MPort, let w := b.win p
      (w.busy = false ∨ b.boot.ready = false ∨ holding b 20 = true ∨ opsBefore b w.turn = true → Gives (.dictionaryOperation p how) s b)
      ∧ (w.busy = true → b.boot.ready = true → holding b 20 = false → opsBefore b w.turn = false →
        (w.isWrite = false → let r := odReadOp s w.sender w.index w.sub
          Gives (.dictionaryOperation p how) s (endWindow p r.1 (modWin p (fun z =>
            if r.1 = odOk then { z with data := fit 64 r.2, len := BitVec.ofNat 8 r.2.length }
            else if r.1 = odWriteOnly then { z with data := zeros 64 } else z) b)))
        ∧ (w.isWrite = true → w.burnSince = none ∨ b.boot.vfz = true → let r := odWriteOp w.burnSince.isSome how w.sender w.index w.sub (w.data.take w.len.toNat) s
          (∀ st, r.1 = some st → exec (.dictionaryOperation p how) s = .next { r.2 with blk := endWindow p st r.2.blk })
          ∧ (r.1 = none → exec (.dictionaryOperation p how) s
              = .next { r.2 with blk := modWin p (fun z => { z with burnSince := some (z.burnSince.getD b.now) }) r.2.blk }))
        ∧ (∀ t, w.isWrite = true → w.burnSince = some t → b.boot.vfz = false → Gives (.dictionaryOperation p how) s
            (endWindow p odNotWritable { b with now := max b.now (t + 50000) }))))
    ∧ (∀ (i sub : BitVec 16) (d : Bytes) (x : Sender),
      (fzField i.toNat sub.toNat = none → Gives (.fzWrite i sub d x how) s b)
      ∧ (∀ f e, fzField i.toNat sub.toNat = some f → selected i.toNat sub.toNat = some e → d.length = e.size → free x → x.priv = true →
        (b.lc ≠ 1 → ∃ t, Gives (.fzWrite i sub d x how) s t ∧ ends t x odNotWritable)
        ∧ (b.lc = 1 → b.boot.warmDue = false → unwritten s f = true → burnReady b = true →
          (allZero d = true → ∃ t, Gives (.fzWrite i sub d x how) s t ∧ ends t x odOutOfRange)
          ∧ (allZero d = false → (i = 0x8024 → leNat d = 1) → ∃ t, exec (.fzWrite i sub d x how) s = .next t
            ∧ t.blk.sensed.spent = f :: b.sensed.spent ∧ t.clk = s.clk ∧ t.pending = s.pending
            ∧ (how = .good → t.fuse = setCells f (burnMask f d) s.fuse ∧ ends t.blk x odOk)
            ∧ (how = .bad → s.fuse.le t.fuse ∧ ends t.blk x odNotWritable)
            ∧ (how = .vfzLost → s.fuse.le t.fuse ∧ t.blk.boot.vfz = false ∧ (t.blk.win x.port).busy = true
                ∧ (t.blk.win x.port).burnSince = some b.now)))))
    ∧ (∀ (n : Byte) (x : Sender), free x → x.priv = true → gatePasses b x 0 = true →
      (retirable b n.toNat = false → ∃ t, Gives (.srcRetireBurn n x how) s t ∧ ends t x odOutOfRange ∧ t.sensed = b.sensed)
      ∧ (retirable b n.toNat = true → burnReady b = false → ∃ t, Gives (.srcRetireBurn n x how) s t ∧ ends t x odSupplyHeld ∧ t.sensed = b.sensed)
      ∧ (retirable b n.toNat = true → burnReady b = true → how = .good → ∃ t, exec (.srcRetireBurn n x how) s = .next t
        ∧ t.fuse = { s.fuse with srcRetire := s.fuse.srcRetire ||| BitVec.ofNat 256 (2 ^ n.toNat + 2 ^ (128 + n.toNat)) }
        ∧ t.blk.sensed.srcRetire = (sense t.fuse).srcRetire ∧ ends t.blk x odOk
        ∧ ∃ r, t.blk.lt.fifo = b.lt.fifo ++ opening b
            ++ [{ code := evMonitorRetired, source := n.toNat, detail := fit 12 (toLe 1 n.toNat), resp := r, backup := b.boot.backup }]))
    ∧ (∀ (v : BitVec 32) (x : Sender), free x →
      (x.priv = false → ∃ t u, Gives (.ltArmSet v x) s t ∧ ends t x odNotPrivileged ∧ t.lt = b.lt
        ∧ Gives (.ltRespSet v x) s u ∧ ends u x odNotPrivileged ∧ u.lt = b.lt)
      ∧ (x.priv = true → gatePasses b x 0 = false → ∃ t u, Gives (.ltArmSet v x) s t ∧ ends t x odGateRequired ∧ t.lt = b.lt
        ∧ Gives (.ltRespSet v x) s u ∧ ends u x odGateRequired ∧ u.lt = b.lt)
      ∧ (x.priv = true → gatePasses b x 0 = true →
        (∃ t, Gives (.ltArmSet v x) s t ∧ ends t x odOk ∧ t.lt = { b.lt with
            arm := (v &&& 0x7FF) ||| 0x800, fired := b.lt.fired &&& ~~~newlyArmed v b.lt.arm } ∧ t.ym.ltArmSet = v &&& 0xFFF)
        ∧ (∃ t, Gives (.ltRespSet v x) s t ∧ ends t x odOk ∧ t.lt = { b.lt with respDue := some (v &&& 0xFFFF) } ∧ t.ym.ltRespSet = v &&& 0xFFFF)))

/-! ## Monitors, the lean-to and ageing (R476 to R488, R493 to R497, R502 to R514, R547) -/

/-- An armed source fires once and is armed again by its recovery, a mesh by what its pair drove; what the clock detectors see gives their report,
and a fault raises its event, then resets its island or the block, and during start-up measures an engine it has reset, or loses it with its SRAM;
a supply warning makes its island hold, awake, and at the hold's end what waited goes on in its order; a hold's time-out, a supply
reset or a fault of a shared island resets the block, after the records; an entropy failure restarts the island, which stops at the third.
Arrived responses apply at once, records and written responses at the tick's end. A measurement sets the margin, lowers the decided ratio
by the step rule alone, and the ratio moves outside holds (R478, R479, R481 to R483, R485, R486, R488, R491, R494 to R496, R501, R502, R504,
R506, R508, R514, R523, R531, R539, R547, R555). The delay line's report before the window's, a wake kept through a yard hold and the credits
kept in a hold are the model's readings (log entries 106, 40 and 103). -/
def Obligations.MonitorsRaiseTheirEvents : Prop :=
  ∀ (s : State) (i : IslandId) (g : ClockSeen) (k : RingId) (m : Fin 2) (gs : Vector Gauges 22), let b := s.blk
    let ev := fun (code src : Nat) (detail : Bytes) (t : Block) =>
      { t with lt := { t.lt with
          fifo := t.lt.fifo ++ opening t ++ [{ code, source := src, detail := fit 12 detail, resp := respOf t code src, backup := t.boot.backup }]
          restarted := t.lt.restarted && !t.boot.vdd } }
    let fire := fun (t : Block) (n : Nat) => { t with lt := { t.lt with fired := t.lt.fired ||| (1#8 <<< n) } }
    let rearm := fun (t : Block) (n : Nat) => { t with lt := { t.lt with fired := t.lt.fired &&& ~~~(1#8 <<< n) } }
    let mesh := b.lt.mesh.get m.val
    let awake := fun t : Block => (if holding b 0 = true then t.boot.wakeDue = true else t.boot.asleep = false) ∧ t.ym.gated = false
    let woken := if holding b 0 = true then { b.boot with wakeDue := true } else { b.boot with asleep := false }
    (leanToAlive b = true →
      (b.lt.arm.getLsbD k.val = true → b.lt.fired.getLsbD k.val = false → retired b k.val = false →
        Gives (.tamperStatic k) s (ev evTamperStatic k.val [] (fire b k.val)))
      ∧ (b.lt.arm.getLsbD k.val = false ∨ b.lt.fired.getLsbD k.val = true → Gives (.tamperStatic k) s b)
      ∧ (∀ seen : BitVec 2, let differs := seen.getLsbD 0 ≠ mesh.drove.getLsbD 1 ∧ seen.getLsbD 1 ≠ mesh.drove.getLsbD 2
        (mesh.seeded = true → differs → b.lt.arm.getLsbD (8 + m.val) = true → b.lt.fired.getLsbD (4 + m.val) = false → retired b (4 + m.val) = false →
          Gives (.tamperMesh ⟨m, seen⟩) s (ev evTamperMesh (4 + m.val) [] (fire b (4 + m.val))))
        ∧ (mesh.seeded = false ∨ ¬ differs ∨ b.lt.arm.getLsbD (8 + m.val) = false ∨ b.lt.fired.getLsbD (4 + m.val) = true →
          Gives (.tamperMesh ⟨m, seen⟩) s b))
      ∧ Gives (.tamperInputRearm k) s (rearm b k.val)
      ∧ (∀ seen : BitVec 32, let same := ∀ n, n < 32 → seen.getLsbD n = mesh.drove.getLsbD (n + 1)
        (same → Gives (.meshRearm ⟨m, seen⟩) s (rearm b (4 + m.val))) ∧ (¬ same → Gives (.meshRearm ⟨m, seen⟩) s b))
      ∧ (b.lt.arm.getLsbD 10 = true → b.lt.vbkLow = false → retired b 6 = false →
        Gives .vbkLow s (ev evVbkLow 6 [] { b with lt := { b.lt with vbkLow := true } }))
      ∧ (b.lt.arm.getLsbD 10 = false ∨ b.lt.vbkLow = true → Gives .vbkLow s b)
      ∧ Gives .vbkLowClear s { b with lt := { b.lt with vbkLow := false } }
      ∧ (b.lt.clockBad = false → retired b 7 = false → Gives .ltClockFault s (ev evLtClockFault 7 [] { b with lt := { b.lt with clockBad := true } }))
      ∧ Gives .clkLtInRange s { b with lt := { b.lt with clockBad := false } }
      ∧ (b.lt.fifo = [] → Gives .leanToEventArrival s b)
      ∧ (∀ e l, b.lt.fifo = e :: l → e.code ≠ evMonitorSplit ∨ l = [] →
        let t : Block := { b with lt := { b.lt with fifo := l, tickEvents := b.lt.tickEvents ++ [e] }
                                  boot := woken, ym := { b.ym with gated := false } }
        (e.resp ≠ 3 → Gives .leanToEventArrival s t ∧ (e.resp = 1 → holdNow t = true) ∧ (e.resp = 2 → sealNow t = true))
        ∧ (e.resp = 3 → b.boot.vdd = true → let z := zeroSlots (modLt (fun l => { l with latchKey := none })
              { b with lt := { b.lt with fifo := l, tickEvents := b.lt.tickEvents ++ [e] } })
          Gives .leanToEventArrival s (eventWake (purgeJobs z)) ∧ sealNow z = true ∧ z.lt.latchKey = none ∧ z.tack.sys = { dflt := {} }
          ∧ (∀ x ∈ b.tack.slots.ents, (z.slot x.1).occupied = false) ∧ (∀ x ∈ b.tack.stallKeys.ents, (z.sk x.1).state = 0)
          ∧ ∀ n j u, Block.job u n = some j → purged j = true → purgeJob n u = if j.started then runError n .keysSealed u else endJob n .keysSealed u))
      ∧ (∀ e x l, b.lt.fifo = e :: x :: l → e.code = evMonitorSplit → e.resp ≠ 3 → x.resp ≠ 3 →
        Gives .leanToEventArrival s { b with lt := { b.lt with fifo := l, tickEvents := b.lt.tickEvents ++ [e, x] }
                                             boot := woken, ym := { b.ym with gated := false } })
      ∧ (b.lt.tickEvents = [] → b.lt.tick / 32768 = b.lt.second → ∃ u : Tab Mesh,
        Gives .leanToRecord s { b with lt := { b.lt with tick := (b.lt.tick + 1) % 2 ^ 48, resp := b.lt.respDue.getD b.lt.resp, respDue := none, mesh := u } }
        ∧ u.get m.val = (if mesh.seeded = true then { mesh with
            gen := Config.meshNext mesh.gen, drove := (mesh.drove <<< 1) ||| (if Config.meshBit mesh.gen then 1 else 0) } else mesh))
      ∧ (∀ e, b.lt.tickEvents = [e] → b.lt.tick / 32768 = b.lt.second → e.resp = 1 ∨ e.resp = 2 → b.lt.store.length < 64 →
        ∃ t, Gives .leanToRecord s t ∧ t.lt.tickEvents = [] ∧ t.lt.tick = (b.lt.tick + 1) % 2 ^ 48 ∧ t.lt.nextSeq = b.lt.nextSeq + 1
          ∧ t.lt.store = b.lt.store ++ [{ seq := b.lt.nextSeq, tick := b.lt.tick, code := e.code, source := e.source
                                          rflags := BitVec.ofNat 8 (e.resp + 12 * e.backup.toNat + 64 * b.lt.clockBad.toNat)
                                          suppressed := (b.lt.counts.get e.code).2, detail := e.detail }]
          ∧ t.lt.resp = b.lt.respDue.getD b.lt.resp
          ∧ t.lt.holdMark = (if e.resp = 1 ∧ e.backup = false then some b.lt.nextSeq else b.lt.holdMark)
          ∧ t.lt.sealMark = (if e.resp = 1 ∧ e.backup = false then b.lt.sealMark else some b.lt.nextSeq)))
    ∧ (let r := s.clk.watched.get i.val
      let short := (g.cycles.filter fun n => decide (n * r < 900000)).length
      let fast := 106 * (4096 * r) < 10000 * g.edges
      let slow := if 22 ≤ i.val then g.edges = 0 else 10000 * g.edges < 90 * (4096 * r)
      retired b (16 + 4 * i.val) = false → retired b (17 + 4 * i.val) = false →
        (short = 0 → ¬ fast → ¬ slow → clockReport b s.clk i.val g = none)
        ∧ (short = 0 → fast → clockReport b s.clk i.val g = some (16 + 4 * i.val, true))
        ∧ (short = 0 → ¬ fast → slow → clockReport b s.clk i.val g = some (16 + 4 * i.val, false))
        ∧ (0 < short → ¬ fast → ¬ slow → clockReport b s.clk i.val g = some (17 + 4 * i.val, decide (16 ≤ short)))
        ∧ (0 < short → fast ∨ slow → clockReport b s.clk i.val g = some (17 + 4 * i.val, false)))
    ∧ (armedMonitors b = false ∨ clockReport b s.clk i.val g = none → exec (.clockFault i g) s = .next s)
    ∧ (armedMonitors b = true → ∀ src split, clockReport b s.clk i.val g = some (src, split) →
      let faulted := ev evClockFault src [] (if split then ev evMonitorSplit (16 + 4 * i.val) (toLe 1 i.val) b else b)
      let reset := engineReset i.val faulted
      let restarted : State := { s with clk := reachRatio i.val s.clk, blk := reset }
      (1 ≤ i.val ∧ i.val ≤ 18 →
        (b.boot.ready = true ∨ b.boot.stopped = true → exec (.clockFault i g) s = .next (scanClosed b restarted))
        ∧ (b.boot.ready = false → b.boot.stopped = false → g.sramOk = false → exec (.clockFault i g) s = .next (scanClosed b
            { restarted with blk := loseEngine i.val { reset with boot := { reset.boot with engineLost := true } } }))
        ∧ (b.boot.ready = false → b.boot.stopped = false → g.sramOk = true → ∀ n : Fin 22, n.val = i.val →
            exec (.clockFault i g) s = .next (scanClosed b (measureOne true restarted (n, g.gauges)))))
      ∧ (i.val = 20 → b.boot.ready = true → exec (.clockFault i g) s
          = .next (scanClosed b { s with clk := reachRatio 20 s.clk, blk := ymReset faulted }))
      ∧ (i.val = 21 → exec (.clockFault i g) s = .next (scanClosed b { s with clk := reachRatio 21 s.clk, blk := entropyRestart faulted }))
      ∧ (i.val = 0 ∨ i.val = 19 ∨ 22 ≤ i.val ∨ (i.val = 20 ∧ b.boot.ready = false) → exec (.clockFault i g) s
          = .next { s with clk := {}, blk := warmBlock evClockFault faulted }))
    ∧ (armedSupply b = true →
      (retired b (18 + 4 * i.val) = false → holding b i.val = false →
        Gives (.supplyWarn i) s (ev evSupplyWarn (18 + 4 * i.val) [] (markHeld i.val { b with
          holds := b.holds.set i.val (some b.now), boot := { b.boot with asleep := false } })))
      ∧ (holding b i.val = true → Gives (.supplyWarn i) s b)
      ∧ (retired b (19 + 4 * i.val) = false → exec (.supplyReset i) s = .next { s with
          clk := {}, blk := warmBlock evSupplyReset (recordAll (ev evSupplyReset (19 + 4 * i.val) (toLe 1 i.val) b)) }))
    ∧ (armedSupply b = false → Gives (.supplyWarn i) s b ∧ exec (.supplyReset i) s = .next s)
    ∧ (b.holds.get i.val = none → Gives (.supplyHoldEnd i) s b ∧ exec (.supplyHoldTimeout i) s = .next s)
    ∧ (∀ t0, b.holds.get i.val = some t0 →
      (b.live = [] → b.dbFifo = [] → b.rpFifo = [] → b.mpFifo = [] → b.sbQueue = [] → b.ym.changesDue = [] → b.tack.dropsDue = [] →
        b.boot.epochDue = none → (i.val = 23 → ∀ c, c < 8 → b.chute c = {}) →
        ∃ t, Gives (.supplyHoldEnd i) s t ∧ t.holds = b.holds.set i.val none ∧ t.lt = b.lt ∧ t.tack = b.tack ∧ t.ym = b.ym
          ∧ ((b.wear.get i.val).rerun = true → (t.wear.get i.val).rerunAt = some (b.now + 1000))
          ∧ (holding b 22 = false ∨ i.val = 22 → t.mpaCredits = 4 ∧ t.mpbCredits = 4)
          ∧ (i.val = 0 → b.boot.wakeDue = true → t.boot.asleep = false ∧ t.boot.wakeDue = false))
      ∧ (let late : Block := { b with now := max b.now (t0 + b.ym.holdLimit) }
        exec (.supplyHoldTimeout i) s = .next { s with
          clk := {}
          blk := warmBlock evSupplyHoldTimeout (recordAll
            (if retired b (18 + 4 * i.val) then late else ev evSupplyHoldTimeout (18 + 4 * i.val) [] late)) }))
    ∧ (∀ u : Block, (holding u 22 = true → drainMp u = u)
      ∧ (holding u 22 = false → drainMp u = u.mpFifo.foldl (fun t c => handleMp c t) { u with mpFifo := [], mpaCredits := 4, mpbCredits := 4 }))
    ∧ (b.boot.vdd = true → 7 ≤ b.boot.step → noEntropy b = false → holding b 21 = false → retired b 8 = false → Gives .entropyFail s
        (ev evEntropyFail 8 [] { b with boot := { b.boot with entropyPaused := true } }))
    ∧ (b.boot.vdd = true → holding b 21 = false →
      (b.boot.entropyPaused = false → ∀ p, Gives (.entropyRestartDone p) s b)
      ∧ (b.boot.entropyPaused = true → b.live = [] →
        Gives (.entropyRestartDone true) s { b with boot := { b.boot with entropyPaused := false } }
        ∧ (b.boot.entropyRestarts < 2 → Gives (.entropyRestartDone false) s
            { b with boot := { b.boot with entropyRestarts := b.boot.entropyRestarts + 1 } })
        ∧ (2 ≤ b.boot.entropyRestarts → (∀ l, (b.lane l).jobs = []) → Gives (.entropyRestartDone false) s
            { b with boot := { b.boot with entropyRestarts := 3, entropyPaused := false, entropyStopped := true } })))
    ∧ (b.boot.ready = true → holding b 20 = false →
      (∃ t, exec (.wearScheduledMeasurement gs) s = .next t ∧ t.blk.wearDue = max b.now b.wearDue + 86400000000 ∧ awake t.blk
        ∧ t.clk.ratio = s.clk.ratio
        ∧ (∀ n : Fin 22, let x := gs.get n
          (holding b n.val = true → (t.blk.wear.get n.val).rerun = true)
          ∧ (holding b n.val = false → (t.blk.wear.get n.val).rerun = false ∧ (t.blk.wear.get n.val).margin
              = (rerateGo 15 (marginOf (tjNow x.oscLo x.oscHi) x) (s.clk.ratio.get n.val)).1))
        ∧ (∀ n, t.clk.target.get n ≤ s.clk.target.get n) ∧ t.fuse = s.fuse ∧ t.blk.tack.groomNext = groomFor (t.blk.wear.get 19).tjAvg)
      ∧ (∀ (n : Fin 22) (g : Gauges) (t0 : Nat), (b.wear.get n.val).rerunAt = some t0 → holding b n.val = false →
        let x := rerateGo 15 (marginOf (tjNow g.oscLo g.oscHi) g) (s.clk.ratio.get n.val)
        ∃ t, exec (.wearMeasurementRerun n g) s = .next t ∧ awake t.blk ∧ t.blk.now = max b.now t0
          ∧ (t.blk.wear.get n.val).rerun = false ∧ (t.blk.wear.get n.val).rerunAt = none ∧ (t.blk.wear.get n.val).margin = x.1
          ∧ t.clk = { s.clk with target := s.clk.target.set n.val (min (s.clk.target.get n.val) x.2) } ∧ t.fuse = s.fuse)
      ∧ (∀ (n : Fin 22) (g : Gauges), (b.wear.get n.val).rerunAt = none → exec (.wearMeasurementRerun n g) s = .next s)
      ∧ (∀ r : Vector (Nat × Nat) 22, let now := max b.now b.tempDue
        ∃ t, Gives (.temperatureSample r) s t ∧ t.now = now ∧ t.tempDue = now + 60000000 ∧ awake t
          ∧ ∀ n : Fin 22, let w := b.wear.get n.val
            let h := ((now, tjNow (r.get n).1 (r.get n).2) :: w.hist).filter fun x => decide (now < x.1 + 86400000000)
            t.wear.get n.val = { w with hist := h, tjAvg := (h.map Prod.snd).sum / h.length }))
    ∧ (∀ (mg : Int) (r : Nat), LegalRatio r → let x := rerateGo 15 mg r
        LegalRatio x.2 ∧ x.2 ≤ r ∧ (30 ≤ x.1 ∨ x.2 = 70) ∧ (30 ≤ mg → x = (mg, r)))
    ∧ (∀ n : Fin 22, (holding b n.val = true → exec (.clockRatioChange n) s = .next s)
      ∧ (holding b n.val = false → exec (.clockRatioChange n) s
          = .next { s with clk := { s.clk with ratio := s.clk.ratio.set n.val (s.clk.target.get n.val), watched := s.clk.watched.set n.val (s.clk.target.get n.val) } }))

/-! ## Resets, start-up, power and the test port (R18, R150, R347, R370, R398, R474, R475, R516 to R525, R545 to R553) -/

/-- A reset empties the block and returns every clock to 100 %, keeping fuses and lean-to; a warm one records its cause and discards outstanding
responses. `lt_por_n` and the loss of both supplies clear the lean-to. Start-up senses the fuses, derives the keys and asks for the epoch, or
stops at the step that fails with every slot empty, and waits at step 1 for `vdd` and `clk_ref`; the epoch's answer, or its absence, raises `ready`,
after a hold of the yard or the yardmaster when it comes in one, and with five lanes or more out of service LANES_DEGRADED has then arrived; the cells 1, 2 and 3 are then asked for, each after the one before.
That a stopped start-up outlives a warm reset is the model's reading of R523 (log entry 101)
(R474, R475, R516 to R519, R523 to R525, R531, R534, R539, R548, R552, R553). -/
def Obligations.ResetsAndStartUp : Prop :=
  ∀ (s : State) (c : ColdCause) (o : StartObs), let b := s.blk
    let bare := fun (t : Block) (k : Nat) (stuck : Bool) => t.boot.step = k ∧ t.boot.ready = false ∧ t.boot.stopped = stuck ∧ t.jobs = { dflt := none }
      ∧ t.stalls = { dflt := {} } ∧ t.lanes = { dflt := {} } ∧ t.tack = {} ∧ t.ym = {} ∧ t.pack = {} ∧ t.curves = { dflt := {} }
      ∧ t.chutes = { dflt := {} } ∧ t.movers = { dflt := {} } ∧ t.holds = { dflt := none } ∧ t.dbFifo = [] ∧ t.rpFifo = [] ∧ t.mpFifo = []
      ∧ t.mpaCredits = 4 ∧ t.mpbCredits = 4 ∧ t.sb = none ∧ t.now = b.now
    let cleared := fun t : State => t.fuse = s.fuse ∧ t.clk = {} ∧ t.pending = s.pending
    let warm := fun (t : Block) (l : LeanTo) (cause : Nat) =>
      (if b.boot.stopped = true then bare t b.boot.step true ∧ t.boot.cause = b.boot.cause else bare t 2 false)
      ∧ t.lt = { l with resetCount := satAdd 32 l.resetCount 1, lastReset := BitVec.ofNat 16 cause }
      ∧ (∀ p, (t.port p).waiting = [] ∧ ∀ g ∈ (t.port p).out, g.req.owner = .discard)
      ∧ t.dp0.out.map Flight.tag = b.dp0.out.map Flight.tag ∧ t.dp1.out.map Flight.tag = b.dp1.out.map Flight.tag
      ∧ t.rp.out.map Flight.tag = (b.rp.out.filter fun g => !b.rpFifo.any fun a => a.1 == g.tag).map Flight.tag
      ∧ t.sbDrop = b.sbDrop + b.sb.isSome.toNat
    let halted := fun (t : Block) (step cause : Nat) => t.boot.step = step ∧ t.boot.cause = cause ∧ t.boot.stopped = true ∧ t.boot.ready = b.boot.ready
      ∧ t.tack.sys = { dflt := {} }
    let since := if b.boot.obs.isSome then b.boot.bootTime else b.now
    (∃ t, exec (.coldReset c) s = .next t ∧ cleared t ∧ bare t.blk 1 false ∧ t.blk.lt = b.lt ∧ t.blk.boot.vdd = (b.boot.vdd || c == .vdd)
        ∧ (c = .rstN → t.blk.boot.tapOut = 0) ∧ ∀ p, t.blk.port p = {})
    ∧ (b.boot.warmDue = true → lifecycleWritten b = true → ∃ t, exec .warmReset s = .next t ∧ cleared t ∧ warm t.blk b.lt 0xFF01)
    ∧ (b.boot.warmDue = false ∨ lifecycleWritten b = false → exec .warmReset s = .next s)
    ∧ (b.boot.scan = true → ∃ t, exec .scanModeFall s = .next t ∧ cleared t ∧ warm t.blk b.lt 0xFF03)
    ∧ (b.boot.scan = false → exec .scanModeFall s = .next s)
    ∧ (b.boot.vdd = true → ∃ t, exec .ltReset s = .next t ∧ cleared t ∧ warm t.blk {} 0xFF02 ∧ t.blk.boot.vbk = true)
    ∧ (b.boot.vdd = false → Gives .ltReset s { b with lt := {}, boot := { b.boot with vbk := true } })
    ∧ (∃ t, exec .vddRemove s = .next t ∧ cleared t ∧ bare t.blk 1 false ∧ t.blk.boot.vdd = false ∧ t.blk.boot.backup = true
        ∧ t.blk.lt = { b.lt with fifo := b.lt.fifo.filter fun e => e.source < 8 })
    ∧ (b.boot.vdd = false → Gives .vbkLoss s { b with lt := {}, boot := { b.boot with vbk := false } })
    ∧ (b.boot.vdd = true → Gives .vbkLoss s b)
    ∧ (mayBoot b = false → exec (.startUp o) s = .next s)
    ∧ (mayBoot b = true → b.boot.step = 1 → b.boot.clkRef = false ∨ o.vddOk = false →
        Gives (.startUp o) s { b with boot := { b.boot with obs := some o, vddOk := o.vddOk, cause := 1, bootTime := since } })
    ∧ (mayBoot b = true → (b.boot.clkRef = true ∧ o.vddOk = true) ∨ b.boot.step = 2 →
      (vital o.lockFails = true → ∃ t, Gives (.startUp o) s t ∧ halted t 3 2)
      ∧ (vital o.lockFails = false → vital o.sramFails = true → ∃ t, Gives (.startUp o) s t ∧ halted t 4 3)
      ∧ (vital o.lockFails = false → vital o.sramFails = false → o.romOk = false → ∃ t, exec (.startUp o) s = .next t ∧ t.fuse = s.fuse ∧ halted t.blk 8 4)
      ∧ (o.lockFails = [] → o.sramFails = [] → o.entropyOk = true → o.lifecycle = .agree → o.romOk = true → b.boot.entropyStopped = false →
          b.sb = none → b.sbQueue = [] → b.sbDrop = 0 → b.portDrain = false → ∃ u, exec (.startUp o) s = .next u
        ∧ u.fuse = s.fuse ∧ u.pending = s.pending ∧ u.clk.ratio = s.clk.ratio ∧ (let t := u.blk
          t.sensed = sense s.fuse ∧ t.boot.step = 9 ∧ t.boot.sealClear = true ∧ t.boot.bootTime = since ∧ t.now = b.now + o.elapsed
          ∧ t.sb = some { user := .boot, op := 1, cell := 0, arg := 1, since := b.now + o.elapsed } ∧ t.lt.latchKey ≠ none
          ∧ (t.lt.mesh.get 0).seeded = true ∧ (t.lt.mesh.get 1).seeded = true
          ∧ (∀ key, b.lt.latchKey = some key → t.lt.latchKey = some key)
          ∧ (∀ key, barnOf t = some key → (t.tack.sys.get 0).content = key)
          ∧ (∀ n : Fin 22, let x := o.gauges.get n
              (t.wear.get n.val).margin = (rerateGo 15 (marginOf (tjNow x.oscLo x.oscHi) x) (s.clk.ratio.get n.val)).1))))
    ∧ (b.boot.obs = none → Gives .clkRefWithinRange s { b with boot := { b.boot with clkRef := b.boot.vdd, vddOk := b.boot.vdd } })
    ∧ (mayBoot b = false → Gives .clkRefWithinRange s { b with boot := { b.boot with clkRef := b.boot.vdd, vddOk := b.boot.vdd } })
    ∧ (b.boot.obs = some o → mayBoot b = true → o.vddOk = true → ∃ t, exec .clkRefWithinRange s = .next t
        ∧ exec (.startUp o) { s with blk := { b with boot := { b.boot with clkRef := true, vddOk := true } } } = .next t)
    ∧ (∀ q v, b.sb = some q → q.user = .boot → b.sbQueue = [] → b.sbDrop = 0 → b.portDrain = false → holding b 0 = true ∨ holding b 20 = true →
      let due := fun (a : Option Nat) (t : Block) => { t with sb := none, boot := { t.boot with epochDue := some a } }
      Gives (.sbResponse false false v) s (due (some v.toNat) b) ∧ Gives (.sbResponse false true v) s (due none b)
      ∧ Gives .studbookTimeout s (due none { b with sbDrop := 1, now := max b.now (q.since + 50000) }))
    ∧ (∀ (u : Block) (a : Option Nat), u.boot.epochDue = some a →
      (holding u 0 = true ∨ holding u 20 = true → epochGoesOn u = u)
      ∧ (holding u 0 = false → holding u 20 = false → lanesFenced u < 5 → (epochGoesOn u).boot.ready = true ∧ (epochGoesOn u).boot.epochDue = none
        ∧ (epochGoesOn u).boot.readyAt = u.now ∧ ∀ n, a = some n → n < 2 ^ 32 → (epochGoesOn u).boot.epoch = n))
    ∧ (∀ q v, b.sb = some q → q.user = .boot → b.sbQueue = [] → b.sbDrop = 0 → b.portDrain = false → holding b 0 = false → holding b 20 = false →
      let up := fun (t : Block) (epoch why : Nat) => t.boot.ready = true ∧ t.boot.step = 10 ∧ t.boot.nonceState = why
        ∧ t.boot.noEpoch = (b.boot.noEpoch || why != 0) ∧ t.boot.epoch = epoch ∧ t.rerates = 0
        ∧ t.wearDue = t.boot.readyAt + 86400000000 ∧ t.tempDue = t.boot.readyAt + 60000000
        ∧ ∀ k : Fin 4, t.timers.get k.val = ((b.timers.get k.val).1, t.boot.readyAt + (b.timers.get k.val).1)
      let risen := startTimers { b with
        sb := none, rerates := 0, wearDue := b.now + 86400000000, tempDue := b.now + 60000000
        boot := { b.boot with epoch := v.toNat, nonceState := 0, step := 10, ready := true, readyAt := b.now, bootTime := b.now - b.boot.bootTime } }
      let ask := fun (o : Option SbOp) => o.map (fun x => (x.user, x.op, x.cell)) = some (.afterReady 1, 0, 1)
      let asked := fun t : Block => ask t.sb ∧ t.sbQueue = []
      (5 ≤ lanesFenced b → v.toNat < 2 ^ 32 → Gives (.sbResponse false false v) s (sbPump (sbAsk { user := .afterReady 1, cell := 1 }
        (each (withEvent evLanesDegraded [] risen).lt.fifo (fun _ => arrive) (withEvent evLanesDegraded [] risen)))))
      ∧ (lanesFenced b < 5 → v.toNat < 2 ^ 32 → ∃ t, Gives (.sbResponse false false v) s t ∧ up t v.toNat 0 ∧ t.boot.readyAt = b.now ∧ asked t)
      ∧ (lanesFenced b < 5 → 2 ^ 32 ≤ v.toNat → ∃ t, Gives (.sbResponse false false v) s t ∧ up t b.boot.epoch 2 ∧ t.boot.readyAt = b.now ∧ asked t)
      ∧ (lanesFenced b < 5 → ∃ t, Gives (.sbResponse false true v) s t ∧ up t b.boot.epoch 1 ∧ t.boot.readyAt = b.now ∧ asked t)
      ∧ (lanesFenced b < 5 → ∃ t, Gives .studbookTimeout s t ∧ up t b.boot.epoch 1 ∧ t.boot.readyAt = max b.now (q.since + 50000)
          ∧ t.sbDrop = 1 ∧ t.sb = none ∧ ask t.sbQueue.head?))
    ∧ (∀ q v k, b.sb = some q → q.user = .afterReady k → k < 3 → b.sbQueue = [] → b.sbDrop = 0 → b.portDrain = false → ∃ t, Gives (.sbResponse false false v) s t
        ∧ t.sb.map (fun x => (x.user, x.op, x.cell)) = some (.afterReady (k + 1), 0, k + 1))

/-- The studbook's answer to a command is kept with it, and a failure or 50 ms without an answer as a failure; late answers are discarded. A paused
burn whose command is gone goes on when `vfz` is back, as do the items of an OD_WRITE that was cut off in one. The yard falls asleep after an idle
delay and wakes on `wake_in`, neither of them in a hold; Nartia's island is gated when it has nothing to do. The test port answers IDCODE always
and others only while open, `tap_trst_n` resets it, and its first scan or BIST, under an instruction that gives it, zeroes key state
(R18, R146, R354, R370, R373, R387, R398, R534, R545, R549 to R551, R555). The model's choices: an open port's other instruction changes nothing
but its register and a free value (log entry 50), cell 2 is read again after a lost ADVANCE (42), a wake in a yard hold is kept (40), the idle
delay is added to `now` (8), the cut-off items are finished (119). -/
def Obligations.AnswersSuppliesAndTestAccess : Prop :=
  ∀ (s : State) (how : Burn) (code : BitVec 8) (k : ScanKind), let b := s.blk
    (∀ e v, Gives (.sbResponse true e v) s (drained (sbPump { b with sbDrop := b.sbDrop - 1 }))
        ∧ (b.sbQueue = [] → b.portDrain = false → Gives (.sbResponse true e v) s { b with sbDrop := b.sbDrop - 1 })
        ∧ (b.sb = none → Gives (.sbResponse false e v) s b))
    ∧ (∀ (q : SbOp) (t : Block), let lost := cellRead q none t
      (∀ v, cellRead q (some v) t = if q.cell = 1 then { t with tack := { t.tack with updateCounter := v, counterKnown := true } }
          else if q.cell = 3 then { t with floor := v }
          else if 4 ≤ q.cell then { t with tack := { t.tack with cells := t.tack.cells.mod q.cell fun x => { x with value := v } } } else t)
      ∧ (q.op = 0 → lost = t) ∧ (q.op ≠ 0 → q.cell = 1 → lost = { t with tack := { t.tack with counterKnown := false } })
      ∧ (q.op ≠ 0 → q.cell = 2 → lost = { t with ym := { t.ym with gate := { t.ym.gate with reread := true } } })
      ∧ (q.op ≠ 0 → q.cell ≠ 1 → q.cell ≠ 2 → lost = t))
    ∧ (∀ q id v, b.sb = some q → q.user = .cmd id → b.sbQueue = [] →
      let told := fun (t : Block) (a : Option Nat) =>
        modCmd id (fun c => { c with sb := if a = none then 3 else 2, sbVal := a.getD 0 }) (cellRead q a { t with sb := none })
      Gives (.sbResponse false false v) s (told b (some v.toNat)) ∧ Gives (.sbResponse false true v) s (told b none)
      ∧ Gives .studbookTimeout s (told { b with sbDrop := b.sbDrop + 1, now := max b.now (q.since + 50000) } none))
    ∧ (∀ q v, b.sb = some q → q.user = .gateRead → b.sbQueue = [] → b.boot.readyAt + lockoutUs (v.toNat % 256) ≤ b.now →
      Gives (.sbResponse false false v) s { b with sb := none, ym := { b.ym with gate := { b.ym.gate with
        cell := v.toNat, fails := v.toNat % 256, known := true, retry := false, lockoutEnd := none } } })
    ∧ (b.sb = none → b.sbQueue = [] → Gives .studbookTimeout s b)
    ∧ (∀ q id, b.sb = none → b.sbQueue = [q] → q.user = .cmd id → Gives .studbookTimeout s
        (modCmd id (fun c => { c with sb := 3, sbVal := 0 }) (cellRead q none { b with sbQueue := [], now := max b.now (q.since + 50000) })))
    ∧ (b.boot.vdd = false → exec (.vfzWithinRange how) s = .next s)
    ∧ (b.boot.vdd = true →
      (b.boot.burnLeft = none → (∀ c ∈ b.ym.changesDue, c.op ≠ 0x0502) → Gives (.vfzWithinRange how) s { b with boot := { b.boot with vfz := true } })
      ∧ (∀ c, b.boot.burnLeft = none → b.ym.changesDue = [c] → c.op = 0x0502 → anyHold b = false →
        let r := itemsFrom how c 66 c.note true { s with blk := { b with boot := { b.boot with vfz := true }, ym := { b.ym with changesDue := [] } } }
        (r.2.2 ≠ none → exec (.vfzWithinRange how) s = .next r.1)
        ∧ (r.2.2 = none → exec (.vfzWithinRange how) s = .next { r.1 with blk := { r.1.blk with ym := { r.1.blk.ym with
            changesDue := r.1.blk.ym.changesDue ++ [{ c with note := r.2.1 }] } } }))
      ∧ (∀ x, b.boot.burnLeft = some (.roots, x) → anyHold b = false →
        ∃ t, exec (.vfzWithinRange how) s = .next t ∧ s.fuse.le t.fuse ∧ t.blk.sensed.spent = .roots :: b.sensed.spent
          ∧ (how = .good → t.fuse = { s.fuse with roots := s.fuse.roots ||| BitVec.ofNat 2048 (burnMask .roots x) } ∧ t.blk.boot.burnLeft = none)
          ∧ (how = .bad → t.blk.boot.burnLeft = none)
          ∧ (how = .vfzLost → t.blk.boot.vfz = false ∧ t.blk.boot.burnLeft = some (.roots, x))))
    ∧ (b.boot.ready = true → anyHold b = true → Gives .wakeIn s b ∧ Gives .sleepEnter s b)
    ∧ (∀ u : Block, wake u = { u with boot := if holding u 0 = true then { u.boot with wakeDue := true } else { u.boot with asleep := false } })
    ∧ (b.boot.ready = true → anyHold b = false →
      Gives .wakeIn s { b with boot := { b.boot with asleep := false } }
      ∧ (isActive b = false → b.boot.asleep = false → Gives .sleepEnter s
          { b with now := b.now + b.ym.sleepDelay, boot := { b.boot with asleep := true } })
      ∧ (isActive b = true ∨ b.boot.asleep = true → Gives .sleepEnter s b))
    ∧ (b.boot.ready = true → holding b 20 = false →
      (ymIdleNow b = true → b.ym.gated = false → Gives .ymPowerGate s { b with now := b.now + b.ym.idleTime, ym := { b.ym with gated := true } })
      ∧ (ymIdleNow b = false ∨ b.ym.gated = true → Gives .ymPowerGate s b))
    ∧ (b.boot.vdd = true →
      let runs := fun (ir : TapIr) (out : BitVec 32) => { b with boot := { b.boot with tapState := .runTestIdle, tapIr := ir, tapOut := out } }
      Gives (.tapInstruction .trst) s { b with boot := { b.boot with tapState := .testLogicReset, tapIr := .idcode } }
      ∧ Gives (.tapInstruction .idcode) s (runs .idcode 0x4D424F41) ∧ Gives (.tapInstruction .bypass) s (runs .bypass 0)
      ∧ (tapOpen b = false → Gives (.tapInstruction (.other code)) s (runs .bypass 0))
      ∧ (tapOpen b = true → Gives (.tapInstruction (.other code)) s
          { runs (.other code) (BitVec.ofNat 32 (Config.freeNat b.free)) with free := b.free + 1 }))
    ∧ (tapDeep b = true ↔ tapOpen b = true ∧ ∃ c, b.boot.tapIr = .other c)
    ∧ (tapDeep b = false → Gives (.scanAccess k) s b)
    ∧ (tapDeep b = true →
      let scanned := fun t : Block => if k = .scan then { t with boot := { t.boot with scan := true } } else t
      (b.boot.scanUsed = true → Gives (.scanAccess k) s (scanned b))
      ∧ (b.boot.scanUsed = false →
        let z := zeroSlots { b with boot := { b.boot with scanUsed := true } }
        Gives (.scanAccess k) s (scanned (withEvent evDebugOpened [] (zeroPages (purgeJobs z)))) ∧ z.tack.sys = { dflt := {} }
        ∧ (∀ x ∈ b.tack.slots.ents, (z.slot x.1).occupied = false) ∧ (∀ x ∈ b.tack.stallKeys.ents, (z.sk x.1).state = 0)
        ∧ ∀ t n r, (∃ q, (n, q) ∈ t.stalls.ents) → r < 4 → ((zeroPages t).ring n r).page.hitch = {} ∧ ((zeroPages t).ring n r).page.recovery = {}))
end

