-- ==== Sys2Proof/Laws/State.lean ====
section
/-!
SUPPORT. One lemma per field of the block and per update, true by `rfl`: a later proof never unfolds a record update.
-/

namespace Sys2Proof.Machine

variable (b : Block)

section modStall
variable (n : Nat) (f : Stall → Stall)
@[simp] theorem modStall_boot : (modStall n f b).boot = b.boot := rfl
@[simp] theorem modStall_sensed : (modStall n f b).sensed = b.sensed := rfl
@[simp] theorem modStall_lt : (modStall n f b).lt = b.lt := rfl
@[simp] theorem modStall_sb : (modStall n f b).sb = b.sb := rfl
@[simp] theorem modStall_sbQueue : (modStall n f b).sbQueue = b.sbQueue := rfl
@[simp] theorem modStall_sbDrop : (modStall n f b).sbDrop = b.sbDrop := rfl
@[simp] theorem modStall_stalls : (modStall n f b).stalls = b.stalls.mod n f := rfl
@[simp] theorem modStall_jobs : (modStall n f b).jobs = b.jobs := rfl
@[simp] theorem modStall_serial : (modStall n f b).serial = b.serial := rfl
@[simp] theorem modStall_hitchSerial : (modStall n f b).hitchSerial = b.hitchSerial := rfl
@[simp] theorem modStall_rrDispatch : (modStall n f b).rrDispatch = b.rrDispatch := rfl
@[simp] theorem modStall_deficit : (modStall n f b).deficit = b.deficit := rfl
@[simp] theorem modStall_rrEngine : (modStall n f b).rrEngine = b.rrEngine := rfl
@[simp] theorem modStall_lanes : (modStall n f b).lanes = b.lanes := rfl
@[simp] theorem modStall_digestJobs : (modStall n f b).digestJobs = b.digestJobs := rfl
@[simp] theorem modStall_digestHitches : (modStall n f b).digestHitches = b.digestHitches := rfl
@[simp] theorem modStall_islands : (modStall n f b).islands = b.islands := rfl
@[simp] theorem modStall_cores : (modStall n f b).cores = b.cores := rfl
@[simp] theorem modStall_coreJobs : (modStall n f b).coreJobs = b.coreJobs := rfl
@[simp] theorem modStall_unwrapJobs : (modStall n f b).unwrapJobs = b.unwrapJobs := rfl
@[simp] theorem modStall_unwrapLeft : (modStall n f b).unwrapLeft = b.unwrapLeft := rfl
@[simp] theorem modStall_randomJob : (modStall n f b).randomJob = b.randomJob := rfl
@[simp] theorem modStall_unwrapFenced : (modStall n f b).unwrapFenced = b.unwrapFenced := rfl
@[simp] theorem modStall_entropyFenced : (modStall n f b).entropyFenced = b.entropyFenced := rfl
@[simp] theorem modStall_bridgesFenced : (modStall n f b).bridgesFenced = b.bridgesFenced := rfl
@[simp] theorem modStall_pack : (modStall n f b).pack = b.pack := rfl
@[simp] theorem modStall_floor : (modStall n f b).floor = b.floor := rfl
@[simp] theorem modStall_curves : (modStall n f b).curves = b.curves := rfl
@[simp] theorem modStall_tack : (modStall n f b).tack = b.tack := rfl
@[simp] theorem modStall_ym : (modStall n f b).ym = b.ym := rfl
@[simp] theorem modStall_chutes : (modStall n f b).chutes = b.chutes := rfl
@[simp] theorem modStall_movers : (modStall n f b).movers = b.movers := rfl
@[simp] theorem modStall_timers : (modStall n f b).timers = b.timers := rfl
@[simp] theorem modStall_dp0 : (modStall n f b).dp0 = b.dp0 := rfl
@[simp] theorem modStall_dp1 : (modStall n f b).dp1 = b.dp1 := rfl
@[simp] theorem modStall_rp : (modStall n f b).rp = b.rp := rfl
@[simp] theorem modStall_portDrain : (modStall n f b).portDrain = b.portDrain := rfl
@[simp] theorem modStall_holds : (modStall n f b).holds = b.holds := rfl
@[simp] theorem modStall_wear : (modStall n f b).wear = b.wear := rfl
@[simp] theorem modStall_rerates : (modStall n f b).rerates = b.rerates := rfl
@[simp] theorem modStall_wearDue : (modStall n f b).wearDue = b.wearDue := rfl
@[simp] theorem modStall_tempDue : (modStall n f b).tempDue = b.tempDue := rfl
@[simp] theorem modStall_dbFifo : (modStall n f b).dbFifo = b.dbFifo := rfl
@[simp] theorem modStall_rpFifo : (modStall n f b).rpFifo = b.rpFifo := rfl
@[simp] theorem modStall_dbCredits : (modStall n f b).dbCredits = b.dbCredits := rfl
@[simp] theorem modStall_dbRdata : (modStall n f b).dbRdata = b.dbRdata := rfl
@[simp] theorem modStall_mpaCredits : (modStall n f b).mpaCredits = b.mpaCredits := rfl
@[simp] theorem modStall_mpbCredits : (modStall n f b).mpbCredits = b.mpbCredits := rfl
@[simp] theorem modStall_mpFifo : (modStall n f b).mpFifo = b.mpFifo := rfl
@[simp] theorem modStall_draws : (modStall n f b).draws = b.draws := rfl
@[simp] theorem modStall_free : (modStall n f b).free = b.free := rfl
@[simp] theorem modStall_now : (modStall n f b).now = b.now := rfl
end modStall

section modRing
variable (n r : Nat) (f : Ring → Ring)
@[simp] theorem modRing_boot : (modRing n r f b).boot = b.boot := rfl
@[simp] theorem modRing_sensed : (modRing n r f b).sensed = b.sensed := rfl
@[simp] theorem modRing_lt : (modRing n r f b).lt = b.lt := rfl
@[simp] theorem modRing_sb : (modRing n r f b).sb = b.sb := rfl
@[simp] theorem modRing_sbQueue : (modRing n r f b).sbQueue = b.sbQueue := rfl
@[simp] theorem modRing_sbDrop : (modRing n r f b).sbDrop = b.sbDrop := rfl
@[simp] theorem modRing_stalls : (modRing n r f b).stalls = b.stalls.mod n fun s => { s with rings := s.rings.mod r f } := rfl
@[simp] theorem modRing_jobs : (modRing n r f b).jobs = b.jobs := rfl
@[simp] theorem modRing_serial : (modRing n r f b).serial = b.serial := rfl
@[simp] theorem modRing_hitchSerial : (modRing n r f b).hitchSerial = b.hitchSerial := rfl
@[simp] theorem modRing_rrDispatch : (modRing n r f b).rrDispatch = b.rrDispatch := rfl
@[simp] theorem modRing_deficit : (modRing n r f b).deficit = b.deficit := rfl
@[simp] theorem modRing_rrEngine : (modRing n r f b).rrEngine = b.rrEngine := rfl
@[simp] theorem modRing_lanes : (modRing n r f b).lanes = b.lanes := rfl
@[simp] theorem modRing_digestJobs : (modRing n r f b).digestJobs = b.digestJobs := rfl
@[simp] theorem modRing_digestHitches : (modRing n r f b).digestHitches = b.digestHitches := rfl
@[simp] theorem modRing_islands : (modRing n r f b).islands = b.islands := rfl
@[simp] theorem modRing_cores : (modRing n r f b).cores = b.cores := rfl
@[simp] theorem modRing_coreJobs : (modRing n r f b).coreJobs = b.coreJobs := rfl
@[simp] theorem modRing_unwrapJobs : (modRing n r f b).unwrapJobs = b.unwrapJobs := rfl
@[simp] theorem modRing_unwrapLeft : (modRing n r f b).unwrapLeft = b.unwrapLeft := rfl
@[simp] theorem modRing_randomJob : (modRing n r f b).randomJob = b.randomJob := rfl
@[simp] theorem modRing_unwrapFenced : (modRing n r f b).unwrapFenced = b.unwrapFenced := rfl
@[simp] theorem modRing_entropyFenced : (modRing n r f b).entropyFenced = b.entropyFenced := rfl
@[simp] theorem modRing_bridgesFenced : (modRing n r f b).bridgesFenced = b.bridgesFenced := rfl
@[simp] theorem modRing_pack : (modRing n r f b).pack = b.pack := rfl
@[simp] theorem modRing_floor : (modRing n r f b).floor = b.floor := rfl
@[simp] theorem modRing_curves : (modRing n r f b).curves = b.curves := rfl
@[simp] theorem modRing_tack : (modRing n r f b).tack = b.tack := rfl
@[simp] theorem modRing_ym : (modRing n r f b).ym = b.ym := rfl
@[simp] theorem modRing_chutes : (modRing n r f b).chutes = b.chutes := rfl
@[simp] theorem modRing_movers : (modRing n r f b).movers = b.movers := rfl
@[simp] theorem modRing_timers : (modRing n r f b).timers = b.timers := rfl
@[simp] theorem modRing_dp0 : (modRing n r f b).dp0 = b.dp0 := rfl
@[simp] theorem modRing_dp1 : (modRing n r f b).dp1 = b.dp1 := rfl
@[simp] theorem modRing_rp : (modRing n r f b).rp = b.rp := rfl
@[simp] theorem modRing_portDrain : (modRing n r f b).portDrain = b.portDrain := rfl
@[simp] theorem modRing_holds : (modRing n r f b).holds = b.holds := rfl
@[simp] theorem modRing_wear : (modRing n r f b).wear = b.wear := rfl
@[simp] theorem modRing_rerates : (modRing n r f b).rerates = b.rerates := rfl
@[simp] theorem modRing_wearDue : (modRing n r f b).wearDue = b.wearDue := rfl
@[simp] theorem modRing_tempDue : (modRing n r f b).tempDue = b.tempDue := rfl
@[simp] theorem modRing_dbFifo : (modRing n r f b).dbFifo = b.dbFifo := rfl
@[simp] theorem modRing_rpFifo : (modRing n r f b).rpFifo = b.rpFifo := rfl
@[simp] theorem modRing_dbCredits : (modRing n r f b).dbCredits = b.dbCredits := rfl
@[simp] theorem modRing_dbRdata : (modRing n r f b).dbRdata = b.dbRdata := rfl
@[simp] theorem modRing_mpaCredits : (modRing n r f b).mpaCredits = b.mpaCredits := rfl
@[simp] theorem modRing_mpbCredits : (modRing n r f b).mpbCredits = b.mpbCredits := rfl
@[simp] theorem modRing_mpFifo : (modRing n r f b).mpFifo = b.mpFifo := rfl
@[simp] theorem modRing_draws : (modRing n r f b).draws = b.draws := rfl
@[simp] theorem modRing_free : (modRing n r f b).free = b.free := rfl
@[simp] theorem modRing_now : (modRing n r f b).now = b.now := rfl
end modRing

section modJob
variable (j : Nat) (f : Job → Job)
@[simp] theorem modJob_boot : (modJob j f b).boot = b.boot := rfl
@[simp] theorem modJob_sensed : (modJob j f b).sensed = b.sensed := rfl
@[simp] theorem modJob_lt : (modJob j f b).lt = b.lt := rfl
@[simp] theorem modJob_sb : (modJob j f b).sb = b.sb := rfl
@[simp] theorem modJob_sbQueue : (modJob j f b).sbQueue = b.sbQueue := rfl
@[simp] theorem modJob_sbDrop : (modJob j f b).sbDrop = b.sbDrop := rfl
@[simp] theorem modJob_stalls : (modJob j f b).stalls = b.stalls := rfl
@[simp] theorem modJob_jobs : (modJob j f b).jobs = b.jobs.mod j (Option.map f) := rfl
@[simp] theorem modJob_serial : (modJob j f b).serial = b.serial := rfl
@[simp] theorem modJob_hitchSerial : (modJob j f b).hitchSerial = b.hitchSerial := rfl
@[simp] theorem modJob_rrDispatch : (modJob j f b).rrDispatch = b.rrDispatch := rfl
@[simp] theorem modJob_deficit : (modJob j f b).deficit = b.deficit := rfl
@[simp] theorem modJob_rrEngine : (modJob j f b).rrEngine = b.rrEngine := rfl
@[simp] theorem modJob_lanes : (modJob j f b).lanes = b.lanes := rfl
@[simp] theorem modJob_digestJobs : (modJob j f b).digestJobs = b.digestJobs := rfl
@[simp] theorem modJob_digestHitches : (modJob j f b).digestHitches = b.digestHitches := rfl
@[simp] theorem modJob_islands : (modJob j f b).islands = b.islands := rfl
@[simp] theorem modJob_cores : (modJob j f b).cores = b.cores := rfl
@[simp] theorem modJob_coreJobs : (modJob j f b).coreJobs = b.coreJobs := rfl
@[simp] theorem modJob_unwrapJobs : (modJob j f b).unwrapJobs = b.unwrapJobs := rfl
@[simp] theorem modJob_unwrapLeft : (modJob j f b).unwrapLeft = b.unwrapLeft := rfl
@[simp] theorem modJob_randomJob : (modJob j f b).randomJob = b.randomJob := rfl
@[simp] theorem modJob_unwrapFenced : (modJob j f b).unwrapFenced = b.unwrapFenced := rfl
@[simp] theorem modJob_entropyFenced : (modJob j f b).entropyFenced = b.entropyFenced := rfl
@[simp] theorem modJob_bridgesFenced : (modJob j f b).bridgesFenced = b.bridgesFenced := rfl
@[simp] theorem modJob_pack : (modJob j f b).pack = b.pack := rfl
@[simp] theorem modJob_floor : (modJob j f b).floor = b.floor := rfl
@[simp] theorem modJob_curves : (modJob j f b).curves = b.curves := rfl
@[simp] theorem modJob_tack : (modJob j f b).tack = b.tack := rfl
@[simp] theorem modJob_ym : (modJob j f b).ym = b.ym := rfl
@[simp] theorem modJob_chutes : (modJob j f b).chutes = b.chutes := rfl
@[simp] theorem modJob_movers : (modJob j f b).movers = b.movers := rfl
@[simp] theorem modJob_timers : (modJob j f b).timers = b.timers := rfl
@[simp] theorem modJob_dp0 : (modJob j f b).dp0 = b.dp0 := rfl
@[simp] theorem modJob_dp1 : (modJob j f b).dp1 = b.dp1 := rfl
@[simp] theorem modJob_rp : (modJob j f b).rp = b.rp := rfl
@[simp] theorem modJob_portDrain : (modJob j f b).portDrain = b.portDrain := rfl
@[simp] theorem modJob_holds : (modJob j f b).holds = b.holds := rfl
@[simp] theorem modJob_wear : (modJob j f b).wear = b.wear := rfl
@[simp] theorem modJob_rerates : (modJob j f b).rerates = b.rerates := rfl
@[simp] theorem modJob_wearDue : (modJob j f b).wearDue = b.wearDue := rfl
@[simp] theorem modJob_tempDue : (modJob j f b).tempDue = b.tempDue := rfl
@[simp] theorem modJob_dbFifo : (modJob j f b).dbFifo = b.dbFifo := rfl
@[simp] theorem modJob_rpFifo : (modJob j f b).rpFifo = b.rpFifo := rfl
@[simp] theorem modJob_dbCredits : (modJob j f b).dbCredits = b.dbCredits := rfl
@[simp] theorem modJob_dbRdata : (modJob j f b).dbRdata = b.dbRdata := rfl
@[simp] theorem modJob_mpaCredits : (modJob j f b).mpaCredits = b.mpaCredits := rfl
@[simp] theorem modJob_mpbCredits : (modJob j f b).mpbCredits = b.mpbCredits := rfl
@[simp] theorem modJob_mpFifo : (modJob j f b).mpFifo = b.mpFifo := rfl
@[simp] theorem modJob_draws : (modJob j f b).draws = b.draws := rfl
@[simp] theorem modJob_free : (modJob j f b).free = b.free := rfl
@[simp] theorem modJob_now : (modJob j f b).now = b.now := rfl
end modJob

section modLane
variable (l : Nat) (f : Lane → Lane)
@[simp] theorem modLane_boot : (modLane l f b).boot = b.boot := rfl
@[simp] theorem modLane_sensed : (modLane l f b).sensed = b.sensed := rfl
@[simp] theorem modLane_lt : (modLane l f b).lt = b.lt := rfl
@[simp] theorem modLane_sb : (modLane l f b).sb = b.sb := rfl
@[simp] theorem modLane_sbQueue : (modLane l f b).sbQueue = b.sbQueue := rfl
@[simp] theorem modLane_sbDrop : (modLane l f b).sbDrop = b.sbDrop := rfl
@[simp] theorem modLane_stalls : (modLane l f b).stalls = b.stalls := rfl
@[simp] theorem modLane_jobs : (modLane l f b).jobs = b.jobs := rfl
@[simp] theorem modLane_serial : (modLane l f b).serial = b.serial := rfl
@[simp] theorem modLane_hitchSerial : (modLane l f b).hitchSerial = b.hitchSerial := rfl
@[simp] theorem modLane_rrDispatch : (modLane l f b).rrDispatch = b.rrDispatch := rfl
@[simp] theorem modLane_deficit : (modLane l f b).deficit = b.deficit := rfl
@[simp] theorem modLane_rrEngine : (modLane l f b).rrEngine = b.rrEngine := rfl
@[simp] theorem modLane_lanes : (modLane l f b).lanes = b.lanes.mod l f := rfl
@[simp] theorem modLane_digestJobs : (modLane l f b).digestJobs = b.digestJobs := rfl
@[simp] theorem modLane_digestHitches : (modLane l f b).digestHitches = b.digestHitches := rfl
@[simp] theorem modLane_islands : (modLane l f b).islands = b.islands := rfl
@[simp] theorem modLane_cores : (modLane l f b).cores = b.cores := rfl
@[simp] theorem modLane_coreJobs : (modLane l f b).coreJobs = b.coreJobs := rfl
@[simp] theorem modLane_unwrapJobs : (modLane l f b).unwrapJobs = b.unwrapJobs := rfl
@[simp] theorem modLane_unwrapLeft : (modLane l f b).unwrapLeft = b.unwrapLeft := rfl
@[simp] theorem modLane_randomJob : (modLane l f b).randomJob = b.randomJob := rfl
@[simp] theorem modLane_unwrapFenced : (modLane l f b).unwrapFenced = b.unwrapFenced := rfl
@[simp] theorem modLane_entropyFenced : (modLane l f b).entropyFenced = b.entropyFenced := rfl
@[simp] theorem modLane_bridgesFenced : (modLane l f b).bridgesFenced = b.bridgesFenced := rfl
@[simp] theorem modLane_pack : (modLane l f b).pack = b.pack := rfl
@[simp] theorem modLane_floor : (modLane l f b).floor = b.floor := rfl
@[simp] theorem modLane_curves : (modLane l f b).curves = b.curves := rfl
@[simp] theorem modLane_tack : (modLane l f b).tack = b.tack := rfl
@[simp] theorem modLane_ym : (modLane l f b).ym = b.ym := rfl
@[simp] theorem modLane_chutes : (modLane l f b).chutes = b.chutes := rfl
@[simp] theorem modLane_movers : (modLane l f b).movers = b.movers := rfl
@[simp] theorem modLane_timers : (modLane l f b).timers = b.timers := rfl
@[simp] theorem modLane_dp0 : (modLane l f b).dp0 = b.dp0 := rfl
@[simp] theorem modLane_dp1 : (modLane l f b).dp1 = b.dp1 := rfl
@[simp] theorem modLane_rp : (modLane l f b).rp = b.rp := rfl
@[simp] theorem modLane_portDrain : (modLane l f b).portDrain = b.portDrain := rfl
@[simp] theorem modLane_holds : (modLane l f b).holds = b.holds := rfl
@[simp] theorem modLane_wear : (modLane l f b).wear = b.wear := rfl
@[simp] theorem modLane_rerates : (modLane l f b).rerates = b.rerates := rfl
@[simp] theorem modLane_wearDue : (modLane l f b).wearDue = b.wearDue := rfl
@[simp] theorem modLane_tempDue : (modLane l f b).tempDue = b.tempDue := rfl
@[simp] theorem modLane_dbFifo : (modLane l f b).dbFifo = b.dbFifo := rfl
@[simp] theorem modLane_rpFifo : (modLane l f b).rpFifo = b.rpFifo := rfl
@[simp] theorem modLane_dbCredits : (modLane l f b).dbCredits = b.dbCredits := rfl
@[simp] theorem modLane_dbRdata : (modLane l f b).dbRdata = b.dbRdata := rfl
@[simp] theorem modLane_mpaCredits : (modLane l f b).mpaCredits = b.mpaCredits := rfl
@[simp] theorem modLane_mpbCredits : (modLane l f b).mpbCredits = b.mpbCredits := rfl
@[simp] theorem modLane_mpFifo : (modLane l f b).mpFifo = b.mpFifo := rfl
@[simp] theorem modLane_draws : (modLane l f b).draws = b.draws := rfl
@[simp] theorem modLane_free : (modLane l f b).free = b.free := rfl
@[simp] theorem modLane_now : (modLane l f b).now = b.now := rfl
end modLane

section modIsland
variable (i : Nat) (f : DigestIsland → DigestIsland)
@[simp] theorem modIsland_boot : (modIsland i f b).boot = b.boot := rfl
@[simp] theorem modIsland_sensed : (modIsland i f b).sensed = b.sensed := rfl
@[simp] theorem modIsland_lt : (modIsland i f b).lt = b.lt := rfl
@[simp] theorem modIsland_sb : (modIsland i f b).sb = b.sb := rfl
@[simp] theorem modIsland_sbQueue : (modIsland i f b).sbQueue = b.sbQueue := rfl
@[simp] theorem modIsland_sbDrop : (modIsland i f b).sbDrop = b.sbDrop := rfl
@[simp] theorem modIsland_stalls : (modIsland i f b).stalls = b.stalls := rfl
@[simp] theorem modIsland_jobs : (modIsland i f b).jobs = b.jobs := rfl
@[simp] theorem modIsland_serial : (modIsland i f b).serial = b.serial := rfl
@[simp] theorem modIsland_hitchSerial : (modIsland i f b).hitchSerial = b.hitchSerial := rfl
@[simp] theorem modIsland_rrDispatch : (modIsland i f b).rrDispatch = b.rrDispatch := rfl
@[simp] theorem modIsland_deficit : (modIsland i f b).deficit = b.deficit := rfl
@[simp] theorem modIsland_rrEngine : (modIsland i f b).rrEngine = b.rrEngine := rfl
@[simp] theorem modIsland_lanes : (modIsland i f b).lanes = b.lanes := rfl
@[simp] theorem modIsland_digestJobs : (modIsland i f b).digestJobs = b.digestJobs := rfl
@[simp] theorem modIsland_digestHitches : (modIsland i f b).digestHitches = b.digestHitches := rfl
@[simp] theorem modIsland_islands : (modIsland i f b).islands = b.islands.mod i f := rfl
@[simp] theorem modIsland_cores : (modIsland i f b).cores = b.cores := rfl
@[simp] theorem modIsland_coreJobs : (modIsland i f b).coreJobs = b.coreJobs := rfl
@[simp] theorem modIsland_unwrapJobs : (modIsland i f b).unwrapJobs = b.unwrapJobs := rfl
@[simp] theorem modIsland_unwrapLeft : (modIsland i f b).unwrapLeft = b.unwrapLeft := rfl
@[simp] theorem modIsland_randomJob : (modIsland i f b).randomJob = b.randomJob := rfl
@[simp] theorem modIsland_unwrapFenced : (modIsland i f b).unwrapFenced = b.unwrapFenced := rfl
@[simp] theorem modIsland_entropyFenced : (modIsland i f b).entropyFenced = b.entropyFenced := rfl
@[simp] theorem modIsland_bridgesFenced : (modIsland i f b).bridgesFenced = b.bridgesFenced := rfl
@[simp] theorem modIsland_pack : (modIsland i f b).pack = b.pack := rfl
@[simp] theorem modIsland_floor : (modIsland i f b).floor = b.floor := rfl
@[simp] theorem modIsland_curves : (modIsland i f b).curves = b.curves := rfl
@[simp] theorem modIsland_tack : (modIsland i f b).tack = b.tack := rfl
@[simp] theorem modIsland_ym : (modIsland i f b).ym = b.ym := rfl
@[simp] theorem modIsland_chutes : (modIsland i f b).chutes = b.chutes := rfl
@[simp] theorem modIsland_movers : (modIsland i f b).movers = b.movers := rfl
@[simp] theorem modIsland_timers : (modIsland i f b).timers = b.timers := rfl
@[simp] theorem modIsland_dp0 : (modIsland i f b).dp0 = b.dp0 := rfl
@[simp] theorem modIsland_dp1 : (modIsland i f b).dp1 = b.dp1 := rfl
@[simp] theorem modIsland_rp : (modIsland i f b).rp = b.rp := rfl
@[simp] theorem modIsland_portDrain : (modIsland i f b).portDrain = b.portDrain := rfl
@[simp] theorem modIsland_holds : (modIsland i f b).holds = b.holds := rfl
@[simp] theorem modIsland_wear : (modIsland i f b).wear = b.wear := rfl
@[simp] theorem modIsland_rerates : (modIsland i f b).rerates = b.rerates := rfl
@[simp] theorem modIsland_wearDue : (modIsland i f b).wearDue = b.wearDue := rfl
@[simp] theorem modIsland_tempDue : (modIsland i f b).tempDue = b.tempDue := rfl
@[simp] theorem modIsland_dbFifo : (modIsland i f b).dbFifo = b.dbFifo := rfl
@[simp] theorem modIsland_rpFifo : (modIsland i f b).rpFifo = b.rpFifo := rfl
@[simp] theorem modIsland_dbCredits : (modIsland i f b).dbCredits = b.dbCredits := rfl
@[simp] theorem modIsland_dbRdata : (modIsland i f b).dbRdata = b.dbRdata := rfl
@[simp] theorem modIsland_mpaCredits : (modIsland i f b).mpaCredits = b.mpaCredits := rfl
@[simp] theorem modIsland_mpbCredits : (modIsland i f b).mpbCredits = b.mpbCredits := rfl
@[simp] theorem modIsland_mpFifo : (modIsland i f b).mpFifo = b.mpFifo := rfl
@[simp] theorem modIsland_draws : (modIsland i f b).draws = b.draws := rfl
@[simp] theorem modIsland_free : (modIsland i f b).free = b.free := rfl
@[simp] theorem modIsland_now : (modIsland i f b).now = b.now := rfl
end modIsland

section modCore
variable (c : Nat) (f : Core → Core)
@[simp] theorem modCore_boot : (modCore c f b).boot = b.boot := rfl
@[simp] theorem modCore_sensed : (modCore c f b).sensed = b.sensed := rfl
@[simp] theorem modCore_lt : (modCore c f b).lt = b.lt := rfl
@[simp] theorem modCore_sb : (modCore c f b).sb = b.sb := rfl
@[simp] theorem modCore_sbQueue : (modCore c f b).sbQueue = b.sbQueue := rfl
@[simp] theorem modCore_sbDrop : (modCore c f b).sbDrop = b.sbDrop := rfl
@[simp] theorem modCore_stalls : (modCore c f b).stalls = b.stalls := rfl
@[simp] theorem modCore_jobs : (modCore c f b).jobs = b.jobs := rfl
@[simp] theorem modCore_serial : (modCore c f b).serial = b.serial := rfl
@[simp] theorem modCore_hitchSerial : (modCore c f b).hitchSerial = b.hitchSerial := rfl
@[simp] theorem modCore_rrDispatch : (modCore c f b).rrDispatch = b.rrDispatch := rfl
@[simp] theorem modCore_deficit : (modCore c f b).deficit = b.deficit := rfl
@[simp] theorem modCore_rrEngine : (modCore c f b).rrEngine = b.rrEngine := rfl
@[simp] theorem modCore_lanes : (modCore c f b).lanes = b.lanes := rfl
@[simp] theorem modCore_digestJobs : (modCore c f b).digestJobs = b.digestJobs := rfl
@[simp] theorem modCore_digestHitches : (modCore c f b).digestHitches = b.digestHitches := rfl
@[simp] theorem modCore_islands : (modCore c f b).islands = b.islands := rfl
@[simp] theorem modCore_cores : (modCore c f b).cores = b.cores.mod c f := rfl
@[simp] theorem modCore_coreJobs : (modCore c f b).coreJobs = b.coreJobs := rfl
@[simp] theorem modCore_unwrapJobs : (modCore c f b).unwrapJobs = b.unwrapJobs := rfl
@[simp] theorem modCore_unwrapLeft : (modCore c f b).unwrapLeft = b.unwrapLeft := rfl
@[simp] theorem modCore_randomJob : (modCore c f b).randomJob = b.randomJob := rfl
@[simp] theorem modCore_unwrapFenced : (modCore c f b).unwrapFenced = b.unwrapFenced := rfl
@[simp] theorem modCore_entropyFenced : (modCore c f b).entropyFenced = b.entropyFenced := rfl
@[simp] theorem modCore_bridgesFenced : (modCore c f b).bridgesFenced = b.bridgesFenced := rfl
@[simp] theorem modCore_pack : (modCore c f b).pack = b.pack := rfl
@[simp] theorem modCore_floor : (modCore c f b).floor = b.floor := rfl
@[simp] theorem modCore_curves : (modCore c f b).curves = b.curves := rfl
@[simp] theorem modCore_tack : (modCore c f b).tack = b.tack := rfl
@[simp] theorem modCore_ym : (modCore c f b).ym = b.ym := rfl
@[simp] theorem modCore_chutes : (modCore c f b).chutes = b.chutes := rfl
@[simp] theorem modCore_movers : (modCore c f b).movers = b.movers := rfl
@[simp] theorem modCore_timers : (modCore c f b).timers = b.timers := rfl
@[simp] theorem modCore_dp0 : (modCore c f b).dp0 = b.dp0 := rfl
@[simp] theorem modCore_dp1 : (modCore c f b).dp1 = b.dp1 := rfl
@[simp] theorem modCore_rp : (modCore c f b).rp = b.rp := rfl
@[simp] theorem modCore_portDrain : (modCore c f b).portDrain = b.portDrain := rfl
@[simp] theorem modCore_holds : (modCore c f b).holds = b.holds := rfl
@[simp] theorem modCore_wear : (modCore c f b).wear = b.wear := rfl
@[simp] theorem modCore_rerates : (modCore c f b).rerates = b.rerates := rfl
@[simp] theorem modCore_wearDue : (modCore c f b).wearDue = b.wearDue := rfl
@[simp] theorem modCore_tempDue : (modCore c f b).tempDue = b.tempDue := rfl
@[simp] theorem modCore_dbFifo : (modCore c f b).dbFifo = b.dbFifo := rfl
@[simp] theorem modCore_rpFifo : (modCore c f b).rpFifo = b.rpFifo := rfl
@[simp] theorem modCore_dbCredits : (modCore c f b).dbCredits = b.dbCredits := rfl
@[simp] theorem modCore_dbRdata : (modCore c f b).dbRdata = b.dbRdata := rfl
@[simp] theorem modCore_mpaCredits : (modCore c f b).mpaCredits = b.mpaCredits := rfl
@[simp] theorem modCore_mpbCredits : (modCore c f b).mpbCredits = b.mpbCredits := rfl
@[simp] theorem modCore_mpFifo : (modCore c f b).mpFifo = b.mpFifo := rfl
@[simp] theorem modCore_draws : (modCore c f b).draws = b.draws := rfl
@[simp] theorem modCore_free : (modCore c f b).free = b.free := rfl
@[simp] theorem modCore_now : (modCore c f b).now = b.now := rfl
end modCore

section modTack
variable (f : Tack → Tack)
@[simp] theorem modTack_boot : (modTack f b).boot = b.boot := rfl
@[simp] theorem modTack_sensed : (modTack f b).sensed = b.sensed := rfl
@[simp] theorem modTack_lt : (modTack f b).lt = b.lt := rfl
@[simp] theorem modTack_sb : (modTack f b).sb = b.sb := rfl
@[simp] theorem modTack_sbQueue : (modTack f b).sbQueue = b.sbQueue := rfl
@[simp] theorem modTack_sbDrop : (modTack f b).sbDrop = b.sbDrop := rfl
@[simp] theorem modTack_stalls : (modTack f b).stalls = b.stalls := rfl
@[simp] theorem modTack_jobs : (modTack f b).jobs = b.jobs := rfl
@[simp] theorem modTack_serial : (modTack f b).serial = b.serial := rfl
@[simp] theorem modTack_hitchSerial : (modTack f b).hitchSerial = b.hitchSerial := rfl
@[simp] theorem modTack_rrDispatch : (modTack f b).rrDispatch = b.rrDispatch := rfl
@[simp] theorem modTack_deficit : (modTack f b).deficit = b.deficit := rfl
@[simp] theorem modTack_rrEngine : (modTack f b).rrEngine = b.rrEngine := rfl
@[simp] theorem modTack_lanes : (modTack f b).lanes = b.lanes := rfl
@[simp] theorem modTack_digestJobs : (modTack f b).digestJobs = b.digestJobs := rfl
@[simp] theorem modTack_digestHitches : (modTack f b).digestHitches = b.digestHitches := rfl
@[simp] theorem modTack_islands : (modTack f b).islands = b.islands := rfl
@[simp] theorem modTack_cores : (modTack f b).cores = b.cores := rfl
@[simp] theorem modTack_coreJobs : (modTack f b).coreJobs = b.coreJobs := rfl
@[simp] theorem modTack_unwrapJobs : (modTack f b).unwrapJobs = b.unwrapJobs := rfl
@[simp] theorem modTack_unwrapLeft : (modTack f b).unwrapLeft = b.unwrapLeft := rfl
@[simp] theorem modTack_randomJob : (modTack f b).randomJob = b.randomJob := rfl
@[simp] theorem modTack_unwrapFenced : (modTack f b).unwrapFenced = b.unwrapFenced := rfl
@[simp] theorem modTack_entropyFenced : (modTack f b).entropyFenced = b.entropyFenced := rfl
@[simp] theorem modTack_bridgesFenced : (modTack f b).bridgesFenced = b.bridgesFenced := rfl
@[simp] theorem modTack_pack : (modTack f b).pack = b.pack := rfl
@[simp] theorem modTack_floor : (modTack f b).floor = b.floor := rfl
@[simp] theorem modTack_curves : (modTack f b).curves = b.curves := rfl
@[simp] theorem modTack_tack : (modTack f b).tack = f b.tack := rfl
@[simp] theorem modTack_ym : (modTack f b).ym = b.ym := rfl
@[simp] theorem modTack_chutes : (modTack f b).chutes = b.chutes := rfl
@[simp] theorem modTack_movers : (modTack f b).movers = b.movers := rfl
@[simp] theorem modTack_timers : (modTack f b).timers = b.timers := rfl
@[simp] theorem modTack_dp0 : (modTack f b).dp0 = b.dp0 := rfl
@[simp] theorem modTack_dp1 : (modTack f b).dp1 = b.dp1 := rfl
@[simp] theorem modTack_rp : (modTack f b).rp = b.rp := rfl
@[simp] theorem modTack_portDrain : (modTack f b).portDrain = b.portDrain := rfl
@[simp] theorem modTack_holds : (modTack f b).holds = b.holds := rfl
@[simp] theorem modTack_wear : (modTack f b).wear = b.wear := rfl
@[simp] theorem modTack_rerates : (modTack f b).rerates = b.rerates := rfl
@[simp] theorem modTack_wearDue : (modTack f b).wearDue = b.wearDue := rfl
@[simp] theorem modTack_tempDue : (modTack f b).tempDue = b.tempDue := rfl
@[simp] theorem modTack_dbFifo : (modTack f b).dbFifo = b.dbFifo := rfl
@[simp] theorem modTack_rpFifo : (modTack f b).rpFifo = b.rpFifo := rfl
@[simp] theorem modTack_dbCredits : (modTack f b).dbCredits = b.dbCredits := rfl
@[simp] theorem modTack_dbRdata : (modTack f b).dbRdata = b.dbRdata := rfl
@[simp] theorem modTack_mpaCredits : (modTack f b).mpaCredits = b.mpaCredits := rfl
@[simp] theorem modTack_mpbCredits : (modTack f b).mpbCredits = b.mpbCredits := rfl
@[simp] theorem modTack_mpFifo : (modTack f b).mpFifo = b.mpFifo := rfl
@[simp] theorem modTack_draws : (modTack f b).draws = b.draws := rfl
@[simp] theorem modTack_free : (modTack f b).free = b.free := rfl
@[simp] theorem modTack_now : (modTack f b).now = b.now := rfl
end modTack

section modSlot
variable (i : Nat) (f : Slot → Slot)
@[simp] theorem modSlot_boot : (modSlot i f b).boot = b.boot := rfl
@[simp] theorem modSlot_sensed : (modSlot i f b).sensed = b.sensed := rfl
@[simp] theorem modSlot_lt : (modSlot i f b).lt = b.lt := rfl
@[simp] theorem modSlot_sb : (modSlot i f b).sb = b.sb := rfl
@[simp] theorem modSlot_sbQueue : (modSlot i f b).sbQueue = b.sbQueue := rfl
@[simp] theorem modSlot_sbDrop : (modSlot i f b).sbDrop = b.sbDrop := rfl
@[simp] theorem modSlot_stalls : (modSlot i f b).stalls = b.stalls := rfl
@[simp] theorem modSlot_jobs : (modSlot i f b).jobs = b.jobs := rfl
@[simp] theorem modSlot_serial : (modSlot i f b).serial = b.serial := rfl
@[simp] theorem modSlot_hitchSerial : (modSlot i f b).hitchSerial = b.hitchSerial := rfl
@[simp] theorem modSlot_rrDispatch : (modSlot i f b).rrDispatch = b.rrDispatch := rfl
@[simp] theorem modSlot_deficit : (modSlot i f b).deficit = b.deficit := rfl
@[simp] theorem modSlot_rrEngine : (modSlot i f b).rrEngine = b.rrEngine := rfl
@[simp] theorem modSlot_lanes : (modSlot i f b).lanes = b.lanes := rfl
@[simp] theorem modSlot_digestJobs : (modSlot i f b).digestJobs = b.digestJobs := rfl
@[simp] theorem modSlot_digestHitches : (modSlot i f b).digestHitches = b.digestHitches := rfl
@[simp] theorem modSlot_islands : (modSlot i f b).islands = b.islands := rfl
@[simp] theorem modSlot_cores : (modSlot i f b).cores = b.cores := rfl
@[simp] theorem modSlot_coreJobs : (modSlot i f b).coreJobs = b.coreJobs := rfl
@[simp] theorem modSlot_unwrapJobs : (modSlot i f b).unwrapJobs = b.unwrapJobs := rfl
@[simp] theorem modSlot_unwrapLeft : (modSlot i f b).unwrapLeft = b.unwrapLeft := rfl
@[simp] theorem modSlot_randomJob : (modSlot i f b).randomJob = b.randomJob := rfl
@[simp] theorem modSlot_unwrapFenced : (modSlot i f b).unwrapFenced = b.unwrapFenced := rfl
@[simp] theorem modSlot_entropyFenced : (modSlot i f b).entropyFenced = b.entropyFenced := rfl
@[simp] theorem modSlot_bridgesFenced : (modSlot i f b).bridgesFenced = b.bridgesFenced := rfl
@[simp] theorem modSlot_pack : (modSlot i f b).pack = b.pack := rfl
@[simp] theorem modSlot_floor : (modSlot i f b).floor = b.floor := rfl
@[simp] theorem modSlot_curves : (modSlot i f b).curves = b.curves := rfl
@[simp] theorem modSlot_tack : (modSlot i f b).tack = { b.tack with slots := b.tack.slots.mod i f } := rfl
@[simp] theorem modSlot_ym : (modSlot i f b).ym = b.ym := rfl
@[simp] theorem modSlot_chutes : (modSlot i f b).chutes = b.chutes := rfl
@[simp] theorem modSlot_movers : (modSlot i f b).movers = b.movers := rfl
@[simp] theorem modSlot_timers : (modSlot i f b).timers = b.timers := rfl
@[simp] theorem modSlot_dp0 : (modSlot i f b).dp0 = b.dp0 := rfl
@[simp] theorem modSlot_dp1 : (modSlot i f b).dp1 = b.dp1 := rfl
@[simp] theorem modSlot_rp : (modSlot i f b).rp = b.rp := rfl
@[simp] theorem modSlot_portDrain : (modSlot i f b).portDrain = b.portDrain := rfl
@[simp] theorem modSlot_holds : (modSlot i f b).holds = b.holds := rfl
@[simp] theorem modSlot_wear : (modSlot i f b).wear = b.wear := rfl
@[simp] theorem modSlot_rerates : (modSlot i f b).rerates = b.rerates := rfl
@[simp] theorem modSlot_wearDue : (modSlot i f b).wearDue = b.wearDue := rfl
@[simp] theorem modSlot_tempDue : (modSlot i f b).tempDue = b.tempDue := rfl
@[simp] theorem modSlot_dbFifo : (modSlot i f b).dbFifo = b.dbFifo := rfl
@[simp] theorem modSlot_rpFifo : (modSlot i f b).rpFifo = b.rpFifo := rfl
@[simp] theorem modSlot_dbCredits : (modSlot i f b).dbCredits = b.dbCredits := rfl
@[simp] theorem modSlot_dbRdata : (modSlot i f b).dbRdata = b.dbRdata := rfl
@[simp] theorem modSlot_mpaCredits : (modSlot i f b).mpaCredits = b.mpaCredits := rfl
@[simp] theorem modSlot_mpbCredits : (modSlot i f b).mpbCredits = b.mpbCredits := rfl
@[simp] theorem modSlot_mpFifo : (modSlot i f b).mpFifo = b.mpFifo := rfl
@[simp] theorem modSlot_draws : (modSlot i f b).draws = b.draws := rfl
@[simp] theorem modSlot_free : (modSlot i f b).free = b.free := rfl
@[simp] theorem modSlot_now : (modSlot i f b).now = b.now := rfl
end modSlot

section modSk
variable (n : Nat) (f : StallKey → StallKey)
@[simp] theorem modSk_boot : (modSk n f b).boot = b.boot := rfl
@[simp] theorem modSk_sensed : (modSk n f b).sensed = b.sensed := rfl
@[simp] theorem modSk_lt : (modSk n f b).lt = b.lt := rfl
@[simp] theorem modSk_sb : (modSk n f b).sb = b.sb := rfl
@[simp] theorem modSk_sbQueue : (modSk n f b).sbQueue = b.sbQueue := rfl
@[simp] theorem modSk_sbDrop : (modSk n f b).sbDrop = b.sbDrop := rfl
@[simp] theorem modSk_stalls : (modSk n f b).stalls = b.stalls := rfl
@[simp] theorem modSk_jobs : (modSk n f b).jobs = b.jobs := rfl
@[simp] theorem modSk_serial : (modSk n f b).serial = b.serial := rfl
@[simp] theorem modSk_hitchSerial : (modSk n f b).hitchSerial = b.hitchSerial := rfl
@[simp] theorem modSk_rrDispatch : (modSk n f b).rrDispatch = b.rrDispatch := rfl
@[simp] theorem modSk_deficit : (modSk n f b).deficit = b.deficit := rfl
@[simp] theorem modSk_rrEngine : (modSk n f b).rrEngine = b.rrEngine := rfl
@[simp] theorem modSk_lanes : (modSk n f b).lanes = b.lanes := rfl
@[simp] theorem modSk_digestJobs : (modSk n f b).digestJobs = b.digestJobs := rfl
@[simp] theorem modSk_digestHitches : (modSk n f b).digestHitches = b.digestHitches := rfl
@[simp] theorem modSk_islands : (modSk n f b).islands = b.islands := rfl
@[simp] theorem modSk_cores : (modSk n f b).cores = b.cores := rfl
@[simp] theorem modSk_coreJobs : (modSk n f b).coreJobs = b.coreJobs := rfl
@[simp] theorem modSk_unwrapJobs : (modSk n f b).unwrapJobs = b.unwrapJobs := rfl
@[simp] theorem modSk_unwrapLeft : (modSk n f b).unwrapLeft = b.unwrapLeft := rfl
@[simp] theorem modSk_randomJob : (modSk n f b).randomJob = b.randomJob := rfl
@[simp] theorem modSk_unwrapFenced : (modSk n f b).unwrapFenced = b.unwrapFenced := rfl
@[simp] theorem modSk_entropyFenced : (modSk n f b).entropyFenced = b.entropyFenced := rfl
@[simp] theorem modSk_bridgesFenced : (modSk n f b).bridgesFenced = b.bridgesFenced := rfl
@[simp] theorem modSk_pack : (modSk n f b).pack = b.pack := rfl
@[simp] theorem modSk_floor : (modSk n f b).floor = b.floor := rfl
@[simp] theorem modSk_curves : (modSk n f b).curves = b.curves := rfl
@[simp] theorem modSk_tack : (modSk n f b).tack = { b.tack with stallKeys := b.tack.stallKeys.mod n f } := rfl
@[simp] theorem modSk_ym : (modSk n f b).ym = b.ym := rfl
@[simp] theorem modSk_chutes : (modSk n f b).chutes = b.chutes := rfl
@[simp] theorem modSk_movers : (modSk n f b).movers = b.movers := rfl
@[simp] theorem modSk_timers : (modSk n f b).timers = b.timers := rfl
@[simp] theorem modSk_dp0 : (modSk n f b).dp0 = b.dp0 := rfl
@[simp] theorem modSk_dp1 : (modSk n f b).dp1 = b.dp1 := rfl
@[simp] theorem modSk_rp : (modSk n f b).rp = b.rp := rfl
@[simp] theorem modSk_portDrain : (modSk n f b).portDrain = b.portDrain := rfl
@[simp] theorem modSk_holds : (modSk n f b).holds = b.holds := rfl
@[simp] theorem modSk_wear : (modSk n f b).wear = b.wear := rfl
@[simp] theorem modSk_rerates : (modSk n f b).rerates = b.rerates := rfl
@[simp] theorem modSk_wearDue : (modSk n f b).wearDue = b.wearDue := rfl
@[simp] theorem modSk_tempDue : (modSk n f b).tempDue = b.tempDue := rfl
@[simp] theorem modSk_dbFifo : (modSk n f b).dbFifo = b.dbFifo := rfl
@[simp] theorem modSk_rpFifo : (modSk n f b).rpFifo = b.rpFifo := rfl
@[simp] theorem modSk_dbCredits : (modSk n f b).dbCredits = b.dbCredits := rfl
@[simp] theorem modSk_dbRdata : (modSk n f b).dbRdata = b.dbRdata := rfl
@[simp] theorem modSk_mpaCredits : (modSk n f b).mpaCredits = b.mpaCredits := rfl
@[simp] theorem modSk_mpbCredits : (modSk n f b).mpbCredits = b.mpbCredits := rfl
@[simp] theorem modSk_mpFifo : (modSk n f b).mpFifo = b.mpFifo := rfl
@[simp] theorem modSk_draws : (modSk n f b).draws = b.draws := rfl
@[simp] theorem modSk_free : (modSk n f b).free = b.free := rfl
@[simp] theorem modSk_now : (modSk n f b).now = b.now := rfl
end modSk

section modYm
variable (f : Ym → Ym)
@[simp] theorem modYm_boot : (modYm f b).boot = b.boot := rfl
@[simp] theorem modYm_sensed : (modYm f b).sensed = b.sensed := rfl
@[simp] theorem modYm_lt : (modYm f b).lt = b.lt := rfl
@[simp] theorem modYm_sb : (modYm f b).sb = b.sb := rfl
@[simp] theorem modYm_sbQueue : (modYm f b).sbQueue = b.sbQueue := rfl
@[simp] theorem modYm_sbDrop : (modYm f b).sbDrop = b.sbDrop := rfl
@[simp] theorem modYm_stalls : (modYm f b).stalls = b.stalls := rfl
@[simp] theorem modYm_jobs : (modYm f b).jobs = b.jobs := rfl
@[simp] theorem modYm_serial : (modYm f b).serial = b.serial := rfl
@[simp] theorem modYm_hitchSerial : (modYm f b).hitchSerial = b.hitchSerial := rfl
@[simp] theorem modYm_rrDispatch : (modYm f b).rrDispatch = b.rrDispatch := rfl
@[simp] theorem modYm_deficit : (modYm f b).deficit = b.deficit := rfl
@[simp] theorem modYm_rrEngine : (modYm f b).rrEngine = b.rrEngine := rfl
@[simp] theorem modYm_lanes : (modYm f b).lanes = b.lanes := rfl
@[simp] theorem modYm_digestJobs : (modYm f b).digestJobs = b.digestJobs := rfl
@[simp] theorem modYm_digestHitches : (modYm f b).digestHitches = b.digestHitches := rfl
@[simp] theorem modYm_islands : (modYm f b).islands = b.islands := rfl
@[simp] theorem modYm_cores : (modYm f b).cores = b.cores := rfl
@[simp] theorem modYm_coreJobs : (modYm f b).coreJobs = b.coreJobs := rfl
@[simp] theorem modYm_unwrapJobs : (modYm f b).unwrapJobs = b.unwrapJobs := rfl
@[simp] theorem modYm_unwrapLeft : (modYm f b).unwrapLeft = b.unwrapLeft := rfl
@[simp] theorem modYm_randomJob : (modYm f b).randomJob = b.randomJob := rfl
@[simp] theorem modYm_unwrapFenced : (modYm f b).unwrapFenced = b.unwrapFenced := rfl
@[simp] theorem modYm_entropyFenced : (modYm f b).entropyFenced = b.entropyFenced := rfl
@[simp] theorem modYm_bridgesFenced : (modYm f b).bridgesFenced = b.bridgesFenced := rfl
@[simp] theorem modYm_pack : (modYm f b).pack = b.pack := rfl
@[simp] theorem modYm_floor : (modYm f b).floor = b.floor := rfl
@[simp] theorem modYm_curves : (modYm f b).curves = b.curves := rfl
@[simp] theorem modYm_tack : (modYm f b).tack = b.tack := rfl
@[simp] theorem modYm_ym : (modYm f b).ym = f b.ym := rfl
@[simp] theorem modYm_chutes : (modYm f b).chutes = b.chutes := rfl
@[simp] theorem modYm_movers : (modYm f b).movers = b.movers := rfl
@[simp] theorem modYm_timers : (modYm f b).timers = b.timers := rfl
@[simp] theorem modYm_dp0 : (modYm f b).dp0 = b.dp0 := rfl
@[simp] theorem modYm_dp1 : (modYm f b).dp1 = b.dp1 := rfl
@[simp] theorem modYm_rp : (modYm f b).rp = b.rp := rfl
@[simp] theorem modYm_portDrain : (modYm f b).portDrain = b.portDrain := rfl
@[simp] theorem modYm_holds : (modYm f b).holds = b.holds := rfl
@[simp] theorem modYm_wear : (modYm f b).wear = b.wear := rfl
@[simp] theorem modYm_rerates : (modYm f b).rerates = b.rerates := rfl
@[simp] theorem modYm_wearDue : (modYm f b).wearDue = b.wearDue := rfl
@[simp] theorem modYm_tempDue : (modYm f b).tempDue = b.tempDue := rfl
@[simp] theorem modYm_dbFifo : (modYm f b).dbFifo = b.dbFifo := rfl
@[simp] theorem modYm_rpFifo : (modYm f b).rpFifo = b.rpFifo := rfl
@[simp] theorem modYm_dbCredits : (modYm f b).dbCredits = b.dbCredits := rfl
@[simp] theorem modYm_dbRdata : (modYm f b).dbRdata = b.dbRdata := rfl
@[simp] theorem modYm_mpaCredits : (modYm f b).mpaCredits = b.mpaCredits := rfl
@[simp] theorem modYm_mpbCredits : (modYm f b).mpbCredits = b.mpbCredits := rfl
@[simp] theorem modYm_mpFifo : (modYm f b).mpFifo = b.mpFifo := rfl
@[simp] theorem modYm_draws : (modYm f b).draws = b.draws := rfl
@[simp] theorem modYm_free : (modYm f b).free = b.free := rfl
@[simp] theorem modYm_now : (modYm f b).now = b.now := rfl
end modYm

section modPair
variable (p : Nat) (f : Mbox → Mbox)
@[simp] theorem modPair_boot : (modPair p f b).boot = b.boot := rfl
@[simp] theorem modPair_sensed : (modPair p f b).sensed = b.sensed := rfl
@[simp] theorem modPair_lt : (modPair p f b).lt = b.lt := rfl
@[simp] theorem modPair_sb : (modPair p f b).sb = b.sb := rfl
@[simp] theorem modPair_sbQueue : (modPair p f b).sbQueue = b.sbQueue := rfl
@[simp] theorem modPair_sbDrop : (modPair p f b).sbDrop = b.sbDrop := rfl
@[simp] theorem modPair_stalls : (modPair p f b).stalls = b.stalls := rfl
@[simp] theorem modPair_jobs : (modPair p f b).jobs = b.jobs := rfl
@[simp] theorem modPair_serial : (modPair p f b).serial = b.serial := rfl
@[simp] theorem modPair_hitchSerial : (modPair p f b).hitchSerial = b.hitchSerial := rfl
@[simp] theorem modPair_rrDispatch : (modPair p f b).rrDispatch = b.rrDispatch := rfl
@[simp] theorem modPair_deficit : (modPair p f b).deficit = b.deficit := rfl
@[simp] theorem modPair_rrEngine : (modPair p f b).rrEngine = b.rrEngine := rfl
@[simp] theorem modPair_lanes : (modPair p f b).lanes = b.lanes := rfl
@[simp] theorem modPair_digestJobs : (modPair p f b).digestJobs = b.digestJobs := rfl
@[simp] theorem modPair_digestHitches : (modPair p f b).digestHitches = b.digestHitches := rfl
@[simp] theorem modPair_islands : (modPair p f b).islands = b.islands := rfl
@[simp] theorem modPair_cores : (modPair p f b).cores = b.cores := rfl
@[simp] theorem modPair_coreJobs : (modPair p f b).coreJobs = b.coreJobs := rfl
@[simp] theorem modPair_unwrapJobs : (modPair p f b).unwrapJobs = b.unwrapJobs := rfl
@[simp] theorem modPair_unwrapLeft : (modPair p f b).unwrapLeft = b.unwrapLeft := rfl
@[simp] theorem modPair_randomJob : (modPair p f b).randomJob = b.randomJob := rfl
@[simp] theorem modPair_unwrapFenced : (modPair p f b).unwrapFenced = b.unwrapFenced := rfl
@[simp] theorem modPair_entropyFenced : (modPair p f b).entropyFenced = b.entropyFenced := rfl
@[simp] theorem modPair_bridgesFenced : (modPair p f b).bridgesFenced = b.bridgesFenced := rfl
@[simp] theorem modPair_pack : (modPair p f b).pack = b.pack := rfl
@[simp] theorem modPair_floor : (modPair p f b).floor = b.floor := rfl
@[simp] theorem modPair_curves : (modPair p f b).curves = b.curves := rfl
@[simp] theorem modPair_tack : (modPair p f b).tack = b.tack := rfl
@[simp] theorem modPair_ym : (modPair p f b).ym = { b.ym with pairs := b.ym.pairs.mod p f } := rfl
@[simp] theorem modPair_chutes : (modPair p f b).chutes = b.chutes := rfl
@[simp] theorem modPair_movers : (modPair p f b).movers = b.movers := rfl
@[simp] theorem modPair_timers : (modPair p f b).timers = b.timers := rfl
@[simp] theorem modPair_dp0 : (modPair p f b).dp0 = b.dp0 := rfl
@[simp] theorem modPair_dp1 : (modPair p f b).dp1 = b.dp1 := rfl
@[simp] theorem modPair_rp : (modPair p f b).rp = b.rp := rfl
@[simp] theorem modPair_portDrain : (modPair p f b).portDrain = b.portDrain := rfl
@[simp] theorem modPair_holds : (modPair p f b).holds = b.holds := rfl
@[simp] theorem modPair_wear : (modPair p f b).wear = b.wear := rfl
@[simp] theorem modPair_rerates : (modPair p f b).rerates = b.rerates := rfl
@[simp] theorem modPair_wearDue : (modPair p f b).wearDue = b.wearDue := rfl
@[simp] theorem modPair_tempDue : (modPair p f b).tempDue = b.tempDue := rfl
@[simp] theorem modPair_dbFifo : (modPair p f b).dbFifo = b.dbFifo := rfl
@[simp] theorem modPair_rpFifo : (modPair p f b).rpFifo = b.rpFifo := rfl
@[simp] theorem modPair_dbCredits : (modPair p f b).dbCredits = b.dbCredits := rfl
@[simp] theorem modPair_dbRdata : (modPair p f b).dbRdata = b.dbRdata := rfl
@[simp] theorem modPair_mpaCredits : (modPair p f b).mpaCredits = b.mpaCredits := rfl
@[simp] theorem modPair_mpbCredits : (modPair p f b).mpbCredits = b.mpbCredits := rfl
@[simp] theorem modPair_mpFifo : (modPair p f b).mpFifo = b.mpFifo := rfl
@[simp] theorem modPair_draws : (modPair p f b).draws = b.draws := rfl
@[simp] theorem modPair_free : (modPair p f b).free = b.free := rfl
@[simp] theorem modPair_now : (modPair p f b).now = b.now := rfl
end modPair

section modGate
variable (f : Gate → Gate)
@[simp] theorem modGate_boot : (modGate f b).boot = b.boot := rfl
@[simp] theorem modGate_sensed : (modGate f b).sensed = b.sensed := rfl
@[simp] theorem modGate_lt : (modGate f b).lt = b.lt := rfl
@[simp] theorem modGate_sb : (modGate f b).sb = b.sb := rfl
@[simp] theorem modGate_sbQueue : (modGate f b).sbQueue = b.sbQueue := rfl
@[simp] theorem modGate_sbDrop : (modGate f b).sbDrop = b.sbDrop := rfl
@[simp] theorem modGate_stalls : (modGate f b).stalls = b.stalls := rfl
@[simp] theorem modGate_jobs : (modGate f b).jobs = b.jobs := rfl
@[simp] theorem modGate_serial : (modGate f b).serial = b.serial := rfl
@[simp] theorem modGate_hitchSerial : (modGate f b).hitchSerial = b.hitchSerial := rfl
@[simp] theorem modGate_rrDispatch : (modGate f b).rrDispatch = b.rrDispatch := rfl
@[simp] theorem modGate_deficit : (modGate f b).deficit = b.deficit := rfl
@[simp] theorem modGate_rrEngine : (modGate f b).rrEngine = b.rrEngine := rfl
@[simp] theorem modGate_lanes : (modGate f b).lanes = b.lanes := rfl
@[simp] theorem modGate_digestJobs : (modGate f b).digestJobs = b.digestJobs := rfl
@[simp] theorem modGate_digestHitches : (modGate f b).digestHitches = b.digestHitches := rfl
@[simp] theorem modGate_islands : (modGate f b).islands = b.islands := rfl
@[simp] theorem modGate_cores : (modGate f b).cores = b.cores := rfl
@[simp] theorem modGate_coreJobs : (modGate f b).coreJobs = b.coreJobs := rfl
@[simp] theorem modGate_unwrapJobs : (modGate f b).unwrapJobs = b.unwrapJobs := rfl
@[simp] theorem modGate_unwrapLeft : (modGate f b).unwrapLeft = b.unwrapLeft := rfl
@[simp] theorem modGate_randomJob : (modGate f b).randomJob = b.randomJob := rfl
@[simp] theorem modGate_unwrapFenced : (modGate f b).unwrapFenced = b.unwrapFenced := rfl
@[simp] theorem modGate_entropyFenced : (modGate f b).entropyFenced = b.entropyFenced := rfl
@[simp] theorem modGate_bridgesFenced : (modGate f b).bridgesFenced = b.bridgesFenced := rfl
@[simp] theorem modGate_pack : (modGate f b).pack = b.pack := rfl
@[simp] theorem modGate_floor : (modGate f b).floor = b.floor := rfl
@[simp] theorem modGate_curves : (modGate f b).curves = b.curves := rfl
@[simp] theorem modGate_tack : (modGate f b).tack = b.tack := rfl
@[simp] theorem modGate_ym : (modGate f b).ym = { b.ym with gate := f b.ym.gate } := rfl
@[simp] theorem modGate_chutes : (modGate f b).chutes = b.chutes := rfl
@[simp] theorem modGate_movers : (modGate f b).movers = b.movers := rfl
@[simp] theorem modGate_timers : (modGate f b).timers = b.timers := rfl
@[simp] theorem modGate_dp0 : (modGate f b).dp0 = b.dp0 := rfl
@[simp] theorem modGate_dp1 : (modGate f b).dp1 = b.dp1 := rfl
@[simp] theorem modGate_rp : (modGate f b).rp = b.rp := rfl
@[simp] theorem modGate_portDrain : (modGate f b).portDrain = b.portDrain := rfl
@[simp] theorem modGate_holds : (modGate f b).holds = b.holds := rfl
@[simp] theorem modGate_wear : (modGate f b).wear = b.wear := rfl
@[simp] theorem modGate_rerates : (modGate f b).rerates = b.rerates := rfl
@[simp] theorem modGate_wearDue : (modGate f b).wearDue = b.wearDue := rfl
@[simp] theorem modGate_tempDue : (modGate f b).tempDue = b.tempDue := rfl
@[simp] theorem modGate_dbFifo : (modGate f b).dbFifo = b.dbFifo := rfl
@[simp] theorem modGate_rpFifo : (modGate f b).rpFifo = b.rpFifo := rfl
@[simp] theorem modGate_dbCredits : (modGate f b).dbCredits = b.dbCredits := rfl
@[simp] theorem modGate_dbRdata : (modGate f b).dbRdata = b.dbRdata := rfl
@[simp] theorem modGate_mpaCredits : (modGate f b).mpaCredits = b.mpaCredits := rfl
@[simp] theorem modGate_mpbCredits : (modGate f b).mpbCredits = b.mpbCredits := rfl
@[simp] theorem modGate_mpFifo : (modGate f b).mpFifo = b.mpFifo := rfl
@[simp] theorem modGate_draws : (modGate f b).draws = b.draws := rfl
@[simp] theorem modGate_free : (modGate f b).free = b.free := rfl
@[simp] theorem modGate_now : (modGate f b).now = b.now := rfl
end modGate

section modCmd
variable (id : Nat) (f : Cmd → Cmd)
@[simp] theorem modCmd_boot : (modCmd id f b).boot = b.boot := rfl
@[simp] theorem modCmd_sensed : (modCmd id f b).sensed = b.sensed := rfl
@[simp] theorem modCmd_lt : (modCmd id f b).lt = b.lt := rfl
@[simp] theorem modCmd_sb : (modCmd id f b).sb = b.sb := rfl
@[simp] theorem modCmd_sbQueue : (modCmd id f b).sbQueue = b.sbQueue := rfl
@[simp] theorem modCmd_sbDrop : (modCmd id f b).sbDrop = b.sbDrop := rfl
@[simp] theorem modCmd_stalls : (modCmd id f b).stalls = b.stalls := rfl
@[simp] theorem modCmd_jobs : (modCmd id f b).jobs = b.jobs := rfl
@[simp] theorem modCmd_serial : (modCmd id f b).serial = b.serial := rfl
@[simp] theorem modCmd_hitchSerial : (modCmd id f b).hitchSerial = b.hitchSerial := rfl
@[simp] theorem modCmd_rrDispatch : (modCmd id f b).rrDispatch = b.rrDispatch := rfl
@[simp] theorem modCmd_deficit : (modCmd id f b).deficit = b.deficit := rfl
@[simp] theorem modCmd_rrEngine : (modCmd id f b).rrEngine = b.rrEngine := rfl
@[simp] theorem modCmd_lanes : (modCmd id f b).lanes = b.lanes := rfl
@[simp] theorem modCmd_digestJobs : (modCmd id f b).digestJobs = b.digestJobs := rfl
@[simp] theorem modCmd_digestHitches : (modCmd id f b).digestHitches = b.digestHitches := rfl
@[simp] theorem modCmd_islands : (modCmd id f b).islands = b.islands := rfl
@[simp] theorem modCmd_cores : (modCmd id f b).cores = b.cores := rfl
@[simp] theorem modCmd_coreJobs : (modCmd id f b).coreJobs = b.coreJobs := rfl
@[simp] theorem modCmd_unwrapJobs : (modCmd id f b).unwrapJobs = b.unwrapJobs := rfl
@[simp] theorem modCmd_unwrapLeft : (modCmd id f b).unwrapLeft = b.unwrapLeft := rfl
@[simp] theorem modCmd_randomJob : (modCmd id f b).randomJob = b.randomJob := rfl
@[simp] theorem modCmd_unwrapFenced : (modCmd id f b).unwrapFenced = b.unwrapFenced := rfl
@[simp] theorem modCmd_entropyFenced : (modCmd id f b).entropyFenced = b.entropyFenced := rfl
@[simp] theorem modCmd_bridgesFenced : (modCmd id f b).bridgesFenced = b.bridgesFenced := rfl
@[simp] theorem modCmd_pack : (modCmd id f b).pack = b.pack := rfl
@[simp] theorem modCmd_floor : (modCmd id f b).floor = b.floor := rfl
@[simp] theorem modCmd_curves : (modCmd id f b).curves = b.curves := rfl
@[simp] theorem modCmd_tack : (modCmd id f b).tack = b.tack := rfl
@[simp] theorem modCmd_ym : (modCmd id f b).ym = { b.ym with cmds := b.ym.cmds.map fun e => if e.1 == id then (e.1, f e.2) else e } := rfl
@[simp] theorem modCmd_chutes : (modCmd id f b).chutes = b.chutes := rfl
@[simp] theorem modCmd_movers : (modCmd id f b).movers = b.movers := rfl
@[simp] theorem modCmd_timers : (modCmd id f b).timers = b.timers := rfl
@[simp] theorem modCmd_dp0 : (modCmd id f b).dp0 = b.dp0 := rfl
@[simp] theorem modCmd_dp1 : (modCmd id f b).dp1 = b.dp1 := rfl
@[simp] theorem modCmd_rp : (modCmd id f b).rp = b.rp := rfl
@[simp] theorem modCmd_portDrain : (modCmd id f b).portDrain = b.portDrain := rfl
@[simp] theorem modCmd_holds : (modCmd id f b).holds = b.holds := rfl
@[simp] theorem modCmd_wear : (modCmd id f b).wear = b.wear := rfl
@[simp] theorem modCmd_rerates : (modCmd id f b).rerates = b.rerates := rfl
@[simp] theorem modCmd_wearDue : (modCmd id f b).wearDue = b.wearDue := rfl
@[simp] theorem modCmd_tempDue : (modCmd id f b).tempDue = b.tempDue := rfl
@[simp] theorem modCmd_dbFifo : (modCmd id f b).dbFifo = b.dbFifo := rfl
@[simp] theorem modCmd_rpFifo : (modCmd id f b).rpFifo = b.rpFifo := rfl
@[simp] theorem modCmd_dbCredits : (modCmd id f b).dbCredits = b.dbCredits := rfl
@[simp] theorem modCmd_dbRdata : (modCmd id f b).dbRdata = b.dbRdata := rfl
@[simp] theorem modCmd_mpaCredits : (modCmd id f b).mpaCredits = b.mpaCredits := rfl
@[simp] theorem modCmd_mpbCredits : (modCmd id f b).mpbCredits = b.mpbCredits := rfl
@[simp] theorem modCmd_mpFifo : (modCmd id f b).mpFifo = b.mpFifo := rfl
@[simp] theorem modCmd_draws : (modCmd id f b).draws = b.draws := rfl
@[simp] theorem modCmd_free : (modCmd id f b).free = b.free := rfl
@[simp] theorem modCmd_now : (modCmd id f b).now = b.now := rfl
end modCmd

section modChute
variable (c : Nat) (f : Chute → Chute)
@[simp] theorem modChute_boot : (modChute c f b).boot = b.boot := rfl
@[simp] theorem modChute_sensed : (modChute c f b).sensed = b.sensed := rfl
@[simp] theorem modChute_lt : (modChute c f b).lt = b.lt := rfl
@[simp] theorem modChute_sb : (modChute c f b).sb = b.sb := rfl
@[simp] theorem modChute_sbQueue : (modChute c f b).sbQueue = b.sbQueue := rfl
@[simp] theorem modChute_sbDrop : (modChute c f b).sbDrop = b.sbDrop := rfl
@[simp] theorem modChute_stalls : (modChute c f b).stalls = b.stalls := rfl
@[simp] theorem modChute_jobs : (modChute c f b).jobs = b.jobs := rfl
@[simp] theorem modChute_serial : (modChute c f b).serial = b.serial := rfl
@[simp] theorem modChute_hitchSerial : (modChute c f b).hitchSerial = b.hitchSerial := rfl
@[simp] theorem modChute_rrDispatch : (modChute c f b).rrDispatch = b.rrDispatch := rfl
@[simp] theorem modChute_deficit : (modChute c f b).deficit = b.deficit := rfl
@[simp] theorem modChute_rrEngine : (modChute c f b).rrEngine = b.rrEngine := rfl
@[simp] theorem modChute_lanes : (modChute c f b).lanes = b.lanes := rfl
@[simp] theorem modChute_digestJobs : (modChute c f b).digestJobs = b.digestJobs := rfl
@[simp] theorem modChute_digestHitches : (modChute c f b).digestHitches = b.digestHitches := rfl
@[simp] theorem modChute_islands : (modChute c f b).islands = b.islands := rfl
@[simp] theorem modChute_cores : (modChute c f b).cores = b.cores := rfl
@[simp] theorem modChute_coreJobs : (modChute c f b).coreJobs = b.coreJobs := rfl
@[simp] theorem modChute_unwrapJobs : (modChute c f b).unwrapJobs = b.unwrapJobs := rfl
@[simp] theorem modChute_unwrapLeft : (modChute c f b).unwrapLeft = b.unwrapLeft := rfl
@[simp] theorem modChute_randomJob : (modChute c f b).randomJob = b.randomJob := rfl
@[simp] theorem modChute_unwrapFenced : (modChute c f b).unwrapFenced = b.unwrapFenced := rfl
@[simp] theorem modChute_entropyFenced : (modChute c f b).entropyFenced = b.entropyFenced := rfl
@[simp] theorem modChute_bridgesFenced : (modChute c f b).bridgesFenced = b.bridgesFenced := rfl
@[simp] theorem modChute_pack : (modChute c f b).pack = b.pack := rfl
@[simp] theorem modChute_floor : (modChute c f b).floor = b.floor := rfl
@[simp] theorem modChute_curves : (modChute c f b).curves = b.curves := rfl
@[simp] theorem modChute_tack : (modChute c f b).tack = b.tack := rfl
@[simp] theorem modChute_ym : (modChute c f b).ym = b.ym := rfl
@[simp] theorem modChute_chutes : (modChute c f b).chutes = b.chutes.mod c f := rfl
@[simp] theorem modChute_movers : (modChute c f b).movers = b.movers := rfl
@[simp] theorem modChute_timers : (modChute c f b).timers = b.timers := rfl
@[simp] theorem modChute_dp0 : (modChute c f b).dp0 = b.dp0 := rfl
@[simp] theorem modChute_dp1 : (modChute c f b).dp1 = b.dp1 := rfl
@[simp] theorem modChute_rp : (modChute c f b).rp = b.rp := rfl
@[simp] theorem modChute_portDrain : (modChute c f b).portDrain = b.portDrain := rfl
@[simp] theorem modChute_holds : (modChute c f b).holds = b.holds := rfl
@[simp] theorem modChute_wear : (modChute c f b).wear = b.wear := rfl
@[simp] theorem modChute_rerates : (modChute c f b).rerates = b.rerates := rfl
@[simp] theorem modChute_wearDue : (modChute c f b).wearDue = b.wearDue := rfl
@[simp] theorem modChute_tempDue : (modChute c f b).tempDue = b.tempDue := rfl
@[simp] theorem modChute_dbFifo : (modChute c f b).dbFifo = b.dbFifo := rfl
@[simp] theorem modChute_rpFifo : (modChute c f b).rpFifo = b.rpFifo := rfl
@[simp] theorem modChute_dbCredits : (modChute c f b).dbCredits = b.dbCredits := rfl
@[simp] theorem modChute_dbRdata : (modChute c f b).dbRdata = b.dbRdata := rfl
@[simp] theorem modChute_mpaCredits : (modChute c f b).mpaCredits = b.mpaCredits := rfl
@[simp] theorem modChute_mpbCredits : (modChute c f b).mpbCredits = b.mpbCredits := rfl
@[simp] theorem modChute_mpFifo : (modChute c f b).mpFifo = b.mpFifo := rfl
@[simp] theorem modChute_draws : (modChute c f b).draws = b.draws := rfl
@[simp] theorem modChute_free : (modChute c f b).free = b.free := rfl
@[simp] theorem modChute_now : (modChute c f b).now = b.now := rfl
end modChute

section modMover
variable (m : Nat) (f : Mover → Mover)
@[simp] theorem modMover_boot : (modMover m f b).boot = b.boot := rfl
@[simp] theorem modMover_sensed : (modMover m f b).sensed = b.sensed := rfl
@[simp] theorem modMover_lt : (modMover m f b).lt = b.lt := rfl
@[simp] theorem modMover_sb : (modMover m f b).sb = b.sb := rfl
@[simp] theorem modMover_sbQueue : (modMover m f b).sbQueue = b.sbQueue := rfl
@[simp] theorem modMover_sbDrop : (modMover m f b).sbDrop = b.sbDrop := rfl
@[simp] theorem modMover_stalls : (modMover m f b).stalls = b.stalls := rfl
@[simp] theorem modMover_jobs : (modMover m f b).jobs = b.jobs := rfl
@[simp] theorem modMover_serial : (modMover m f b).serial = b.serial := rfl
@[simp] theorem modMover_hitchSerial : (modMover m f b).hitchSerial = b.hitchSerial := rfl
@[simp] theorem modMover_rrDispatch : (modMover m f b).rrDispatch = b.rrDispatch := rfl
@[simp] theorem modMover_deficit : (modMover m f b).deficit = b.deficit := rfl
@[simp] theorem modMover_rrEngine : (modMover m f b).rrEngine = b.rrEngine := rfl
@[simp] theorem modMover_lanes : (modMover m f b).lanes = b.lanes := rfl
@[simp] theorem modMover_digestJobs : (modMover m f b).digestJobs = b.digestJobs := rfl
@[simp] theorem modMover_digestHitches : (modMover m f b).digestHitches = b.digestHitches := rfl
@[simp] theorem modMover_islands : (modMover m f b).islands = b.islands := rfl
@[simp] theorem modMover_cores : (modMover m f b).cores = b.cores := rfl
@[simp] theorem modMover_coreJobs : (modMover m f b).coreJobs = b.coreJobs := rfl
@[simp] theorem modMover_unwrapJobs : (modMover m f b).unwrapJobs = b.unwrapJobs := rfl
@[simp] theorem modMover_unwrapLeft : (modMover m f b).unwrapLeft = b.unwrapLeft := rfl
@[simp] theorem modMover_randomJob : (modMover m f b).randomJob = b.randomJob := rfl
@[simp] theorem modMover_unwrapFenced : (modMover m f b).unwrapFenced = b.unwrapFenced := rfl
@[simp] theorem modMover_entropyFenced : (modMover m f b).entropyFenced = b.entropyFenced := rfl
@[simp] theorem modMover_bridgesFenced : (modMover m f b).bridgesFenced = b.bridgesFenced := rfl
@[simp] theorem modMover_pack : (modMover m f b).pack = b.pack := rfl
@[simp] theorem modMover_floor : (modMover m f b).floor = b.floor := rfl
@[simp] theorem modMover_curves : (modMover m f b).curves = b.curves := rfl
@[simp] theorem modMover_tack : (modMover m f b).tack = b.tack := rfl
@[simp] theorem modMover_ym : (modMover m f b).ym = b.ym := rfl
@[simp] theorem modMover_chutes : (modMover m f b).chutes = b.chutes := rfl
@[simp] theorem modMover_movers : (modMover m f b).movers = b.movers.mod m f := rfl
@[simp] theorem modMover_timers : (modMover m f b).timers = b.timers := rfl
@[simp] theorem modMover_dp0 : (modMover m f b).dp0 = b.dp0 := rfl
@[simp] theorem modMover_dp1 : (modMover m f b).dp1 = b.dp1 := rfl
@[simp] theorem modMover_rp : (modMover m f b).rp = b.rp := rfl
@[simp] theorem modMover_portDrain : (modMover m f b).portDrain = b.portDrain := rfl
@[simp] theorem modMover_holds : (modMover m f b).holds = b.holds := rfl
@[simp] theorem modMover_wear : (modMover m f b).wear = b.wear := rfl
@[simp] theorem modMover_rerates : (modMover m f b).rerates = b.rerates := rfl
@[simp] theorem modMover_wearDue : (modMover m f b).wearDue = b.wearDue := rfl
@[simp] theorem modMover_tempDue : (modMover m f b).tempDue = b.tempDue := rfl
@[simp] theorem modMover_dbFifo : (modMover m f b).dbFifo = b.dbFifo := rfl
@[simp] theorem modMover_rpFifo : (modMover m f b).rpFifo = b.rpFifo := rfl
@[simp] theorem modMover_dbCredits : (modMover m f b).dbCredits = b.dbCredits := rfl
@[simp] theorem modMover_dbRdata : (modMover m f b).dbRdata = b.dbRdata := rfl
@[simp] theorem modMover_mpaCredits : (modMover m f b).mpaCredits = b.mpaCredits := rfl
@[simp] theorem modMover_mpbCredits : (modMover m f b).mpbCredits = b.mpbCredits := rfl
@[simp] theorem modMover_mpFifo : (modMover m f b).mpFifo = b.mpFifo := rfl
@[simp] theorem modMover_draws : (modMover m f b).draws = b.draws := rfl
@[simp] theorem modMover_free : (modMover m f b).free = b.free := rfl
@[simp] theorem modMover_now : (modMover m f b).now = b.now := rfl
end modMover

section modLt
variable (f : LeanTo → LeanTo)
@[simp] theorem modLt_boot : (modLt f b).boot = b.boot := rfl
@[simp] theorem modLt_sensed : (modLt f b).sensed = b.sensed := rfl
@[simp] theorem modLt_lt : (modLt f b).lt = f b.lt := rfl
@[simp] theorem modLt_sb : (modLt f b).sb = b.sb := rfl
@[simp] theorem modLt_sbQueue : (modLt f b).sbQueue = b.sbQueue := rfl
@[simp] theorem modLt_sbDrop : (modLt f b).sbDrop = b.sbDrop := rfl
@[simp] theorem modLt_stalls : (modLt f b).stalls = b.stalls := rfl
@[simp] theorem modLt_jobs : (modLt f b).jobs = b.jobs := rfl
@[simp] theorem modLt_serial : (modLt f b).serial = b.serial := rfl
@[simp] theorem modLt_hitchSerial : (modLt f b).hitchSerial = b.hitchSerial := rfl
@[simp] theorem modLt_rrDispatch : (modLt f b).rrDispatch = b.rrDispatch := rfl
@[simp] theorem modLt_deficit : (modLt f b).deficit = b.deficit := rfl
@[simp] theorem modLt_rrEngine : (modLt f b).rrEngine = b.rrEngine := rfl
@[simp] theorem modLt_lanes : (modLt f b).lanes = b.lanes := rfl
@[simp] theorem modLt_digestJobs : (modLt f b).digestJobs = b.digestJobs := rfl
@[simp] theorem modLt_digestHitches : (modLt f b).digestHitches = b.digestHitches := rfl
@[simp] theorem modLt_islands : (modLt f b).islands = b.islands := rfl
@[simp] theorem modLt_cores : (modLt f b).cores = b.cores := rfl
@[simp] theorem modLt_coreJobs : (modLt f b).coreJobs = b.coreJobs := rfl
@[simp] theorem modLt_unwrapJobs : (modLt f b).unwrapJobs = b.unwrapJobs := rfl
@[simp] theorem modLt_unwrapLeft : (modLt f b).unwrapLeft = b.unwrapLeft := rfl
@[simp] theorem modLt_randomJob : (modLt f b).randomJob = b.randomJob := rfl
@[simp] theorem modLt_unwrapFenced : (modLt f b).unwrapFenced = b.unwrapFenced := rfl
@[simp] theorem modLt_entropyFenced : (modLt f b).entropyFenced = b.entropyFenced := rfl
@[simp] theorem modLt_bridgesFenced : (modLt f b).bridgesFenced = b.bridgesFenced := rfl
@[simp] theorem modLt_pack : (modLt f b).pack = b.pack := rfl
@[simp] theorem modLt_floor : (modLt f b).floor = b.floor := rfl
@[simp] theorem modLt_curves : (modLt f b).curves = b.curves := rfl
@[simp] theorem modLt_tack : (modLt f b).tack = b.tack := rfl
@[simp] theorem modLt_ym : (modLt f b).ym = b.ym := rfl
@[simp] theorem modLt_chutes : (modLt f b).chutes = b.chutes := rfl
@[simp] theorem modLt_movers : (modLt f b).movers = b.movers := rfl
@[simp] theorem modLt_timers : (modLt f b).timers = b.timers := rfl
@[simp] theorem modLt_dp0 : (modLt f b).dp0 = b.dp0 := rfl
@[simp] theorem modLt_dp1 : (modLt f b).dp1 = b.dp1 := rfl
@[simp] theorem modLt_rp : (modLt f b).rp = b.rp := rfl
@[simp] theorem modLt_portDrain : (modLt f b).portDrain = b.portDrain := rfl
@[simp] theorem modLt_holds : (modLt f b).holds = b.holds := rfl
@[simp] theorem modLt_wear : (modLt f b).wear = b.wear := rfl
@[simp] theorem modLt_rerates : (modLt f b).rerates = b.rerates := rfl
@[simp] theorem modLt_wearDue : (modLt f b).wearDue = b.wearDue := rfl
@[simp] theorem modLt_tempDue : (modLt f b).tempDue = b.tempDue := rfl
@[simp] theorem modLt_dbFifo : (modLt f b).dbFifo = b.dbFifo := rfl
@[simp] theorem modLt_rpFifo : (modLt f b).rpFifo = b.rpFifo := rfl
@[simp] theorem modLt_dbCredits : (modLt f b).dbCredits = b.dbCredits := rfl
@[simp] theorem modLt_dbRdata : (modLt f b).dbRdata = b.dbRdata := rfl
@[simp] theorem modLt_mpaCredits : (modLt f b).mpaCredits = b.mpaCredits := rfl
@[simp] theorem modLt_mpbCredits : (modLt f b).mpbCredits = b.mpbCredits := rfl
@[simp] theorem modLt_mpFifo : (modLt f b).mpFifo = b.mpFifo := rfl
@[simp] theorem modLt_draws : (modLt f b).draws = b.draws := rfl
@[simp] theorem modLt_free : (modLt f b).free = b.free := rfl
@[simp] theorem modLt_now : (modLt f b).now = b.now := rfl
end modLt

section modBoot
variable (f : Boot → Boot)
@[simp] theorem modBoot_boot : (modBoot f b).boot = f b.boot := rfl
@[simp] theorem modBoot_sensed : (modBoot f b).sensed = b.sensed := rfl
@[simp] theorem modBoot_lt : (modBoot f b).lt = b.lt := rfl
@[simp] theorem modBoot_sb : (modBoot f b).sb = b.sb := rfl
@[simp] theorem modBoot_sbQueue : (modBoot f b).sbQueue = b.sbQueue := rfl
@[simp] theorem modBoot_sbDrop : (modBoot f b).sbDrop = b.sbDrop := rfl
@[simp] theorem modBoot_stalls : (modBoot f b).stalls = b.stalls := rfl
@[simp] theorem modBoot_jobs : (modBoot f b).jobs = b.jobs := rfl
@[simp] theorem modBoot_serial : (modBoot f b).serial = b.serial := rfl
@[simp] theorem modBoot_hitchSerial : (modBoot f b).hitchSerial = b.hitchSerial := rfl
@[simp] theorem modBoot_rrDispatch : (modBoot f b).rrDispatch = b.rrDispatch := rfl
@[simp] theorem modBoot_deficit : (modBoot f b).deficit = b.deficit := rfl
@[simp] theorem modBoot_rrEngine : (modBoot f b).rrEngine = b.rrEngine := rfl
@[simp] theorem modBoot_lanes : (modBoot f b).lanes = b.lanes := rfl
@[simp] theorem modBoot_digestJobs : (modBoot f b).digestJobs = b.digestJobs := rfl
@[simp] theorem modBoot_digestHitches : (modBoot f b).digestHitches = b.digestHitches := rfl
@[simp] theorem modBoot_islands : (modBoot f b).islands = b.islands := rfl
@[simp] theorem modBoot_cores : (modBoot f b).cores = b.cores := rfl
@[simp] theorem modBoot_coreJobs : (modBoot f b).coreJobs = b.coreJobs := rfl
@[simp] theorem modBoot_unwrapJobs : (modBoot f b).unwrapJobs = b.unwrapJobs := rfl
@[simp] theorem modBoot_unwrapLeft : (modBoot f b).unwrapLeft = b.unwrapLeft := rfl
@[simp] theorem modBoot_randomJob : (modBoot f b).randomJob = b.randomJob := rfl
@[simp] theorem modBoot_unwrapFenced : (modBoot f b).unwrapFenced = b.unwrapFenced := rfl
@[simp] theorem modBoot_entropyFenced : (modBoot f b).entropyFenced = b.entropyFenced := rfl
@[simp] theorem modBoot_bridgesFenced : (modBoot f b).bridgesFenced = b.bridgesFenced := rfl
@[simp] theorem modBoot_pack : (modBoot f b).pack = b.pack := rfl
@[simp] theorem modBoot_floor : (modBoot f b).floor = b.floor := rfl
@[simp] theorem modBoot_curves : (modBoot f b).curves = b.curves := rfl
@[simp] theorem modBoot_tack : (modBoot f b).tack = b.tack := rfl
@[simp] theorem modBoot_ym : (modBoot f b).ym = b.ym := rfl
@[simp] theorem modBoot_chutes : (modBoot f b).chutes = b.chutes := rfl
@[simp] theorem modBoot_movers : (modBoot f b).movers = b.movers := rfl
@[simp] theorem modBoot_timers : (modBoot f b).timers = b.timers := rfl
@[simp] theorem modBoot_dp0 : (modBoot f b).dp0 = b.dp0 := rfl
@[simp] theorem modBoot_dp1 : (modBoot f b).dp1 = b.dp1 := rfl
@[simp] theorem modBoot_rp : (modBoot f b).rp = b.rp := rfl
@[simp] theorem modBoot_portDrain : (modBoot f b).portDrain = b.portDrain := rfl
@[simp] theorem modBoot_holds : (modBoot f b).holds = b.holds := rfl
@[simp] theorem modBoot_wear : (modBoot f b).wear = b.wear := rfl
@[simp] theorem modBoot_rerates : (modBoot f b).rerates = b.rerates := rfl
@[simp] theorem modBoot_wearDue : (modBoot f b).wearDue = b.wearDue := rfl
@[simp] theorem modBoot_tempDue : (modBoot f b).tempDue = b.tempDue := rfl
@[simp] theorem modBoot_dbFifo : (modBoot f b).dbFifo = b.dbFifo := rfl
@[simp] theorem modBoot_rpFifo : (modBoot f b).rpFifo = b.rpFifo := rfl
@[simp] theorem modBoot_dbCredits : (modBoot f b).dbCredits = b.dbCredits := rfl
@[simp] theorem modBoot_dbRdata : (modBoot f b).dbRdata = b.dbRdata := rfl
@[simp] theorem modBoot_mpaCredits : (modBoot f b).mpaCredits = b.mpaCredits := rfl
@[simp] theorem modBoot_mpbCredits : (modBoot f b).mpbCredits = b.mpbCredits := rfl
@[simp] theorem modBoot_mpFifo : (modBoot f b).mpFifo = b.mpFifo := rfl
@[simp] theorem modBoot_draws : (modBoot f b).draws = b.draws := rfl
@[simp] theorem modBoot_free : (modBoot f b).free = b.free := rfl
@[simp] theorem modBoot_now : (modBoot f b).now = b.now := rfl
end modBoot

section drew
@[simp] theorem drew_boot : (drew b).boot = b.boot := rfl
@[simp] theorem drew_sensed : (drew b).sensed = b.sensed := rfl
@[simp] theorem drew_lt : (drew b).lt = b.lt := rfl
@[simp] theorem drew_sb : (drew b).sb = b.sb := rfl
@[simp] theorem drew_sbQueue : (drew b).sbQueue = b.sbQueue := rfl
@[simp] theorem drew_sbDrop : (drew b).sbDrop = b.sbDrop := rfl
@[simp] theorem drew_stalls : (drew b).stalls = b.stalls := rfl
@[simp] theorem drew_jobs : (drew b).jobs = b.jobs := rfl
@[simp] theorem drew_serial : (drew b).serial = b.serial := rfl
@[simp] theorem drew_hitchSerial : (drew b).hitchSerial = b.hitchSerial := rfl
@[simp] theorem drew_rrDispatch : (drew b).rrDispatch = b.rrDispatch := rfl
@[simp] theorem drew_deficit : (drew b).deficit = b.deficit := rfl
@[simp] theorem drew_rrEngine : (drew b).rrEngine = b.rrEngine := rfl
@[simp] theorem drew_lanes : (drew b).lanes = b.lanes := rfl
@[simp] theorem drew_digestJobs : (drew b).digestJobs = b.digestJobs := rfl
@[simp] theorem drew_digestHitches : (drew b).digestHitches = b.digestHitches := rfl
@[simp] theorem drew_islands : (drew b).islands = b.islands := rfl
@[simp] theorem drew_cores : (drew b).cores = b.cores := rfl
@[simp] theorem drew_coreJobs : (drew b).coreJobs = b.coreJobs := rfl
@[simp] theorem drew_unwrapJobs : (drew b).unwrapJobs = b.unwrapJobs := rfl
@[simp] theorem drew_unwrapLeft : (drew b).unwrapLeft = b.unwrapLeft := rfl
@[simp] theorem drew_randomJob : (drew b).randomJob = b.randomJob := rfl
@[simp] theorem drew_unwrapFenced : (drew b).unwrapFenced = b.unwrapFenced := rfl
@[simp] theorem drew_entropyFenced : (drew b).entropyFenced = b.entropyFenced := rfl
@[simp] theorem drew_bridgesFenced : (drew b).bridgesFenced = b.bridgesFenced := rfl
@[simp] theorem drew_pack : (drew b).pack = b.pack := rfl
@[simp] theorem drew_floor : (drew b).floor = b.floor := rfl
@[simp] theorem drew_curves : (drew b).curves = b.curves := rfl
@[simp] theorem drew_tack : (drew b).tack = b.tack := rfl
@[simp] theorem drew_ym : (drew b).ym = b.ym := rfl
@[simp] theorem drew_chutes : (drew b).chutes = b.chutes := rfl
@[simp] theorem drew_movers : (drew b).movers = b.movers := rfl
@[simp] theorem drew_timers : (drew b).timers = b.timers := rfl
@[simp] theorem drew_dp0 : (drew b).dp0 = b.dp0 := rfl
@[simp] theorem drew_dp1 : (drew b).dp1 = b.dp1 := rfl
@[simp] theorem drew_rp : (drew b).rp = b.rp := rfl
@[simp] theorem drew_portDrain : (drew b).portDrain = b.portDrain := rfl
@[simp] theorem drew_holds : (drew b).holds = b.holds := rfl
@[simp] theorem drew_wear : (drew b).wear = b.wear := rfl
@[simp] theorem drew_rerates : (drew b).rerates = b.rerates := rfl
@[simp] theorem drew_wearDue : (drew b).wearDue = b.wearDue := rfl
@[simp] theorem drew_tempDue : (drew b).tempDue = b.tempDue := rfl
@[simp] theorem drew_dbFifo : (drew b).dbFifo = b.dbFifo := rfl
@[simp] theorem drew_rpFifo : (drew b).rpFifo = b.rpFifo := rfl
@[simp] theorem drew_dbCredits : (drew b).dbCredits = b.dbCredits := rfl
@[simp] theorem drew_dbRdata : (drew b).dbRdata = b.dbRdata := rfl
@[simp] theorem drew_mpaCredits : (drew b).mpaCredits = b.mpaCredits := rfl
@[simp] theorem drew_mpbCredits : (drew b).mpbCredits = b.mpbCredits := rfl
@[simp] theorem drew_mpFifo : (drew b).mpFifo = b.mpFifo := rfl
@[simp] theorem drew_draws : (drew b).draws = b.draws + 1 := rfl
@[simp] theorem drew_free : (drew b).free = b.free := rfl
@[simp] theorem drew_now : (drew b).now = b.now := rfl
end drew

section freed
@[simp] theorem freed_boot : (freed b).boot = b.boot := rfl
@[simp] theorem freed_sensed : (freed b).sensed = b.sensed := rfl
@[simp] theorem freed_lt : (freed b).lt = b.lt := rfl
@[simp] theorem freed_sb : (freed b).sb = b.sb := rfl
@[simp] theorem freed_sbQueue : (freed b).sbQueue = b.sbQueue := rfl
@[simp] theorem freed_sbDrop : (freed b).sbDrop = b.sbDrop := rfl
@[simp] theorem freed_stalls : (freed b).stalls = b.stalls := rfl
@[simp] theorem freed_jobs : (freed b).jobs = b.jobs := rfl
@[simp] theorem freed_serial : (freed b).serial = b.serial := rfl
@[simp] theorem freed_hitchSerial : (freed b).hitchSerial = b.hitchSerial := rfl
@[simp] theorem freed_rrDispatch : (freed b).rrDispatch = b.rrDispatch := rfl
@[simp] theorem freed_deficit : (freed b).deficit = b.deficit := rfl
@[simp] theorem freed_rrEngine : (freed b).rrEngine = b.rrEngine := rfl
@[simp] theorem freed_lanes : (freed b).lanes = b.lanes := rfl
@[simp] theorem freed_digestJobs : (freed b).digestJobs = b.digestJobs := rfl
@[simp] theorem freed_digestHitches : (freed b).digestHitches = b.digestHitches := rfl
@[simp] theorem freed_islands : (freed b).islands = b.islands := rfl
@[simp] theorem freed_cores : (freed b).cores = b.cores := rfl
@[simp] theorem freed_coreJobs : (freed b).coreJobs = b.coreJobs := rfl
@[simp] theorem freed_unwrapJobs : (freed b).unwrapJobs = b.unwrapJobs := rfl
@[simp] theorem freed_unwrapLeft : (freed b).unwrapLeft = b.unwrapLeft := rfl
@[simp] theorem freed_randomJob : (freed b).randomJob = b.randomJob := rfl
@[simp] theorem freed_unwrapFenced : (freed b).unwrapFenced = b.unwrapFenced := rfl
@[simp] theorem freed_entropyFenced : (freed b).entropyFenced = b.entropyFenced := rfl
@[simp] theorem freed_bridgesFenced : (freed b).bridgesFenced = b.bridgesFenced := rfl
@[simp] theorem freed_pack : (freed b).pack = b.pack := rfl
@[simp] theorem freed_floor : (freed b).floor = b.floor := rfl
@[simp] theorem freed_curves : (freed b).curves = b.curves := rfl
@[simp] theorem freed_tack : (freed b).tack = b.tack := rfl
@[simp] theorem freed_ym : (freed b).ym = b.ym := rfl
@[simp] theorem freed_chutes : (freed b).chutes = b.chutes := rfl
@[simp] theorem freed_movers : (freed b).movers = b.movers := rfl
@[simp] theorem freed_timers : (freed b).timers = b.timers := rfl
@[simp] theorem freed_dp0 : (freed b).dp0 = b.dp0 := rfl
@[simp] theorem freed_dp1 : (freed b).dp1 = b.dp1 := rfl
@[simp] theorem freed_rp : (freed b).rp = b.rp := rfl
@[simp] theorem freed_portDrain : (freed b).portDrain = b.portDrain := rfl
@[simp] theorem freed_holds : (freed b).holds = b.holds := rfl
@[simp] theorem freed_wear : (freed b).wear = b.wear := rfl
@[simp] theorem freed_rerates : (freed b).rerates = b.rerates := rfl
@[simp] theorem freed_wearDue : (freed b).wearDue = b.wearDue := rfl
@[simp] theorem freed_tempDue : (freed b).tempDue = b.tempDue := rfl
@[simp] theorem freed_dbFifo : (freed b).dbFifo = b.dbFifo := rfl
@[simp] theorem freed_rpFifo : (freed b).rpFifo = b.rpFifo := rfl
@[simp] theorem freed_dbCredits : (freed b).dbCredits = b.dbCredits := rfl
@[simp] theorem freed_dbRdata : (freed b).dbRdata = b.dbRdata := rfl
@[simp] theorem freed_mpaCredits : (freed b).mpaCredits = b.mpaCredits := rfl
@[simp] theorem freed_mpbCredits : (freed b).mpbCredits = b.mpbCredits := rfl
@[simp] theorem freed_mpFifo : (freed b).mpFifo = b.mpFifo := rfl
@[simp] theorem freed_draws : (freed b).draws = b.draws := rfl
@[simp] theorem freed_free : (freed b).free = b.free + 1 := rfl
@[simp] theorem freed_now : (freed b).now = b.now := rfl
end freed

section idle
@[simp] theorem idle_boot : (idle b).boot = b.boot := rfl
@[simp] theorem idle_sensed : (idle b).sensed = b.sensed := rfl
@[simp] theorem idle_lt : (idle b).lt = b.lt := rfl
@[simp] theorem idle_sb : (idle b).sb = b.sb := rfl
@[simp] theorem idle_sbQueue : (idle b).sbQueue = b.sbQueue := rfl
@[simp] theorem idle_sbDrop : (idle b).sbDrop = b.sbDrop := rfl
@[simp] theorem idle_stalls : (idle b).stalls = b.stalls := rfl
@[simp] theorem idle_jobs : (idle b).jobs = b.jobs := rfl
@[simp] theorem idle_serial : (idle b).serial = b.serial := rfl
@[simp] theorem idle_hitchSerial : (idle b).hitchSerial = b.hitchSerial := rfl
@[simp] theorem idle_rrDispatch : (idle b).rrDispatch = b.rrDispatch := rfl
@[simp] theorem idle_deficit : (idle b).deficit = b.deficit := rfl
@[simp] theorem idle_rrEngine : (idle b).rrEngine = b.rrEngine := rfl
@[simp] theorem idle_lanes : (idle b).lanes = b.lanes := rfl
@[simp] theorem idle_digestJobs : (idle b).digestJobs = b.digestJobs := rfl
@[simp] theorem idle_digestHitches : (idle b).digestHitches = b.digestHitches := rfl
@[simp] theorem idle_islands : (idle b).islands = b.islands := rfl
@[simp] theorem idle_coreJobs : (idle b).coreJobs = b.coreJobs := rfl
@[simp] theorem idle_unwrapJobs : (idle b).unwrapJobs = b.unwrapJobs := rfl
@[simp] theorem idle_unwrapLeft : (idle b).unwrapLeft = b.unwrapLeft := rfl
@[simp] theorem idle_randomJob : (idle b).randomJob = b.randomJob := rfl
@[simp] theorem idle_unwrapFenced : (idle b).unwrapFenced = b.unwrapFenced := rfl
@[simp] theorem idle_entropyFenced : (idle b).entropyFenced = b.entropyFenced := rfl
@[simp] theorem idle_bridgesFenced : (idle b).bridgesFenced = b.bridgesFenced := rfl
@[simp] theorem idle_pack : (idle b).pack = b.pack := rfl
@[simp] theorem idle_floor : (idle b).floor = b.floor := rfl
@[simp] theorem idle_curves : (idle b).curves = b.curves := rfl
@[simp] theorem idle_tack : (idle b).tack = b.tack := rfl
@[simp] theorem idle_ym : (idle b).ym = b.ym := rfl
@[simp] theorem idle_chutes : (idle b).chutes = b.chutes := rfl
@[simp] theorem idle_movers : (idle b).movers = b.movers := rfl
@[simp] theorem idle_timers : (idle b).timers = b.timers := rfl
@[simp] theorem idle_dp0 : (idle b).dp0 = b.dp0 := rfl
@[simp] theorem idle_dp1 : (idle b).dp1 = b.dp1 := rfl
@[simp] theorem idle_rp : (idle b).rp = b.rp := rfl
@[simp] theorem idle_portDrain : (idle b).portDrain = b.portDrain := rfl
@[simp] theorem idle_holds : (idle b).holds = b.holds := rfl
@[simp] theorem idle_wear : (idle b).wear = b.wear := rfl
@[simp] theorem idle_rerates : (idle b).rerates = b.rerates := rfl
@[simp] theorem idle_wearDue : (idle b).wearDue = b.wearDue := rfl
@[simp] theorem idle_tempDue : (idle b).tempDue = b.tempDue := rfl
@[simp] theorem idle_dbFifo : (idle b).dbFifo = b.dbFifo := rfl
@[simp] theorem idle_rpFifo : (idle b).rpFifo = b.rpFifo := rfl
@[simp] theorem idle_dbCredits : (idle b).dbCredits = b.dbCredits := rfl
@[simp] theorem idle_dbRdata : (idle b).dbRdata = b.dbRdata := rfl
@[simp] theorem idle_mpaCredits : (idle b).mpaCredits = b.mpaCredits := rfl
@[simp] theorem idle_mpbCredits : (idle b).mpbCredits = b.mpbCredits := rfl
@[simp] theorem idle_mpFifo : (idle b).mpFifo = b.mpFifo := rfl
@[simp] theorem idle_draws : (idle b).draws = b.draws := rfl
@[simp] theorem idle_free : (idle b).free = b.free := rfl
@[simp] theorem idle_now : (idle b).now = b.now + 1 := rfl
end idle

section setPort
variable (p : Port) (st : PortSt)
@[simp] theorem setPort_boot : (setPort p st b).boot = b.boot := by cases p <;> rfl
@[simp] theorem setPort_sensed : (setPort p st b).sensed = b.sensed := by cases p <;> rfl
@[simp] theorem setPort_lt : (setPort p st b).lt = b.lt := by cases p <;> rfl
@[simp] theorem setPort_sb : (setPort p st b).sb = b.sb := by cases p <;> rfl
@[simp] theorem setPort_sbQueue : (setPort p st b).sbQueue = b.sbQueue := by cases p <;> rfl
@[simp] theorem setPort_sbDrop : (setPort p st b).sbDrop = b.sbDrop := by cases p <;> rfl
@[simp] theorem setPort_stalls : (setPort p st b).stalls = b.stalls := by cases p <;> rfl
@[simp] theorem setPort_jobs : (setPort p st b).jobs = b.jobs := by cases p <;> rfl
@[simp] theorem setPort_serial : (setPort p st b).serial = b.serial := by cases p <;> rfl
@[simp] theorem setPort_hitchSerial : (setPort p st b).hitchSerial = b.hitchSerial := by cases p <;> rfl
@[simp] theorem setPort_rrDispatch : (setPort p st b).rrDispatch = b.rrDispatch := by cases p <;> rfl
@[simp] theorem setPort_deficit : (setPort p st b).deficit = b.deficit := by cases p <;> rfl
@[simp] theorem setPort_rrEngine : (setPort p st b).rrEngine = b.rrEngine := by cases p <;> rfl
@[simp] theorem setPort_lanes : (setPort p st b).lanes = b.lanes := by cases p <;> rfl
@[simp] theorem setPort_digestJobs : (setPort p st b).digestJobs = b.digestJobs := by cases p <;> rfl
@[simp] theorem setPort_digestHitches : (setPort p st b).digestHitches = b.digestHitches := by cases p <;> rfl
@[simp] theorem setPort_islands : (setPort p st b).islands = b.islands := by cases p <;> rfl
@[simp] theorem setPort_cores : (setPort p st b).cores = b.cores := by cases p <;> rfl
@[simp] theorem setPort_coreJobs : (setPort p st b).coreJobs = b.coreJobs := by cases p <;> rfl
@[simp] theorem setPort_unwrapJobs : (setPort p st b).unwrapJobs = b.unwrapJobs := by cases p <;> rfl
@[simp] theorem setPort_unwrapLeft : (setPort p st b).unwrapLeft = b.unwrapLeft := by cases p <;> rfl
@[simp] theorem setPort_randomJob : (setPort p st b).randomJob = b.randomJob := by cases p <;> rfl
@[simp] theorem setPort_unwrapFenced : (setPort p st b).unwrapFenced = b.unwrapFenced := by cases p <;> rfl
@[simp] theorem setPort_entropyFenced : (setPort p st b).entropyFenced = b.entropyFenced := by cases p <;> rfl
@[simp] theorem setPort_bridgesFenced : (setPort p st b).bridgesFenced = b.bridgesFenced := by cases p <;> rfl
@[simp] theorem setPort_pack : (setPort p st b).pack = b.pack := by cases p <;> rfl
@[simp] theorem setPort_floor : (setPort p st b).floor = b.floor := by cases p <;> rfl
@[simp] theorem setPort_curves : (setPort p st b).curves = b.curves := by cases p <;> rfl
@[simp] theorem setPort_tack : (setPort p st b).tack = b.tack := by cases p <;> rfl
@[simp] theorem setPort_ym : (setPort p st b).ym = b.ym := by cases p <;> rfl
@[simp] theorem setPort_chutes : (setPort p st b).chutes = b.chutes := by cases p <;> rfl
@[simp] theorem setPort_movers : (setPort p st b).movers = b.movers := by cases p <;> rfl
@[simp] theorem setPort_timers : (setPort p st b).timers = b.timers := by cases p <;> rfl
@[simp] theorem setPort_portDrain : (setPort p st b).portDrain = b.portDrain := by cases p <;> rfl
@[simp] theorem setPort_holds : (setPort p st b).holds = b.holds := by cases p <;> rfl
@[simp] theorem setPort_wear : (setPort p st b).wear = b.wear := by cases p <;> rfl
@[simp] theorem setPort_rerates : (setPort p st b).rerates = b.rerates := by cases p <;> rfl
@[simp] theorem setPort_wearDue : (setPort p st b).wearDue = b.wearDue := by cases p <;> rfl
@[simp] theorem setPort_tempDue : (setPort p st b).tempDue = b.tempDue := by cases p <;> rfl
@[simp] theorem setPort_dbFifo : (setPort p st b).dbFifo = b.dbFifo := by cases p <;> rfl
@[simp] theorem setPort_rpFifo : (setPort p st b).rpFifo = b.rpFifo := by cases p <;> rfl
@[simp] theorem setPort_dbCredits : (setPort p st b).dbCredits = b.dbCredits := by cases p <;> rfl
@[simp] theorem setPort_dbRdata : (setPort p st b).dbRdata = b.dbRdata := by cases p <;> rfl
@[simp] theorem setPort_mpaCredits : (setPort p st b).mpaCredits = b.mpaCredits := by cases p <;> rfl
@[simp] theorem setPort_mpbCredits : (setPort p st b).mpbCredits = b.mpbCredits := by cases p <;> rfl
@[simp] theorem setPort_mpFifo : (setPort p st b).mpFifo = b.mpFifo := by cases p <;> rfl
@[simp] theorem setPort_draws : (setPort p st b).draws = b.draws := by cases p <;> rfl
@[simp] theorem setPort_free : (setPort p st b).free = b.free := by cases p <;> rfl
@[simp] theorem setPort_now : (setPort p st b).now = b.now := by cases p <;> rfl
end setPort

section when_
variable (c : Bool) (f : Block → Block)
theorem when_boot : (when c f b).boot = if c then (f b).boot else b.boot := by cases c <;> rfl
theorem when_sensed : (when c f b).sensed = if c then (f b).sensed else b.sensed := by cases c <;> rfl
theorem when_lt : (when c f b).lt = if c then (f b).lt else b.lt := by cases c <;> rfl
theorem when_sb : (when c f b).sb = if c then (f b).sb else b.sb := by cases c <;> rfl
theorem when_sbQueue : (when c f b).sbQueue = if c then (f b).sbQueue else b.sbQueue := by cases c <;> rfl
theorem when_sbDrop : (when c f b).sbDrop = if c then (f b).sbDrop else b.sbDrop := by cases c <;> rfl
theorem when_stalls : (when c f b).stalls = if c then (f b).stalls else b.stalls := by cases c <;> rfl
theorem when_jobs : (when c f b).jobs = if c then (f b).jobs else b.jobs := by cases c <;> rfl
theorem when_serial : (when c f b).serial = if c then (f b).serial else b.serial := by cases c <;> rfl
theorem when_hitchSerial : (when c f b).hitchSerial = if c then (f b).hitchSerial else b.hitchSerial := by cases c <;> rfl
theorem when_rrDispatch : (when c f b).rrDispatch = if c then (f b).rrDispatch else b.rrDispatch := by cases c <;> rfl
theorem when_deficit : (when c f b).deficit = if c then (f b).deficit else b.deficit := by cases c <;> rfl
theorem when_rrEngine : (when c f b).rrEngine = if c then (f b).rrEngine else b.rrEngine := by cases c <;> rfl
theorem when_lanes : (when c f b).lanes = if c then (f b).lanes else b.lanes := by cases c <;> rfl
theorem when_digestJobs : (when c f b).digestJobs = if c then (f b).digestJobs else b.digestJobs := by cases c <;> rfl
theorem when_digestHitches : (when c f b).digestHitches = if c then (f b).digestHitches else b.digestHitches := by cases c <;> rfl
theorem when_islands : (when c f b).islands = if c then (f b).islands else b.islands := by cases c <;> rfl
theorem when_cores : (when c f b).cores = if c then (f b).cores else b.cores := by cases c <;> rfl
theorem when_coreJobs : (when c f b).coreJobs = if c then (f b).coreJobs else b.coreJobs := by cases c <;> rfl
theorem when_unwrapJobs : (when c f b).unwrapJobs = if c then (f b).unwrapJobs else b.unwrapJobs := by cases c <;> rfl
theorem when_unwrapLeft : (when c f b).unwrapLeft = if c then (f b).unwrapLeft else b.unwrapLeft := by cases c <;> rfl
theorem when_randomJob : (when c f b).randomJob = if c then (f b).randomJob else b.randomJob := by cases c <;> rfl
theorem when_unwrapFenced : (when c f b).unwrapFenced = if c then (f b).unwrapFenced else b.unwrapFenced := by cases c <;> rfl
theorem when_entropyFenced : (when c f b).entropyFenced = if c then (f b).entropyFenced else b.entropyFenced := by cases c <;> rfl
theorem when_bridgesFenced : (when c f b).bridgesFenced = if c then (f b).bridgesFenced else b.bridgesFenced := by cases c <;> rfl
theorem when_pack : (when c f b).pack = if c then (f b).pack else b.pack := by cases c <;> rfl
theorem when_floor : (when c f b).floor = if c then (f b).floor else b.floor := by cases c <;> rfl
theorem when_curves : (when c f b).curves = if c then (f b).curves else b.curves := by cases c <;> rfl
theorem when_tack : (when c f b).tack = if c then (f b).tack else b.tack := by cases c <;> rfl
theorem when_ym : (when c f b).ym = if c then (f b).ym else b.ym := by cases c <;> rfl
theorem when_chutes : (when c f b).chutes = if c then (f b).chutes else b.chutes := by cases c <;> rfl
theorem when_movers : (when c f b).movers = if c then (f b).movers else b.movers := by cases c <;> rfl
theorem when_timers : (when c f b).timers = if c then (f b).timers else b.timers := by cases c <;> rfl
theorem when_dp0 : (when c f b).dp0 = if c then (f b).dp0 else b.dp0 := by cases c <;> rfl
theorem when_dp1 : (when c f b).dp1 = if c then (f b).dp1 else b.dp1 := by cases c <;> rfl
theorem when_rp : (when c f b).rp = if c then (f b).rp else b.rp := by cases c <;> rfl
theorem when_portDrain : (when c f b).portDrain = if c then (f b).portDrain else b.portDrain := by cases c <;> rfl
theorem when_holds : (when c f b).holds = if c then (f b).holds else b.holds := by cases c <;> rfl
theorem when_wear : (when c f b).wear = if c then (f b).wear else b.wear := by cases c <;> rfl
theorem when_rerates : (when c f b).rerates = if c then (f b).rerates else b.rerates := by cases c <;> rfl
theorem when_wearDue : (when c f b).wearDue = if c then (f b).wearDue else b.wearDue := by cases c <;> rfl
theorem when_tempDue : (when c f b).tempDue = if c then (f b).tempDue else b.tempDue := by cases c <;> rfl
theorem when_dbFifo : (when c f b).dbFifo = if c then (f b).dbFifo else b.dbFifo := by cases c <;> rfl
theorem when_rpFifo : (when c f b).rpFifo = if c then (f b).rpFifo else b.rpFifo := by cases c <;> rfl
theorem when_dbCredits : (when c f b).dbCredits = if c then (f b).dbCredits else b.dbCredits := by cases c <;> rfl
theorem when_dbRdata : (when c f b).dbRdata = if c then (f b).dbRdata else b.dbRdata := by cases c <;> rfl
theorem when_mpaCredits : (when c f b).mpaCredits = if c then (f b).mpaCredits else b.mpaCredits := by cases c <;> rfl
theorem when_mpbCredits : (when c f b).mpbCredits = if c then (f b).mpbCredits else b.mpbCredits := by cases c <;> rfl
theorem when_mpFifo : (when c f b).mpFifo = if c then (f b).mpFifo else b.mpFifo := by cases c <;> rfl
theorem when_draws : (when c f b).draws = if c then (f b).draws else b.draws := by cases c <;> rfl
theorem when_free : (when c f b).free = if c then (f b).free else b.free := by cases c <;> rfl
theorem when_now : (when c f b).now = if c then (f b).now else b.now := by cases c <;> rfl
end when_

end Sys2Proof.Machine
end

