-- ==== Sys2Proof/Laws/Tables.lean ====
section
/-!
SUPPORT. Reads of the sparse tables after writes, and that a write keeps their canonical form.
-/

namespace Sys2Proof

variable {α : Type}

theorem lookup_pair (j a : Nat) (x : α) (l : List (Nat × α)) :
    List.lookup j ((a, x) :: l) = if j = a then some x else l.lookup j := by
  by_cases h : j = a
  · subst h; simp
  · have h' : (j == a) = false := by simpa using h
    simp [List.lookup, h', h]

theorem eraseKey_pair (k a : Nat) (x : α) (l : List (Nat × α)) :
    eraseKey k ((a, x) :: l) = if a = k then eraseKey k l else (a, x) :: eraseKey k l := by
  by_cases h : a = k <;> simp [eraseKey, h]

theorem lookup_eraseKey_self (k : Nat) (l : List (Nat × α)) : (eraseKey k l).lookup k = none := by
  induction l with
  | nil => rfl
  | cons e l ih =>
    obtain ⟨a, x⟩ := e
    by_cases h : a = k
    · simpa [eraseKey_pair, h] using ih
    · simpa [eraseKey_pair, h, lookup_pair, Ne.symm h] using ih

theorem lookup_eraseKey_ne {k j : Nat} (h : j ≠ k) (l : List (Nat × α)) : (eraseKey k l).lookup j = l.lookup j := by
  induction l with
  | nil => rfl
  | cons e l ih =>
    obtain ⟨a, x⟩ := e
    by_cases h1 : a = k
    · subst h1; simpa [eraseKey_pair, lookup_pair, h] using ih
    · simp [eraseKey_pair, h1, lookup_pair, ih]

theorem lookup_insertKey_self (k : Nat) (v : α) (l : List (Nat × α)) (h : l.lookup k = none) :
    (insertKey k v l).lookup k = some v := by
  induction l with
  | nil => simp [insertKey]
  | cons e l ih =>
    obtain ⟨a, x⟩ := e
    by_cases h1 : k < a
    · simp [insertKey, h1]
    · by_cases h2 : k = a
      · simp [h2] at h
      · simp only [lookup_pair, h2, if_false] at h
        simpa [insertKey, h1, lookup_pair, h2] using ih h

theorem lookup_insertKey_ne {k j : Nat} (h : j ≠ k) (v : α) (l : List (Nat × α)) :
    (insertKey k v l).lookup j = l.lookup j := by
  induction l with
  | nil => simp [insertKey, lookup_pair, h]
  | cons e l ih =>
    obtain ⟨a, x⟩ := e
    by_cases h1 : k < a
    · simp [insertKey, h1, lookup_pair, h]
    · simp [insertKey, h1, lookup_pair, ih]

theorem eraseKey_sublist (k : Nat) (l : List (Nat × α)) : (eraseKey k l).Sublist l := List.filter_sublist

theorem mem_insertKey {k : Nat} {v : α} {l : List (Nat × α)} {e : Nat × α} (h : e ∈ insertKey k v l) : e = (k, v) ∨ e ∈ l := by
  induction l with
  | nil => simpa [insertKey] using h
  | cons x l ih =>
    by_cases h1 : k < x.1
    · simpa [insertKey, h1] using h
    · simp only [insertKey, h1, if_false, List.mem_cons] at h ⊢
      rcases h with h | h
      · exact .inr (.inl h)
      · rcases ih h with h | h
        · exact .inl h
        · exact .inr (.inr h)

theorem insertKey_sorted {k : Nat} {v : α} {l : List (Nat × α)} (hs : (l.map Prod.fst).Pairwise (· < ·))
    (hk : ∀ e ∈ l, e.1 ≠ k) : ((insertKey k v l).map Prod.fst).Pairwise (· < ·) := by
  induction l with
  | nil => simp [insertKey]
  | cons x l ih =>
    simp only [List.map_cons, List.pairwise_cons] at hs
    by_cases h1 : k < x.1
    · simp only [insertKey, h1, if_true, List.map_cons, List.pairwise_cons, List.mem_cons]
      refine ⟨?_, hs⟩
      rintro a (rfl | ha)
      · exact h1
      · exact lt_trans h1 (hs.1 a ha)
    · simp only [insertKey, h1, if_false, List.map_cons, List.pairwise_cons]
      refine ⟨?_, ih hs.2 fun e he => hk e (List.mem_cons_of_mem _ he)⟩
      intro a ha
      obtain ⟨e, he, rfl⟩ := List.mem_map.1 ha
      rcases mem_insertKey he with rfl | he
      · have := hk x List.mem_cons_self
        simp only at *; omega
      · exact hs.1 _ (List.mem_map_of_mem he)

variable [DecidableEq α]

/-- What a key reads after a write of that key or of another. -/
theorem Tab.get_set (t : Tab α) (k j : Nat) (v : α) : (t.set k v).get j = if j = k then v else t.get j := by
  unfold Tab.set Tab.get
  by_cases h : j = k
  · subst h
    by_cases hv : v = t.dflt
    · simp [hv, lookup_eraseKey_self]
    · simp [hv, lookup_insertKey_self _ _ _ (lookup_eraseKey_self _ _)]
  · by_cases hv : v = t.dflt
    · simp [hv, h, lookup_eraseKey_ne h]
    · simp [hv, h, lookup_insertKey_ne h, lookup_eraseKey_ne h]

@[simp] theorem Tab.get_set_self (t : Tab α) (k : Nat) (v : α) : (t.set k v).get k = v := by simp [Tab.get_set]

@[simp] theorem Tab.get_set_ne (t : Tab α) {k j : Nat} (v : α) (h : j ≠ k) : (t.set k v).get j = t.get j := by
  simp [Tab.get_set, h]

theorem Tab.get_mod (t : Tab α) (k j : Nat) (f : α → α) : (t.mod k f).get j = if j = k then f (t.get k) else t.get j := by
  simp [Tab.mod, Tab.get_set]

@[simp] theorem Tab.get_mod_self (t : Tab α) (k : Nat) (f : α → α) : (t.mod k f).get k = f (t.get k) := by
  simp [Tab.mod]

@[simp] theorem Tab.get_mod_ne (t : Tab α) {k j : Nat} (f : α → α) (h : j ≠ k) : (t.mod k f).get j = t.get j := by
  simp [Tab.mod, h]

/-- A write keeps the canonical form. -/
theorem Tab.set_wf {t : Tab α} (h : t.Wf) (k : Nat) (v : α) : (t.set k v).Wf := by
  have hs : ((eraseKey k t.ents).map Prod.fst).Pairwise (· < ·) := h.1.sublist ((eraseKey_sublist k t.ents).map _)
  unfold Tab.set
  by_cases hv : v = t.dflt
  · exact ⟨by simpa [hv] using hs, fun e he => h.2 e ((eraseKey_sublist k t.ents).subset (by simpa [hv] using he))⟩
  · refine ⟨by simpa [hv] using insertKey_sorted hs fun e he => by simpa [eraseKey] using (List.mem_filter.1 he).2, ?_⟩
    intro e he
    rcases mem_insertKey (by simpa [hv] using he) with rfl | he
    · exact hv
    · exact h.2 e ((eraseKey_sublist k t.ents).subset he)

theorem Tab.mod_wf {t : Tab α} (h : t.Wf) (k : Nat) (f : α → α) : (t.mod k f).Wf := Tab.set_wf h k _

omit [DecidableEq α] in
theorem eraseKey_idem (k : Nat) (l : List (Nat × α)) : eraseKey k (eraseKey k l) = eraseKey k l := by
  simp [eraseKey, List.filter_filter]

omit [DecidableEq α] in
theorem eraseKey_insertKey (k : Nat) (v : α) (l : List (Nat × α)) : eraseKey k (insertKey k v l) = eraseKey k l := by
  induction l with
  | nil => simp [insertKey, eraseKey]
  | cons e l ih =>
    simp only [insertKey]
    split
    · simp [eraseKey]
    · simp only [eraseKey, List.filter_cons] at ih ⊢; split <;> simp_all

theorem Tab.set_set (t : Tab α) (k : Nat) (v w : α) : (t.set k v).set k w = t.set k w := by
  have h : eraseKey k (t.set k v).ents = eraseKey k t.ents := by
    simp only [Tab.set]; split
    · exact eraseKey_idem k _
    · rw [eraseKey_insertKey, eraseKey_idem]
  simp only [Tab.set] at h ⊢
  rw [h]
  rfl

/-- Two changes of one entry are one change. -/
theorem Tab.mod_mod (t : Tab α) (k : Nat) (f g : α → α) : (t.mod k f).mod k g = t.mod k (fun x => g (f x)) := by
  simp only [Tab.mod, Tab.get_set_self, Tab.set_set]

/-- A change of an entry is determined by the new value. -/
theorem Tab.mod_congr {t : Tab α} {k : Nat} {f g : α → α} (h : f (t.get k) = g (t.get k)) : t.mod k f = t.mod k g := by
  simp only [Tab.mod, h]

end Sys2Proof
end

