-- ==== Sys2Proof/Laws/Ops.lean ====
section
/-!
SUPPORT. What each shared operation on the block can do, said once: accessors after updates, events, requests
offered to a port.
-/

namespace Sys2Proof.Machine

open Sys2Proof

/-! ## Accessors after updates -/

@[simp] theorem when_true (f : Block → Block) (b : Block) : when true f b = f b := rfl
@[simp] theorem when_false (f : Block → Block) (b : Block) : when false f b = b := rfl
@[simp] theorem each_nil {α : Type} (f : α → Block → Block) (b : Block) : each [] f b = b := rfl
@[simp] theorem each_cons {α : Type} (x : α) (l : List α) (f : α → Block → Block) (b : Block) :
    each (x :: l) f b = each l f (f x b) := rfl

@[simp] theorem modStall_stall_self (n : Nat) (f : Stall → Stall) (b : Block) : (modStall n f b).stall n = f (b.stall n) := by
  simp [Block.stall]
@[simp] theorem modStall_stall_ne {n m : Nat} (h : m ≠ n) (f : Stall → Stall) (b : Block) :
    (modStall n f b).stall m = b.stall m := by simp [Block.stall, h]
theorem modRing_eq (n r : Nat) (f : Ring → Ring) (b : Block) :
    modRing n r f b = modStall n (fun s => { s with rings := s.rings.mod r f }) b := rfl
@[simp] theorem modRing_ring_self (n r : Nat) (f : Ring → Ring) (b : Block) : (modRing n r f b).ring n r = f (b.ring n r) := by
  simp [Block.ring, Stall.ring, modRing_eq]
@[simp] theorem modJob_job_self (j : Nat) (f : Job → Job) (b : Block) : (modJob j f b).job j = (b.job j).map f := by
  simp [Block.job]
@[simp] theorem modJob_job_ne {i j : Nat} (h : i ≠ j) (f : Job → Job) (b : Block) : (modJob j f b).job i = b.job i := by
  simp [Block.job, h]
@[simp] theorem modLane_lane_self (l : Nat) (f : Lane → Lane) (b : Block) : (modLane l f b).lane l = f (b.lane l) := by
  simp [Block.lane]
@[simp] theorem modLane_lane_ne {l m : Nat} (h : m ≠ l) (f : Lane → Lane) (b : Block) : (modLane l f b).lane m = b.lane m := by
  simp [Block.lane, h]
@[simp] theorem modChute_chute_self (c : Nat) (f : Chute → Chute) (b : Block) : (modChute c f b).chute c = f (b.chute c) := by
  simp [Block.chute]
@[simp] theorem modMover_mover_self (m : Nat) (f : Mover → Mover) (b : Block) : (modMover m f b).mover m = f (b.mover m) := by
  simp [Block.mover]
@[simp] theorem modSlot_slot_self (i : Nat) (f : Slot → Slot) (b : Block) : (modSlot i f b).slot i = f (b.slot i) := by
  simp [Block.slot]
@[simp] theorem modSk_sk_self (n : Nat) (f : StallKey → StallKey) (b : Block) : (modSk n f b).sk n = f (b.sk n) := by
  simp [Block.sk]
@[simp] theorem modPair_pair_self (p : Nat) (f : Mbox → Mbox) (b : Block) : (modPair p f b).pair p = f (b.pair p) := by
  simp [Block.pair]

theorem lookup_map_cmd (id k : Nat) (f : Cmd → Cmd) (l : List (Nat × Cmd)) :
    (l.map fun e => if e.1 == id then (e.1, f e.2) else e).lookup k = if k = id then (l.lookup k).map f else l.lookup k := by
  induction l with
  | nil => simp
  | cons e l ih =>
    obtain ⟨a, x⟩ := e
    by_cases ha : a = id
    · subst ha
      by_cases hk : k = a
      · simp [hk]
      · simp [lookup_pair, hk] at ih ⊢; exact ih
    · by_cases hk : k = a
      · subst hk; simp [ha]
      · simp [lookup_pair, ha, hk] at ih ⊢; exact ih

@[simp] theorem modCmd_cmd_self (id : Nat) (f : Cmd → Cmd) (b : Block) : (modCmd id f b).cmd id = (b.cmd id).map f := by
  simp only [Block.cmd, modCmd_ym]; rw [lookup_map_cmd]; simp
theorem modCmd_cmd_ne {id k : Nat} (h : k ≠ id) (f : Cmd → Cmd) (b : Block) : (modCmd id f b).cmd k = b.cmd k := by
  simp only [Block.cmd, modCmd_ym]; rw [lookup_map_cmd]; simp [h]

/-! ## Two changes of one entry -/

theorem modStall_modStall (n : Nat) (f g : Stall → Stall) (b : Block) :
    modStall n g (modStall n f b) = modStall n (fun x => g (f x)) b := by simp [modStall, Tab.mod_mod]
theorem modStall_congr {n : Nat} {f g : Stall → Stall} {b : Block} (h : f (b.stall n) = g (b.stall n)) :
    modStall n f b = modStall n g b := by simp only [modStall, Tab.mod_congr (show f (b.stalls.get n) = g (b.stalls.get n) from h)]
theorem modJob_modJob (i : Nat) (f g : Job → Job) (b : Block) :
    modJob i g (modJob i f b) = modJob i (fun x => g (f x)) b := by
  simp only [modJob, Tab.mod_mod]; congr 2; funext o; cases o <;> rfl
theorem modJob_congr {i : Nat} {j : Job} {f g : Job → Job} {b : Block} (hj : b.job i = some j) (h : f j = g j) :
    modJob i f b = modJob i g b := by
  simp only [modJob]; rw [Tab.mod_congr (g := Option.map g)]; rw [show b.jobs.get i = some j from hj]; simp [h]
theorem modJob_job {b : Block} {i : Nat} {j : Job} (h : b.job i = some j) (f : Job → Job) : (modJob i f b).job i = some (f j) := by
  rw [modJob_job_self, h]; rfl
theorem modLane_modLane (l : Nat) (f g : Lane → Lane) (b : Block) :
    modLane l g (modLane l f b) = modLane l (fun x => g (f x)) b := by simp [modLane, Tab.mod_mod]
theorem modLane_congr {l : Nat} {f g : Lane → Lane} {b : Block} (h : f (b.lane l) = g (b.lane l)) :
    modLane l f b = modLane l g b := by simp only [modLane, Tab.mod_congr (show f (b.lanes.get l) = g (b.lanes.get l) from h)]
theorem modChute_modChute (c : Nat) (f g : Chute → Chute) (b : Block) :
    modChute c g (modChute c f b) = modChute c (fun x => g (f x)) b := by simp [modChute, Tab.mod_mod]
theorem modMover_modMover (m : Nat) (f g : Mover → Mover) (b : Block) :
    modMover m g (modMover m f b) = modMover m (fun x => g (f x)) b := by simp [modMover, Tab.mod_mod]

/-! ## Ports -/

@[simp] theorem setPort_port_self (p : Port) (st : PortSt) (b : Block) : (setPort p st b).port p = st := by cases p <;> rfl
theorem setPort_port_ne {p q : Port} (h : q ≠ p) (st : PortSt) (b : Block) : (setPort p st b).port q = b.port q := by
  cases p <;> cases q <;> first | rfl | exact absurd rfl h
theorem setPort_self (p : Port) (b : Block) : setPort p (b.port p) b = b := by cases p <;> rfl

/-- The requests that wait at a port or are outstanding there. -/
def PortSt.reqs (st : PortSt) : List Req := st.waiting ++ st.out.map Flight.req

theorem bestReq_mem {last : Tab Nat} {l : List Req} {r : Req} (h : bestReq last l = some r) : r ∈ l := by
  induction l generalizing r with
  | nil => simp [bestReq] at h
  | cons x l ih =>
    simp only [bestReq] at h
    split at h
    · simp_all
    · rename_i q hq
      simp only [Option.some.injEq] at h
      split at h
      · simp [← h]
      · exact List.mem_cons_of_mem _ (ih (h ▸ hq))

/-- Issuing loses no request and makes none. -/
theorem pumpGo_reqs (p : Port) (held : Owner → Bool) (n : Nat) (st : PortSt) : (pumpGo p held n st).reqs.Perm st.reqs := by
  induction n generalizing st with
  | zero => exact List.Perm.refl _
  | succ n ih =>
    simp only [pumpGo]
    split
    · exact List.Perm.refl _
    · rename_i r hr
      refine (ih _).trans ?_
      have hm : r ∈ st.waiting := (List.mem_filter.1 (bestReq_mem hr)).1
      simp only [PortSt.reqs, List.map_append, List.map_cons, List.map_nil]
      refine List.Perm.trans ?_ ((List.perm_cons_erase hm).symm.append_right _)
      rw [← List.append_assoc, List.cons_append]
      exact List.perm_append_singleton _ _

theorem pump_port_ne {p q : Port} (h : q ≠ p) (b : Block) : (pump p b).port q = b.port q := by
  unfold pump; split
  · rfl
  · exact setPort_port_ne h _ _

theorem pump_reqs (p : Port) (b : Block) : ((pump p b).port p).reqs.Perm (b.port p).reqs := by
  unfold pump; split
  · exact List.Perm.refl _
  · simpa using pumpGo_reqs p _ _ _

/-- Offering adds exactly the offered requests to what waits or is outstanding on its port. -/
theorem offer_reqs (p : Port) (rs : List Req) (b : Block) : ((offer p rs b).port p).reqs.Perm (rs ++ (b.port p).reqs) := by
  refine (pump_reqs p _).trans ?_
  simp only [setPort_port_self, PortSt.reqs]
  rw [← List.append_assoc]
  exact List.perm_append_comm.append_right _

theorem offer_port_ne {p q : Port} (h : q ≠ p) (rs : List Req) (b : Block) : (offer p rs b).port q = b.port q := by
  rw [offer, pump_port_ne h, setPort_port_ne h]

end Sys2Proof.Machine
end

