-- ==== Sys2Proof/Laws/Frames.lean ====
section
/-!
SUPPORT. Fields the port operations and the event operations leave as they are, and `Block.still` after an update.
-/

namespace Sys2Proof.Machine

variable (b : Block)

theorem pump_still (p : Port) : (pump p b).still = b.still := by
  unfold pump; split
  · rfl
  · cases p <;> rfl
@[simp] theorem setPort_still (p : Port) (st : PortSt) : (setPort p st b).still = b.still := by cases p <;> rfl
@[simp] theorem offer_still (p : Port) (rs : List Req) : (offer p rs b).still = b.still := by
  rw [offer, pump_still, setPort_still]

theorem still_boot : b.still.boot = b.boot := rfl
theorem still_sensed : b.still.sensed = b.sensed := rfl
theorem still_lt : b.still.lt = b.lt := rfl
theorem still_sb : b.still.sb = b.sb := rfl
theorem still_sbQueue : b.still.sbQueue = b.sbQueue := rfl
theorem still_sbDrop : b.still.sbDrop = b.sbDrop := rfl
theorem still_stalls : b.still.stalls = b.stalls := rfl
theorem still_jobs : b.still.jobs = b.jobs := rfl
theorem still_serial : b.still.serial = b.serial := rfl
theorem still_hitchSerial : b.still.hitchSerial = b.hitchSerial := rfl
theorem still_rrDispatch : b.still.rrDispatch = b.rrDispatch := rfl
theorem still_deficit : b.still.deficit = b.deficit := rfl
theorem still_rrEngine : b.still.rrEngine = b.rrEngine := rfl
theorem still_lanes : b.still.lanes = b.lanes := rfl
theorem still_digestJobs : b.still.digestJobs = b.digestJobs := rfl
theorem still_digestHitches : b.still.digestHitches = b.digestHitches := rfl
theorem still_islands : b.still.islands = b.islands := rfl
theorem still_cores : b.still.cores = b.cores := rfl
theorem still_coreJobs : b.still.coreJobs = b.coreJobs := rfl
theorem still_unwrapJobs : b.still.unwrapJobs = b.unwrapJobs := rfl
theorem still_unwrapLeft : b.still.unwrapLeft = b.unwrapLeft := rfl
theorem still_randomJob : b.still.randomJob = b.randomJob := rfl
theorem still_unwrapFenced : b.still.unwrapFenced = b.unwrapFenced := rfl
theorem still_entropyFenced : b.still.entropyFenced = b.entropyFenced := rfl
theorem still_bridgesFenced : b.still.bridgesFenced = b.bridgesFenced := rfl
theorem still_pack : b.still.pack = b.pack := rfl
theorem still_floor : b.still.floor = b.floor := rfl
theorem still_curves : b.still.curves = b.curves := rfl
theorem still_tack : b.still.tack = b.tack := rfl
theorem still_ym : b.still.ym = b.ym := rfl
theorem still_chutes : b.still.chutes = b.chutes := rfl
theorem still_movers : b.still.movers = b.movers := rfl
theorem still_timers : b.still.timers = b.timers := rfl
theorem still_portDrain : b.still.portDrain = b.portDrain := rfl
theorem still_holds : b.still.holds = b.holds := rfl
theorem still_wear : b.still.wear = b.wear := rfl
theorem still_rerates : b.still.rerates = b.rerates := rfl
theorem still_wearDue : b.still.wearDue = b.wearDue := rfl
theorem still_tempDue : b.still.tempDue = b.tempDue := rfl
theorem still_dbFifo : b.still.dbFifo = b.dbFifo := rfl
theorem still_rpFifo : b.still.rpFifo = b.rpFifo := rfl
theorem still_dbCredits : b.still.dbCredits = b.dbCredits := rfl
theorem still_dbRdata : b.still.dbRdata = b.dbRdata := rfl
theorem still_mpaCredits : b.still.mpaCredits = b.mpaCredits := rfl
theorem still_mpbCredits : b.still.mpbCredits = b.mpbCredits := rfl
theorem still_mpFifo : b.still.mpFifo = b.mpFifo := rfl
theorem still_draws : b.still.draws = b.draws := rfl
theorem still_free : b.still.free = b.free := rfl
theorem still_now : b.still.now = b.now := rfl

@[simp] theorem offer_boot (p : Port) (rs : List Req) : (offer p rs b).boot = b.boot := by
  rw [← still_boot, offer_still, still_boot]
@[simp] theorem pump_boot (p : Port) : (pump p b).boot = b.boot := by rw [← still_boot, pump_still, still_boot]
@[simp] theorem offer_sensed (p : Port) (rs : List Req) : (offer p rs b).sensed = b.sensed := by
  rw [← still_sensed, offer_still, still_sensed]
@[simp] theorem pump_sensed (p : Port) : (pump p b).sensed = b.sensed := by rw [← still_sensed, pump_still, still_sensed]
@[simp] theorem offer_lt (p : Port) (rs : List Req) : (offer p rs b).lt = b.lt := by
  rw [← still_lt, offer_still, still_lt]
@[simp] theorem pump_lt (p : Port) : (pump p b).lt = b.lt := by rw [← still_lt, pump_still, still_lt]
@[simp] theorem offer_sb (p : Port) (rs : List Req) : (offer p rs b).sb = b.sb := by
  rw [← still_sb, offer_still, still_sb]
@[simp] theorem pump_sb (p : Port) : (pump p b).sb = b.sb := by rw [← still_sb, pump_still, still_sb]
@[simp] theorem offer_sbQueue (p : Port) (rs : List Req) : (offer p rs b).sbQueue = b.sbQueue := by
  rw [← still_sbQueue, offer_still, still_sbQueue]
@[simp] theorem pump_sbQueue (p : Port) : (pump p b).sbQueue = b.sbQueue := by rw [← still_sbQueue, pump_still, still_sbQueue]
@[simp] theorem offer_sbDrop (p : Port) (rs : List Req) : (offer p rs b).sbDrop = b.sbDrop := by
  rw [← still_sbDrop, offer_still, still_sbDrop]
@[simp] theorem pump_sbDrop (p : Port) : (pump p b).sbDrop = b.sbDrop := by rw [← still_sbDrop, pump_still, still_sbDrop]
@[simp] theorem offer_stalls (p : Port) (rs : List Req) : (offer p rs b).stalls = b.stalls := by
  rw [← still_stalls, offer_still, still_stalls]
@[simp] theorem pump_stalls (p : Port) : (pump p b).stalls = b.stalls := by rw [← still_stalls, pump_still, still_stalls]
@[simp] theorem offer_jobs (p : Port) (rs : List Req) : (offer p rs b).jobs = b.jobs := by
  rw [← still_jobs, offer_still, still_jobs]
@[simp] theorem pump_jobs (p : Port) : (pump p b).jobs = b.jobs := by rw [← still_jobs, pump_still, still_jobs]
@[simp] theorem offer_serial (p : Port) (rs : List Req) : (offer p rs b).serial = b.serial := by
  rw [← still_serial, offer_still, still_serial]
@[simp] theorem pump_serial (p : Port) : (pump p b).serial = b.serial := by rw [← still_serial, pump_still, still_serial]
@[simp] theorem offer_hitchSerial (p : Port) (rs : List Req) : (offer p rs b).hitchSerial = b.hitchSerial := by
  rw [← still_hitchSerial, offer_still, still_hitchSerial]
@[simp] theorem pump_hitchSerial (p : Port) : (pump p b).hitchSerial = b.hitchSerial := by rw [← still_hitchSerial, pump_still, still_hitchSerial]
@[simp] theorem offer_rrDispatch (p : Port) (rs : List Req) : (offer p rs b).rrDispatch = b.rrDispatch := by
  rw [← still_rrDispatch, offer_still, still_rrDispatch]
@[simp] theorem pump_rrDispatch (p : Port) : (pump p b).rrDispatch = b.rrDispatch := by rw [← still_rrDispatch, pump_still, still_rrDispatch]
@[simp] theorem offer_deficit (p : Port) (rs : List Req) : (offer p rs b).deficit = b.deficit := by
  rw [← still_deficit, offer_still, still_deficit]
@[simp] theorem pump_deficit (p : Port) : (pump p b).deficit = b.deficit := by rw [← still_deficit, pump_still, still_deficit]
@[simp] theorem offer_rrEngine (p : Port) (rs : List Req) : (offer p rs b).rrEngine = b.rrEngine := by
  rw [← still_rrEngine, offer_still, still_rrEngine]
@[simp] theorem pump_rrEngine (p : Port) : (pump p b).rrEngine = b.rrEngine := by rw [← still_rrEngine, pump_still, still_rrEngine]
@[simp] theorem offer_lanes (p : Port) (rs : List Req) : (offer p rs b).lanes = b.lanes := by
  rw [← still_lanes, offer_still, still_lanes]
@[simp] theorem pump_lanes (p : Port) : (pump p b).lanes = b.lanes := by rw [← still_lanes, pump_still, still_lanes]
@[simp] theorem offer_digestJobs (p : Port) (rs : List Req) : (offer p rs b).digestJobs = b.digestJobs := by
  rw [← still_digestJobs, offer_still, still_digestJobs]
@[simp] theorem pump_digestJobs (p : Port) : (pump p b).digestJobs = b.digestJobs := by rw [← still_digestJobs, pump_still, still_digestJobs]
@[simp] theorem offer_digestHitches (p : Port) (rs : List Req) : (offer p rs b).digestHitches = b.digestHitches := by
  rw [← still_digestHitches, offer_still, still_digestHitches]
@[simp] theorem pump_digestHitches (p : Port) : (pump p b).digestHitches = b.digestHitches := by rw [← still_digestHitches, pump_still, still_digestHitches]
@[simp] theorem offer_islands (p : Port) (rs : List Req) : (offer p rs b).islands = b.islands := by
  rw [← still_islands, offer_still, still_islands]
@[simp] theorem pump_islands (p : Port) : (pump p b).islands = b.islands := by rw [← still_islands, pump_still, still_islands]
@[simp] theorem offer_cores (p : Port) (rs : List Req) : (offer p rs b).cores = b.cores := by
  rw [← still_cores, offer_still, still_cores]
@[simp] theorem pump_cores (p : Port) : (pump p b).cores = b.cores := by rw [← still_cores, pump_still, still_cores]
@[simp] theorem offer_coreJobs (p : Port) (rs : List Req) : (offer p rs b).coreJobs = b.coreJobs := by
  rw [← still_coreJobs, offer_still, still_coreJobs]
@[simp] theorem pump_coreJobs (p : Port) : (pump p b).coreJobs = b.coreJobs := by rw [← still_coreJobs, pump_still, still_coreJobs]
@[simp] theorem offer_unwrapJobs (p : Port) (rs : List Req) : (offer p rs b).unwrapJobs = b.unwrapJobs := by
  rw [← still_unwrapJobs, offer_still, still_unwrapJobs]
@[simp] theorem pump_unwrapJobs (p : Port) : (pump p b).unwrapJobs = b.unwrapJobs := by rw [← still_unwrapJobs, pump_still, still_unwrapJobs]
@[simp] theorem offer_unwrapLeft (p : Port) (rs : List Req) : (offer p rs b).unwrapLeft = b.unwrapLeft := by
  rw [← still_unwrapLeft, offer_still, still_unwrapLeft]
@[simp] theorem pump_unwrapLeft (p : Port) : (pump p b).unwrapLeft = b.unwrapLeft := by rw [← still_unwrapLeft, pump_still, still_unwrapLeft]
@[simp] theorem offer_randomJob (p : Port) (rs : List Req) : (offer p rs b).randomJob = b.randomJob := by
  rw [← still_randomJob, offer_still, still_randomJob]
@[simp] theorem pump_randomJob (p : Port) : (pump p b).randomJob = b.randomJob := by rw [← still_randomJob, pump_still, still_randomJob]
@[simp] theorem offer_unwrapFenced (p : Port) (rs : List Req) : (offer p rs b).unwrapFenced = b.unwrapFenced := by
  rw [← still_unwrapFenced, offer_still, still_unwrapFenced]
@[simp] theorem pump_unwrapFenced (p : Port) : (pump p b).unwrapFenced = b.unwrapFenced := by rw [← still_unwrapFenced, pump_still, still_unwrapFenced]
@[simp] theorem offer_entropyFenced (p : Port) (rs : List Req) : (offer p rs b).entropyFenced = b.entropyFenced := by
  rw [← still_entropyFenced, offer_still, still_entropyFenced]
@[simp] theorem pump_entropyFenced (p : Port) : (pump p b).entropyFenced = b.entropyFenced := by rw [← still_entropyFenced, pump_still, still_entropyFenced]
@[simp] theorem offer_bridgesFenced (p : Port) (rs : List Req) : (offer p rs b).bridgesFenced = b.bridgesFenced := by
  rw [← still_bridgesFenced, offer_still, still_bridgesFenced]
@[simp] theorem pump_bridgesFenced (p : Port) : (pump p b).bridgesFenced = b.bridgesFenced := by rw [← still_bridgesFenced, pump_still, still_bridgesFenced]
@[simp] theorem offer_pack (p : Port) (rs : List Req) : (offer p rs b).pack = b.pack := by
  rw [← still_pack, offer_still, still_pack]
@[simp] theorem pump_pack (p : Port) : (pump p b).pack = b.pack := by rw [← still_pack, pump_still, still_pack]
@[simp] theorem offer_floor (p : Port) (rs : List Req) : (offer p rs b).floor = b.floor := by
  rw [← still_floor, offer_still, still_floor]
@[simp] theorem pump_floor (p : Port) : (pump p b).floor = b.floor := by rw [← still_floor, pump_still, still_floor]
@[simp] theorem offer_curves (p : Port) (rs : List Req) : (offer p rs b).curves = b.curves := by
  rw [← still_curves, offer_still, still_curves]
@[simp] theorem pump_curves (p : Port) : (pump p b).curves = b.curves := by rw [← still_curves, pump_still, still_curves]
@[simp] theorem offer_tack (p : Port) (rs : List Req) : (offer p rs b).tack = b.tack := by
  rw [← still_tack, offer_still, still_tack]
@[simp] theorem pump_tack (p : Port) : (pump p b).tack = b.tack := by rw [← still_tack, pump_still, still_tack]
@[simp] theorem offer_ym (p : Port) (rs : List Req) : (offer p rs b).ym = b.ym := by
  rw [← still_ym, offer_still, still_ym]
@[simp] theorem pump_ym (p : Port) : (pump p b).ym = b.ym := by rw [← still_ym, pump_still, still_ym]
@[simp] theorem offer_chutes (p : Port) (rs : List Req) : (offer p rs b).chutes = b.chutes := by
  rw [← still_chutes, offer_still, still_chutes]
@[simp] theorem pump_chutes (p : Port) : (pump p b).chutes = b.chutes := by rw [← still_chutes, pump_still, still_chutes]
@[simp] theorem offer_movers (p : Port) (rs : List Req) : (offer p rs b).movers = b.movers := by
  rw [← still_movers, offer_still, still_movers]
@[simp] theorem pump_movers (p : Port) : (pump p b).movers = b.movers := by rw [← still_movers, pump_still, still_movers]
@[simp] theorem offer_timers (p : Port) (rs : List Req) : (offer p rs b).timers = b.timers := by
  rw [← still_timers, offer_still, still_timers]
@[simp] theorem pump_timers (p : Port) : (pump p b).timers = b.timers := by rw [← still_timers, pump_still, still_timers]
@[simp] theorem offer_portDrain (p : Port) (rs : List Req) : (offer p rs b).portDrain = b.portDrain := by
  rw [← still_portDrain, offer_still, still_portDrain]
@[simp] theorem pump_portDrain (p : Port) : (pump p b).portDrain = b.portDrain := by rw [← still_portDrain, pump_still, still_portDrain]
@[simp] theorem offer_holds (p : Port) (rs : List Req) : (offer p rs b).holds = b.holds := by
  rw [← still_holds, offer_still, still_holds]
@[simp] theorem pump_holds (p : Port) : (pump p b).holds = b.holds := by rw [← still_holds, pump_still, still_holds]
@[simp] theorem offer_wear (p : Port) (rs : List Req) : (offer p rs b).wear = b.wear := by
  rw [← still_wear, offer_still, still_wear]
@[simp] theorem pump_wear (p : Port) : (pump p b).wear = b.wear := by rw [← still_wear, pump_still, still_wear]
@[simp] theorem offer_rerates (p : Port) (rs : List Req) : (offer p rs b).rerates = b.rerates := by
  rw [← still_rerates, offer_still, still_rerates]
@[simp] theorem pump_rerates (p : Port) : (pump p b).rerates = b.rerates := by rw [← still_rerates, pump_still, still_rerates]
@[simp] theorem offer_wearDue (p : Port) (rs : List Req) : (offer p rs b).wearDue = b.wearDue := by
  rw [← still_wearDue, offer_still, still_wearDue]
@[simp] theorem pump_wearDue (p : Port) : (pump p b).wearDue = b.wearDue := by rw [← still_wearDue, pump_still, still_wearDue]
@[simp] theorem offer_tempDue (p : Port) (rs : List Req) : (offer p rs b).tempDue = b.tempDue := by
  rw [← still_tempDue, offer_still, still_tempDue]
@[simp] theorem pump_tempDue (p : Port) : (pump p b).tempDue = b.tempDue := by rw [← still_tempDue, pump_still, still_tempDue]
@[simp] theorem offer_dbFifo (p : Port) (rs : List Req) : (offer p rs b).dbFifo = b.dbFifo := by
  rw [← still_dbFifo, offer_still, still_dbFifo]
@[simp] theorem pump_dbFifo (p : Port) : (pump p b).dbFifo = b.dbFifo := by rw [← still_dbFifo, pump_still, still_dbFifo]
@[simp] theorem offer_rpFifo (p : Port) (rs : List Req) : (offer p rs b).rpFifo = b.rpFifo := by
  rw [← still_rpFifo, offer_still, still_rpFifo]
@[simp] theorem pump_rpFifo (p : Port) : (pump p b).rpFifo = b.rpFifo := by rw [← still_rpFifo, pump_still, still_rpFifo]
@[simp] theorem offer_dbCredits (p : Port) (rs : List Req) : (offer p rs b).dbCredits = b.dbCredits := by
  rw [← still_dbCredits, offer_still, still_dbCredits]
@[simp] theorem pump_dbCredits (p : Port) : (pump p b).dbCredits = b.dbCredits := by rw [← still_dbCredits, pump_still, still_dbCredits]
@[simp] theorem offer_dbRdata (p : Port) (rs : List Req) : (offer p rs b).dbRdata = b.dbRdata := by
  rw [← still_dbRdata, offer_still, still_dbRdata]
@[simp] theorem pump_dbRdata (p : Port) : (pump p b).dbRdata = b.dbRdata := by rw [← still_dbRdata, pump_still, still_dbRdata]
@[simp] theorem offer_mpaCredits (p : Port) (rs : List Req) : (offer p rs b).mpaCredits = b.mpaCredits := by
  rw [← still_mpaCredits, offer_still, still_mpaCredits]
@[simp] theorem pump_mpaCredits (p : Port) : (pump p b).mpaCredits = b.mpaCredits := by rw [← still_mpaCredits, pump_still, still_mpaCredits]
@[simp] theorem offer_mpbCredits (p : Port) (rs : List Req) : (offer p rs b).mpbCredits = b.mpbCredits := by
  rw [← still_mpbCredits, offer_still, still_mpbCredits]
@[simp] theorem pump_mpbCredits (p : Port) : (pump p b).mpbCredits = b.mpbCredits := by rw [← still_mpbCredits, pump_still, still_mpbCredits]
@[simp] theorem offer_mpFifo (p : Port) (rs : List Req) : (offer p rs b).mpFifo = b.mpFifo := by
  rw [← still_mpFifo, offer_still, still_mpFifo]
@[simp] theorem pump_mpFifo (p : Port) : (pump p b).mpFifo = b.mpFifo := by rw [← still_mpFifo, pump_still, still_mpFifo]
@[simp] theorem offer_draws (p : Port) (rs : List Req) : (offer p rs b).draws = b.draws := by
  rw [← still_draws, offer_still, still_draws]
@[simp] theorem pump_draws (p : Port) : (pump p b).draws = b.draws := by rw [← still_draws, pump_still, still_draws]
@[simp] theorem offer_free (p : Port) (rs : List Req) : (offer p rs b).free = b.free := by
  rw [← still_free, offer_still, still_free]
@[simp] theorem pump_free (p : Port) : (pump p b).free = b.free := by rw [← still_free, pump_still, still_free]
@[simp] theorem offer_now (p : Port) (rs : List Req) : (offer p rs b).now = b.now := by
  rw [← still_now, offer_still, still_now]
@[simp] theorem pump_now (p : Port) : (pump p b).now = b.now := by rw [← still_now, pump_still, still_now]

section events
variable (c src : Nat) (d : Bytes)
@[simp] theorem raise_boot : (raise c d b).boot = b.boot := rfl
@[simp] theorem raiseWith_boot (r : Nat) : (raiseWith r c d src b).boot = b.boot := rfl
@[simp] theorem raiseSource_boot : (raiseSource c src d b).boot = b.boot := by unfold raiseSource; split <;> rfl
@[simp] theorem raise_sensed : (raise c d b).sensed = b.sensed := rfl
@[simp] theorem raiseWith_sensed (r : Nat) : (raiseWith r c d src b).sensed = b.sensed := rfl
@[simp] theorem raiseSource_sensed : (raiseSource c src d b).sensed = b.sensed := by unfold raiseSource; split <;> rfl
@[simp] theorem raise_sb : (raise c d b).sb = b.sb := rfl
@[simp] theorem raiseWith_sb (r : Nat) : (raiseWith r c d src b).sb = b.sb := rfl
@[simp] theorem raiseSource_sb : (raiseSource c src d b).sb = b.sb := by unfold raiseSource; split <;> rfl
@[simp] theorem raise_sbQueue : (raise c d b).sbQueue = b.sbQueue := rfl
@[simp] theorem raiseWith_sbQueue (r : Nat) : (raiseWith r c d src b).sbQueue = b.sbQueue := rfl
@[simp] theorem raiseSource_sbQueue : (raiseSource c src d b).sbQueue = b.sbQueue := by unfold raiseSource; split <;> rfl
@[simp] theorem raise_sbDrop : (raise c d b).sbDrop = b.sbDrop := rfl
@[simp] theorem raiseWith_sbDrop (r : Nat) : (raiseWith r c d src b).sbDrop = b.sbDrop := rfl
@[simp] theorem raiseSource_sbDrop : (raiseSource c src d b).sbDrop = b.sbDrop := by unfold raiseSource; split <;> rfl
@[simp] theorem raise_stalls : (raise c d b).stalls = b.stalls := rfl
@[simp] theorem raiseWith_stalls (r : Nat) : (raiseWith r c d src b).stalls = b.stalls := rfl
@[simp] theorem raiseSource_stalls : (raiseSource c src d b).stalls = b.stalls := by unfold raiseSource; split <;> rfl
@[simp] theorem raise_jobs : (raise c d b).jobs = b.jobs := rfl
@[simp] theorem raiseWith_jobs (r : Nat) : (raiseWith r c d src b).jobs = b.jobs := rfl
@[simp] theorem raiseSource_jobs : (raiseSource c src d b).jobs = b.jobs := by unfold raiseSource; split <;> rfl
@[simp] theorem raise_serial : (raise c d b).serial = b.serial := rfl
@[simp] theorem raiseWith_serial (r : Nat) : (raiseWith r c d src b).serial = b.serial := rfl
@[simp] theorem raiseSource_serial : (raiseSource c src d b).serial = b.serial := by unfold raiseSource; split <;> rfl
@[simp] theorem raise_hitchSerial : (raise c d b).hitchSerial = b.hitchSerial := rfl
@[simp] theorem raiseWith_hitchSerial (r : Nat) : (raiseWith r c d src b).hitchSerial = b.hitchSerial := rfl
@[simp] theorem raiseSource_hitchSerial : (raiseSource c src d b).hitchSerial = b.hitchSerial := by unfold raiseSource; split <;> rfl
@[simp] theorem raise_rrDispatch : (raise c d b).rrDispatch = b.rrDispatch := rfl
@[simp] theorem raiseWith_rrDispatch (r : Nat) : (raiseWith r c d src b).rrDispatch = b.rrDispatch := rfl
@[simp] theorem raiseSource_rrDispatch : (raiseSource c src d b).rrDispatch = b.rrDispatch := by unfold raiseSource; split <;> rfl
@[simp] theorem raise_deficit : (raise c d b).deficit = b.deficit := rfl
@[simp] theorem raiseWith_deficit (r : Nat) : (raiseWith r c d src b).deficit = b.deficit := rfl
@[simp] theorem raiseSource_deficit : (raiseSource c src d b).deficit = b.deficit := by unfold raiseSource; split <;> rfl
@[simp] theorem raise_rrEngine : (raise c d b).rrEngine = b.rrEngine := rfl
@[simp] theorem raiseWith_rrEngine (r : Nat) : (raiseWith r c d src b).rrEngine = b.rrEngine := rfl
@[simp] theorem raiseSource_rrEngine : (raiseSource c src d b).rrEngine = b.rrEngine := by unfold raiseSource; split <;> rfl
@[simp] theorem raise_lanes : (raise c d b).lanes = b.lanes := rfl
@[simp] theorem raiseWith_lanes (r : Nat) : (raiseWith r c d src b).lanes = b.lanes := rfl
@[simp] theorem raiseSource_lanes : (raiseSource c src d b).lanes = b.lanes := by unfold raiseSource; split <;> rfl
@[simp] theorem raise_digestJobs : (raise c d b).digestJobs = b.digestJobs := rfl
@[simp] theorem raiseWith_digestJobs (r : Nat) : (raiseWith r c d src b).digestJobs = b.digestJobs := rfl
@[simp] theorem raiseSource_digestJobs : (raiseSource c src d b).digestJobs = b.digestJobs := by unfold raiseSource; split <;> rfl
@[simp] theorem raise_digestHitches : (raise c d b).digestHitches = b.digestHitches := rfl
@[simp] theorem raiseWith_digestHitches (r : Nat) : (raiseWith r c d src b).digestHitches = b.digestHitches := rfl
@[simp] theorem raiseSource_digestHitches : (raiseSource c src d b).digestHitches = b.digestHitches := by unfold raiseSource; split <;> rfl
@[simp] theorem raise_islands : (raise c d b).islands = b.islands := rfl
@[simp] theorem raiseWith_islands (r : Nat) : (raiseWith r c d src b).islands = b.islands := rfl
@[simp] theorem raiseSource_islands : (raiseSource c src d b).islands = b.islands := by unfold raiseSource; split <;> rfl
@[simp] theorem raise_cores : (raise c d b).cores = b.cores := rfl
@[simp] theorem raiseWith_cores (r : Nat) : (raiseWith r c d src b).cores = b.cores := rfl
@[simp] theorem raiseSource_cores : (raiseSource c src d b).cores = b.cores := by unfold raiseSource; split <;> rfl
@[simp] theorem raise_coreJobs : (raise c d b).coreJobs = b.coreJobs := rfl
@[simp] theorem raiseWith_coreJobs (r : Nat) : (raiseWith r c d src b).coreJobs = b.coreJobs := rfl
@[simp] theorem raiseSource_coreJobs : (raiseSource c src d b).coreJobs = b.coreJobs := by unfold raiseSource; split <;> rfl
@[simp] theorem raise_unwrapJobs : (raise c d b).unwrapJobs = b.unwrapJobs := rfl
@[simp] theorem raiseWith_unwrapJobs (r : Nat) : (raiseWith r c d src b).unwrapJobs = b.unwrapJobs := rfl
@[simp] theorem raiseSource_unwrapJobs : (raiseSource c src d b).unwrapJobs = b.unwrapJobs := by unfold raiseSource; split <;> rfl
@[simp] theorem raise_unwrapLeft : (raise c d b).unwrapLeft = b.unwrapLeft := rfl
@[simp] theorem raiseWith_unwrapLeft (r : Nat) : (raiseWith r c d src b).unwrapLeft = b.unwrapLeft := rfl
@[simp] theorem raiseSource_unwrapLeft : (raiseSource c src d b).unwrapLeft = b.unwrapLeft := by unfold raiseSource; split <;> rfl
@[simp] theorem raise_randomJob : (raise c d b).randomJob = b.randomJob := rfl
@[simp] theorem raiseWith_randomJob (r : Nat) : (raiseWith r c d src b).randomJob = b.randomJob := rfl
@[simp] theorem raiseSource_randomJob : (raiseSource c src d b).randomJob = b.randomJob := by unfold raiseSource; split <;> rfl
@[simp] theorem raise_unwrapFenced : (raise c d b).unwrapFenced = b.unwrapFenced := rfl
@[simp] theorem raiseWith_unwrapFenced (r : Nat) : (raiseWith r c d src b).unwrapFenced = b.unwrapFenced := rfl
@[simp] theorem raiseSource_unwrapFenced : (raiseSource c src d b).unwrapFenced = b.unwrapFenced := by unfold raiseSource; split <;> rfl
@[simp] theorem raise_entropyFenced : (raise c d b).entropyFenced = b.entropyFenced := rfl
@[simp] theorem raiseWith_entropyFenced (r : Nat) : (raiseWith r c d src b).entropyFenced = b.entropyFenced := rfl
@[simp] theorem raiseSource_entropyFenced : (raiseSource c src d b).entropyFenced = b.entropyFenced := by unfold raiseSource; split <;> rfl
@[simp] theorem raise_bridgesFenced : (raise c d b).bridgesFenced = b.bridgesFenced := rfl
@[simp] theorem raiseWith_bridgesFenced (r : Nat) : (raiseWith r c d src b).bridgesFenced = b.bridgesFenced := rfl
@[simp] theorem raiseSource_bridgesFenced : (raiseSource c src d b).bridgesFenced = b.bridgesFenced := by unfold raiseSource; split <;> rfl
@[simp] theorem raise_pack : (raise c d b).pack = b.pack := rfl
@[simp] theorem raiseWith_pack (r : Nat) : (raiseWith r c d src b).pack = b.pack := rfl
@[simp] theorem raiseSource_pack : (raiseSource c src d b).pack = b.pack := by unfold raiseSource; split <;> rfl
@[simp] theorem raise_floor : (raise c d b).floor = b.floor := rfl
@[simp] theorem raiseWith_floor (r : Nat) : (raiseWith r c d src b).floor = b.floor := rfl
@[simp] theorem raiseSource_floor : (raiseSource c src d b).floor = b.floor := by unfold raiseSource; split <;> rfl
@[simp] theorem raise_curves : (raise c d b).curves = b.curves := rfl
@[simp] theorem raiseWith_curves (r : Nat) : (raiseWith r c d src b).curves = b.curves := rfl
@[simp] theorem raiseSource_curves : (raiseSource c src d b).curves = b.curves := by unfold raiseSource; split <;> rfl
@[simp] theorem raise_tack : (raise c d b).tack = b.tack := rfl
@[simp] theorem raiseWith_tack (r : Nat) : (raiseWith r c d src b).tack = b.tack := rfl
@[simp] theorem raiseSource_tack : (raiseSource c src d b).tack = b.tack := by unfold raiseSource; split <;> rfl
@[simp] theorem raise_ym : (raise c d b).ym = b.ym := rfl
@[simp] theorem raiseWith_ym (r : Nat) : (raiseWith r c d src b).ym = b.ym := rfl
@[simp] theorem raiseSource_ym : (raiseSource c src d b).ym = b.ym := by unfold raiseSource; split <;> rfl
@[simp] theorem raise_chutes : (raise c d b).chutes = b.chutes := rfl
@[simp] theorem raiseWith_chutes (r : Nat) : (raiseWith r c d src b).chutes = b.chutes := rfl
@[simp] theorem raiseSource_chutes : (raiseSource c src d b).chutes = b.chutes := by unfold raiseSource; split <;> rfl
@[simp] theorem raise_movers : (raise c d b).movers = b.movers := rfl
@[simp] theorem raiseWith_movers (r : Nat) : (raiseWith r c d src b).movers = b.movers := rfl
@[simp] theorem raiseSource_movers : (raiseSource c src d b).movers = b.movers := by unfold raiseSource; split <;> rfl
@[simp] theorem raise_timers : (raise c d b).timers = b.timers := rfl
@[simp] theorem raiseWith_timers (r : Nat) : (raiseWith r c d src b).timers = b.timers := rfl
@[simp] theorem raiseSource_timers : (raiseSource c src d b).timers = b.timers := by unfold raiseSource; split <;> rfl
@[simp] theorem raise_dp0 : (raise c d b).dp0 = b.dp0 := rfl
@[simp] theorem raiseWith_dp0 (r : Nat) : (raiseWith r c d src b).dp0 = b.dp0 := rfl
@[simp] theorem raiseSource_dp0 : (raiseSource c src d b).dp0 = b.dp0 := by unfold raiseSource; split <;> rfl
@[simp] theorem raise_dp1 : (raise c d b).dp1 = b.dp1 := rfl
@[simp] theorem raiseWith_dp1 (r : Nat) : (raiseWith r c d src b).dp1 = b.dp1 := rfl
@[simp] theorem raiseSource_dp1 : (raiseSource c src d b).dp1 = b.dp1 := by unfold raiseSource; split <;> rfl
@[simp] theorem raise_rp : (raise c d b).rp = b.rp := rfl
@[simp] theorem raiseWith_rp (r : Nat) : (raiseWith r c d src b).rp = b.rp := rfl
@[simp] theorem raiseSource_rp : (raiseSource c src d b).rp = b.rp := by unfold raiseSource; split <;> rfl
@[simp] theorem raise_portDrain : (raise c d b).portDrain = b.portDrain := rfl
@[simp] theorem raiseWith_portDrain (r : Nat) : (raiseWith r c d src b).portDrain = b.portDrain := rfl
@[simp] theorem raiseSource_portDrain : (raiseSource c src d b).portDrain = b.portDrain := by unfold raiseSource; split <;> rfl
@[simp] theorem raise_holds : (raise c d b).holds = b.holds := rfl
@[simp] theorem raiseWith_holds (r : Nat) : (raiseWith r c d src b).holds = b.holds := rfl
@[simp] theorem raiseSource_holds : (raiseSource c src d b).holds = b.holds := by unfold raiseSource; split <;> rfl
@[simp] theorem raise_wear : (raise c d b).wear = b.wear := rfl
@[simp] theorem raiseWith_wear (r : Nat) : (raiseWith r c d src b).wear = b.wear := rfl
@[simp] theorem raiseSource_wear : (raiseSource c src d b).wear = b.wear := by unfold raiseSource; split <;> rfl
@[simp] theorem raise_rerates : (raise c d b).rerates = b.rerates := rfl
@[simp] theorem raiseWith_rerates (r : Nat) : (raiseWith r c d src b).rerates = b.rerates := rfl
@[simp] theorem raiseSource_rerates : (raiseSource c src d b).rerates = b.rerates := by unfold raiseSource; split <;> rfl
@[simp] theorem raise_wearDue : (raise c d b).wearDue = b.wearDue := rfl
@[simp] theorem raiseWith_wearDue (r : Nat) : (raiseWith r c d src b).wearDue = b.wearDue := rfl
@[simp] theorem raiseSource_wearDue : (raiseSource c src d b).wearDue = b.wearDue := by unfold raiseSource; split <;> rfl
@[simp] theorem raise_tempDue : (raise c d b).tempDue = b.tempDue := rfl
@[simp] theorem raiseWith_tempDue (r : Nat) : (raiseWith r c d src b).tempDue = b.tempDue := rfl
@[simp] theorem raiseSource_tempDue : (raiseSource c src d b).tempDue = b.tempDue := by unfold raiseSource; split <;> rfl
@[simp] theorem raise_dbFifo : (raise c d b).dbFifo = b.dbFifo := rfl
@[simp] theorem raiseWith_dbFifo (r : Nat) : (raiseWith r c d src b).dbFifo = b.dbFifo := rfl
@[simp] theorem raiseSource_dbFifo : (raiseSource c src d b).dbFifo = b.dbFifo := by unfold raiseSource; split <;> rfl
@[simp] theorem raise_rpFifo : (raise c d b).rpFifo = b.rpFifo := rfl
@[simp] theorem raiseWith_rpFifo (r : Nat) : (raiseWith r c d src b).rpFifo = b.rpFifo := rfl
@[simp] theorem raiseSource_rpFifo : (raiseSource c src d b).rpFifo = b.rpFifo := by unfold raiseSource; split <;> rfl
@[simp] theorem raise_dbCredits : (raise c d b).dbCredits = b.dbCredits := rfl
@[simp] theorem raiseWith_dbCredits (r : Nat) : (raiseWith r c d src b).dbCredits = b.dbCredits := rfl
@[simp] theorem raiseSource_dbCredits : (raiseSource c src d b).dbCredits = b.dbCredits := by unfold raiseSource; split <;> rfl
@[simp] theorem raise_dbRdata : (raise c d b).dbRdata = b.dbRdata := rfl
@[simp] theorem raiseWith_dbRdata (r : Nat) : (raiseWith r c d src b).dbRdata = b.dbRdata := rfl
@[simp] theorem raiseSource_dbRdata : (raiseSource c src d b).dbRdata = b.dbRdata := by unfold raiseSource; split <;> rfl
@[simp] theorem raise_mpaCredits : (raise c d b).mpaCredits = b.mpaCredits := rfl
@[simp] theorem raiseWith_mpaCredits (r : Nat) : (raiseWith r c d src b).mpaCredits = b.mpaCredits := rfl
@[simp] theorem raiseSource_mpaCredits : (raiseSource c src d b).mpaCredits = b.mpaCredits := by unfold raiseSource; split <;> rfl
@[simp] theorem raise_mpbCredits : (raise c d b).mpbCredits = b.mpbCredits := rfl
@[simp] theorem raiseWith_mpbCredits (r : Nat) : (raiseWith r c d src b).mpbCredits = b.mpbCredits := rfl
@[simp] theorem raiseSource_mpbCredits : (raiseSource c src d b).mpbCredits = b.mpbCredits := by unfold raiseSource; split <;> rfl
@[simp] theorem raise_mpFifo : (raise c d b).mpFifo = b.mpFifo := rfl
@[simp] theorem raiseWith_mpFifo (r : Nat) : (raiseWith r c d src b).mpFifo = b.mpFifo := rfl
@[simp] theorem raiseSource_mpFifo : (raiseSource c src d b).mpFifo = b.mpFifo := by unfold raiseSource; split <;> rfl
@[simp] theorem raise_draws : (raise c d b).draws = b.draws := rfl
@[simp] theorem raiseWith_draws (r : Nat) : (raiseWith r c d src b).draws = b.draws := rfl
@[simp] theorem raiseSource_draws : (raiseSource c src d b).draws = b.draws := by unfold raiseSource; split <;> rfl
@[simp] theorem raise_free : (raise c d b).free = b.free := rfl
@[simp] theorem raiseWith_free (r : Nat) : (raiseWith r c d src b).free = b.free := rfl
@[simp] theorem raiseSource_free : (raiseSource c src d b).free = b.free := by unfold raiseSource; split <;> rfl
@[simp] theorem raise_now : (raise c d b).now = b.now := rfl
@[simp] theorem raiseWith_now (r : Nat) : (raiseWith r c d src b).now = b.now := rfl
@[simp] theorem raiseSource_now : (raiseSource c src d b).now = b.now := by unfold raiseSource; split <;> rfl
end events

@[simp] theorem modStall_still (n : Nat) (f : Stall → Stall): (modStall n f b).still = modStall n f b.still := rfl
@[simp] theorem modRing_still (n r : Nat) (f : Ring → Ring): (modRing n r f b).still = modRing n r f b.still := rfl
@[simp] theorem modJob_still (j : Nat) (f : Job → Job): (modJob j f b).still = modJob j f b.still := rfl
@[simp] theorem modLane_still (l : Nat) (f : Lane → Lane): (modLane l f b).still = modLane l f b.still := rfl
@[simp] theorem modIsland_still (i : Nat) (f : DigestIsland → DigestIsland): (modIsland i f b).still = modIsland i f b.still := rfl
@[simp] theorem modCore_still (c : Nat) (f : Core → Core): (modCore c f b).still = modCore c f b.still := rfl
@[simp] theorem modTack_still (f : Tack → Tack): (modTack f b).still = modTack f b.still := rfl
@[simp] theorem modSlot_still (i : Nat) (f : Slot → Slot): (modSlot i f b).still = modSlot i f b.still := rfl
@[simp] theorem modSk_still (n : Nat) (f : StallKey → StallKey): (modSk n f b).still = modSk n f b.still := rfl
@[simp] theorem modYm_still (f : Ym → Ym): (modYm f b).still = modYm f b.still := rfl
@[simp] theorem modPair_still (p : Nat) (f : Mbox → Mbox): (modPair p f b).still = modPair p f b.still := rfl
@[simp] theorem modGate_still (f : Gate → Gate): (modGate f b).still = modGate f b.still := rfl
@[simp] theorem modCmd_still (id : Nat) (f : Cmd → Cmd): (modCmd id f b).still = modCmd id f b.still := rfl
@[simp] theorem modChute_still (c : Nat) (f : Chute → Chute): (modChute c f b).still = modChute c f b.still := rfl
@[simp] theorem modMover_still (m : Nat) (f : Mover → Mover): (modMover m f b).still = modMover m f b.still := rfl
@[simp] theorem modLt_still (f : LeanTo → LeanTo): (modLt f b).still = modLt f b.still := rfl
@[simp] theorem modBoot_still (f : Boot → Boot): (modBoot f b).still = modBoot f b.still := rfl
@[simp] theorem drew_still : (drew b).still = drew b.still := rfl
@[simp] theorem freed_still : (freed b).still = freed b.still := rfl
@[simp] theorem idle_still : (idle b).still = idle b.still := rfl
@[simp] theorem raise_still (c : Nat) (d : Bytes) : (raise c d b).still = raise c d b.still := rfl
@[simp] theorem still_still : b.still.still = b.still := rfl
@[simp] theorem when_still (c : Bool) (f : Block → Block) : (when c f b).still = if c then (f b).still else b.still := by cases c <;> rfl

end Sys2Proof.Machine
end

