-- ==== Sys2Proof/Laws/Run.lean ====
section
/-!
SUPPORT. How a command's answer follows from what its meaning does to the block.
-/

namespace Sys2Proof.Machine

open Sys2Proof

variable {s : State} {f : Block → Block} {b : Block}

theorem upd_gives (h : f s.blk = b) : upd s f = .next { s with blk := b } := by rw [upd, h]
theorem updReady_gives (hr : s.blk.boot.ready = true) (h : f s.blk = b) : updReady s f = .next { s with blk := b } := by
  rw [updReady, upd, hr, when_true, h]
theorem updReady_waits (hr : s.blk.boot.ready = false) (f : Block → Block) : updReady s f = .next s := by
  rw [updReady, upd, hr, when_false]
theorem updOn_gives {i : Nat} (hr : s.blk.boot.ready = true) (hh : holding s.blk i = false) (h : f s.blk = b) :
    updOn s i f = .next { s with blk := b } := updReady_gives hr (by rw [hh]; exact h)

theorem raise_withEvent (c : Nat) (d : Bytes) (b : Block) : raise c d b = withEvent c d b := rfl

theorem dbAccepts_iff (q : Stall) (pid : BitVec 20) (priv whole : Bool) :
    dbAccepts q pid priv whole = true ↔ Accepted q pid priv whole := by
  simp [dbAccepts, Accepted, and_assoc]

theorem offer_offered {p : Port} {rs : List Req} {b : Block} {r : Req} (h : r ∈ rs) : Offered (offer p rs b) p r := by
  exact List.mem_append.1 ((offer_reqs p rs b).mem_iff.2 (List.mem_append_left _ h))

theorem offered_of_port {p : Port} {b t : Block} {r : Req} (h : t.port p = b.port p) (ho : Offered b p r) : Offered t p r := by
  simpa only [Offered, h] using ho

/-- A request stays offered while more are offered. -/
theorem offer_keeps {p q : Port} {rs : List Req} {b : Block} {r : Req} (h : Offered b p r) : Offered (offer q rs b) p r := by
  by_cases hpq : p = q
  · subst hpq
    exact List.mem_append.1 ((offer_reqs p rs b).mem_iff.2 (List.mem_append_right rs (List.mem_append.2 h)))
  · exact offered_of_port (offer_port_ne hpq rs b) h

/-- A command that only offers requests, from one island. -/
theorem updOn_sends {c : Instr} {i : Nat} {p : Port} {rs : List Req} {d : Block} (hr : s.blk.boot.ready = true) (hh : holding s.blk i = false)
    (hc : exec c s = updOn s i f) (hf : f s.blk = offer p rs d) : Sends c s d p rs :=
  ⟨_, hc.trans (updOn_gives hr hh hf), offer_still _ _ _, fun _ h => offer_offered h⟩

/-- A command of the yardmaster that has its turn and passes its checks runs its body. -/
theorem turn_gives {id op : Nat} {c : Cmd} {is : Cmd → Bool} {checks : Block → Cmd → Checks} {body : Nat → Cmd → Block → Block} {x : Block}
    {cmd : Instr} (ht : Turn s id c op) (his : is c = true) (hp : Passes s.blk c (checks s.blk c))
    (he : exec cmd s = updCmd s is checks body id) (hx : body id c (commenced id s.blk) = x) : Gives cmd s x := by
  obtain ⟨hr, hh, hc, hop, hph, ha, hm⟩ := ht
  obtain ⟨h1, h2, h3⟩ := hp
  refine he.trans (updOn_gives hr hh ?_)
  rw [runCmd, hc]; dsimp only
  rw [if_neg (by simp [his, ha]), if_pos (by simp [hph, hm]), startCmd, h1]; dsimp only
  rw [if_neg (by simp only [Bool.and_eq_true, not_and, Bool.not_eq_true]; exact h2), h3]; exact hx

/-- A command of the yardmaster that is running runs its body. -/
theorem going_gives {id op : Nat} {c : Cmd} {is : Cmd → Bool} {checks : Block → Cmd → Checks} {body : Nat → Cmd → Block → Block} {x : Block}
    {cmd : Instr} (ht : Going s id c op) (his : is c = true) (he : exec cmd s = updCmd s is checks body id)
    (hx : body id c s.blk = x) : Gives cmd s x := by
  obtain ⟨hr, hh, hc, hop, hph, ha⟩ := ht
  refine he.trans (updOn_gives hr hh ?_)
  rw [runCmd, hc]; dsimp only
  rw [if_neg (by simp [his, ha]), if_neg (by simp [hph]), if_pos (by simp [hph])]; exact hx

end Sys2Proof.Machine
end

