-- ==== Sys2Proof/Laws/Whole.lean ====
section
/-!
SUPPORT. What the operations on the whole state can do to the queue, the fuse cells and the clock generators, said
once for each.
-/

namespace Sys2Proof.Machine

open Sys2Proof

/-- The queue stays, no fuse cell is unburnt, legal clocks stay legal. -/
def Keeps (s t : State) : Prop :=
  t.pending = s.pending ∧ s.fuse.le t.fuse ∧ (ClocksLegal s.clk → ClocksLegal t.clk)

theorem FuseArray.le_refl (f : FuseArray) : f.le f := by simp [FuseArray.le]

theorem and_or_self {w : Nat} (x m : BitVec w) : x &&& (x ||| m) = x := by
  ext i; simp; exact fun a => .inl a

theorem FuseArray.le_trans {f g h : FuseArray} (h1 : f.le g) (h2 : g.le h) : f.le h := by
  have key : ∀ {w : Nat} {x y z : BitVec w}, x &&& y = x → y &&& z = y → x &&& z = x := by
    intro w x y z hx hy
    rw [← hx, BitVec.and_assoc, hy]
  obtain ⟨a1, a2, a3, a4, a5, a6, a7, a8, a9, a10⟩ := h1
  obtain ⟨b1, b2, b3, b4, b5, b6, b7, b8, b9, b10⟩ := h2
  exact ⟨key a1 b1, key a2 b2, key a3 b3, key a4 b4, key a5 b5, key a6 b6, key a7 b7, key a8 b8, key a9 b9, key a10 b10⟩

theorem Keeps.refl (s : State) : Keeps s s := ⟨rfl, FuseArray.le_refl _, id⟩

theorem Keeps.trans {s t u : State} (h1 : Keeps s t) (h2 : Keeps t u) : Keeps s u :=
  ⟨h2.1.trans h1.1, FuseArray.le_trans h1.2.1 h2.2.1, h2.2.2 ∘ h1.2.2⟩

/-- A change of the block alone. -/
theorem keeps_blk (s : State) (b : Block) : Keeps s { s with blk := b } := ⟨rfl, FuseArray.le_refl _, id⟩

theorem setCells_le (fld : FuseField) (m : Nat) (f : FuseArray) : f.le (setCells fld m f) := by
  cases fld <;> simp [setCells, FuseArray.le, and_or_self]

theorem burnCells_le (how : Burn) (fld : FuseField) (x : Bytes) (b : Block) (f : FuseArray) :
    f.le (burnCells how fld x b f) := by
  cases how <;> exact setCells_le _ _ _

theorem burn_keeps (how : Burn) (fld : FuseField) (x : Bytes) (s : State) : Keeps s (burn how fld x s) :=
  ⟨rfl, burnCells_le _ _ _ _ _, id⟩

theorem clocksLegal_reset : ClocksLegal {} := fun _ => show LegalRatio 100 ∧ LegalRatio 100 ∧ 100 ≤ 100 by decide

/-- A reset of the clock generators. -/
theorem keeps_reset (s : State) (b : Block) : Keeps s { s with clk := {}, blk := b } :=
  ⟨rfl, FuseArray.le_refl _, fun _ => clocksLegal_reset⟩

theorem warmReset_keeps (n : Nat) (s : State) : Keeps s (warmReset n s) := keeps_reset s _

theorem clocksLegal_reach {c : Clocks} (h : ClocksLegal c) (i : Nat) : ClocksLegal (reachRatio i c) := by
  intro j
  by_cases hj : j = i
  · subst hj
    have h2 := (h j).2.1
    simp only [reachRatio, Tab.get_set_self]
    exact ⟨h2, h2, Nat.le_refl _⟩
  · simpa [reachRatio, hj] using h j

/-- The step rule keeps a ratio legal and never raises it. -/
theorem rerateGo_legal (n : Nat) (m : Int) (r : Nat) (h : LegalRatio r) :
    LegalRatio (rerateGo n m r).2 ∧ (rerateGo n m r).2 ≤ r := by
  induction n generalizing m r with
  | zero => exact ⟨h, Nat.le_refl _⟩
  | succ n ih =>
    simp only [rerateGo]
    split
    · rename_i hc
      simp only [Bool.and_eq_true, decide_eq_true_eq] at hc
      obtain ⟨h1, h2, h3⟩ := h
      have := ih (1000 - ((1000 - m) * (r - 2 : Nat)).tdiv r) (r - 2) ⟨by omega, by omega, by omega⟩
      exact ⟨this.1, by omega⟩
    · exact ⟨h, Nat.le_refl _⟩

theorem measureOne_keeps (k : Bool) (s : State) (x : Fin 22 × Gauges) : Keeps s (measureOne k s x) := by
  unfold measureOne
  dsimp only
  split
  · exact keeps_blk _ _
  · refine ⟨rfl, FuseArray.le_refl _, fun h j => ?_⟩
    by_cases hj : j = x.1.val
    · subst hj
      obtain ⟨h1, h2, h3⟩ := h x.1.val
      obtain ⟨g1, g2⟩ := rerateGo_legal 15 (marginOf (tjNow x.2.oscLo x.2.oscHi) x.2) _ h1
      simp only [Tab.get_set_self]
      refine ⟨h1, ?_, ?_⟩
      · rcases Nat.le_total (s.clk.target.get x.1.val)
          (rerateGo 15 (marginOf (tjNow x.2.oscLo x.2.oscHi) x.2) (s.clk.ratio.get x.1.val)).2 with hle | hle
        · rw [Nat.min_eq_left hle]; exact h2
        · rw [Nat.min_eq_right hle]; exact g1
      · exact le_trans (Nat.min_le_right _ _) g2
    · simpa [hj] using h j

theorem measureAll_keeps (k : Bool) (l : List (Fin 22 × Gauges)) (s : State) : Keeps s (l.foldl (measureOne k) s) := by
  induction l generalizing s with
  | nil => exact Keeps.refl s
  | cons x l ih => exact (measureOne_keeps k s x).trans (ih _)

theorem measure_keeps (k : Bool) (l : List (Fin 22)) (g : Vector Gauges 22) (s : State) : Keeps s (measure k l g s) :=
  measureAll_keeps k _ s

theorem Keeps.setBlk {s t : State} (h : Keeps s t) (b : Block) : Keeps s { t with blk := b } := h.trans (keeps_blk t b)

theorem onYm_keeps (f : Block → Block) (s : State) : Keeps s (onYm f s) := keeps_blk s _

theorem finishBurn_keeps (how : Burn) (s : State) : Keeps s (finishBurn how s) := by
  unfold finishBurn
  split
  · exact Keeps.refl s
  · split
    · exact Keeps.refl s
    · cases how <;> first | exact burn_keeps _ _ _ _ | exact (burn_keeps _ _ _ _).setBlk _

theorem burnCmd_keeps (op fail id : Nat) (fld : Cmd → FuseField) (how : Burn) (s : State) :
    Keeps s (burnCmd op fail id fld how s) := by
  unfold burnCmd
  split
  · exact Keeps.refl s
  · split
    · exact (burn_keeps _ _ _ _).setBlk _
    · exact Keeps.refl s

theorem burnEntry_keeps (how : Burn) (fld : FuseField) (x : Bytes) (s : State) : Keeps s (burnEntry how fld x s).2 := by
  unfold burnEntry
  split
  · exact burn_keeps _ _ _ _
  · exact Keeps.refl s

theorem retire1_keeps (again : Bool) (how : Burn) (n : Nat) (s : State) : Keeps s (retire1 again how n s).2 := by
  unfold retire1
  split
  · exact Keeps.refl s
  · split
    · exact Keeps.refl s
    · dsimp only
      split
      · exact (burnEntry_keeps _ _ _ _).setBlk _
      · exact burnEntry_keeps _ _ _ _

theorem storeEntry_keeps (again : Bool) (how : Burn) (e : Entry) (i sub : Nat) (d : Bytes) (s : State) :
    Keeps s (storeEntry again how e i sub d s).2 := by
  unfold storeEntry
  split
  · split
    · exact Keeps.refl s
    · split
      · exact Keeps.refl s
      · exact burnEntry_keeps _ _ _ _
  · split
    · exact retire1_keeps _ _ _ _
    · split
      · exact Keeps.refl s
      · exact keeps_blk _ _

theorem odWriteOp_keeps (again : Bool) (how : Burn) (x : Sender) (i sub : Nat) (d : Bytes) (s : State) :
    Keeps s (odWriteOp again how x i sub d s).2 := by
  unfold odWriteOp
  split
  · exact Keeps.refl s
  · split
    · exact Keeps.refl s
    · split
      · exact Keeps.refl s
      · exact storeEntry_keeps _ _ _ _ _ _ _

theorem itemsFrom_keeps (how : Burn) (c : Cmd) (n k : Nat) (again : Bool) (s : State) : Keeps s (itemsFrom how c n k again s).1 := by
  induction n generalizing k again s with
  | zero => exact Keeps.refl s
  | succ n ih =>
    unfold itemsFrom
    split
    · exact Keeps.refl s
    · dsimp only
      split
      · exact odWriteOp_keeps _ _ _ _ _ _ _
      · exact (odWriteOp_keeps _ _ _ _ _ _ _).trans (ih _ _ _)
      · exact odWriteOp_keeps _ _ _ _ _ _ _

theorem writeItems_keeps (how : Burn) (id : Nat) (s : State) : Keeps s (writeItems how id s) := by
  unfold writeItems
  split
  · exact Keeps.refl s
  · dsimp only
    split <;> exact (itemsFrom_keeps _ _ _ _ _ _).setBlk _

theorem runItems_keeps (how : Burn) (id : Nat) (s : State) : Keeps s (runItems how id s) := by
  unfold runItems
  split
  · exact Keeps.refl s
  · split
    · exact writeItems_keeps _ _ _
    · exact Keeps.refl s

theorem finishItems_keeps (how : Burn) (s : State) : Keeps s (finishItems how s) := by
  unfold finishItems
  refine Keeps.trans (keeps_blk s (modYm (fun y => { y with changesDue := [] }) s.blk)) ?_
  generalize s.blk.ym.changesDue = l
  generalize ({ s with blk := modYm (fun y => { y with changesDue := [] }) s.blk } : State) = u
  induction l generalizing u with
  | nil => exact Keeps.refl u
  | cons c l ih =>
    refine Keeps.trans ?_ (ih _)
    dsimp only
    split
    · split
      · exact (itemsFrom_keeps _ _ _ _ _ _).setBlk _
      · exact itemsFrom_keeps _ _ _ _ _ _
    · exact keeps_blk _ _

theorem windowWrite_keeps (p : MPort) (how : Burn) (s : State) : Keeps s (windowWrite p how s) := by
  unfold windowWrite
  dsimp only
  split
  · exact keeps_blk _ _
  · split <;> exact (odWriteOp_keeps _ _ _ _ _ _ _).setBlk _

theorem runWindow_keeps (p : MPort) (how : Burn) (s : State) : Keeps s (runWindow p how s) := by
  unfold runWindow
  dsimp only
  split
  · exact Keeps.refl s
  · split
    · exact windowWrite_keeps _ _ _
    · exact keeps_blk _ _

theorem stopAt_keeps (k c : Nat) (s : State) : Keeps s (stopAt k c s) := keeps_blk s _

theorem startWear_keeps (o : StartObs) (s : State) : Keeps s (startWear o s) :=
  (measure_keeps true everyIsland o.gauges s).setBlk _

theorem startLate_keeps (o : StartObs) (s : State) : Keeps s (startLate o s) := by
  have h := startWear_keeps o s
  unfold startLate
  generalize startWear o s = u at h ⊢
  dsimp only
  split
  · exact (h.setBlk _).trans (stopAt_keeps _ _ _)
  · exact (h.setBlk _).setBlk _

theorem startSteps_keeps (o : StartObs) (s : State) : Keeps s (startSteps o s) := by
  unfold startSteps
  dsimp only
  split
  · exact (keeps_blk s _).trans (stopAt_keeps _ _ _)
  · split
    · exact (keeps_blk s _).trans (stopAt_keeps _ _ _)
    · exact ((keeps_blk s _).setBlk _).trans (startLate_keeps _ _)

theorem engineAgain_keeps (i : Nat) (g : ClockSeen) (s : State) : Keeps s (engineAgain i g s) := by
  unfold engineAgain
  split
  · exact Keeps.refl s
  · split
    · exact keeps_blk _ _
    · exact measureOne_keeps _ _ _

theorem clockReset_keeps (i : Nat) (g : ClockSeen) (s : State) : Keeps s (clockReset i g s) := by
  have r : ∀ b, Keeps s { s with clk := reachRatio i s.clk, blk := b } := fun _ => ⟨rfl, FuseArray.le_refl _, fun h => clocksLegal_reach h i⟩
  unfold clockReset
  split
  · exact (r _).trans (engineAgain_keeps _ _ _)
  · split
    · exact r _
    · split
      · exact r _
      · exact warmReset_keeps _ _

/-- The closing of the test port: the state as it is, or a warm reset of it. -/
theorem scanClosed_keeps (b : Block) (s : State) : Keeps s (scanClosed b s) := by
  unfold scanClosed
  split
  · exact warmReset_keeps _ _
  · exact Keeps.refl s

end Sys2Proof.Machine
end

