-- ==== Sys2Proof/WellFormed.lean ====
section
/-!
DEFINITION. Well-formed commands: the operands the surroundings can give beyond what their types say.
`exec` is total on every command; what is not well-formed cannot arrive at the block's pins.
-/

namespace Sys2Proof

/-- Tags of a port: one for each request that can be outstanding, reads and writes alike (R536). -/
def tagsOf : Port → Nat
  | .dp0 | .dp1 => 1024
  | .rp => 96

/-- Well-formedness, constructor by constructor: a tag is one of its port's, a beat carries at most a 64-byte
lane (R537), a chute item 32 bytes (R444), a source position fits SRC_LEN (R74), a window write 1 to 64 bytes (R419),
and a list names each island or slot once. -/
def Instr.wf : Instr → Bool
  | .coldReset _ => true
  | .warmReset => true
  | .startUp obs => obs.lockFails.Nodup && obs.sramFails.Nodup
  | .ltReset => true
  | .vddRemove => true
  | .wakeIn => true
  | .sleepEnter => true
  | .ymPowerGate => true
  | .tapInstruction _ => true
  | .scanAccess _ => true
  | .scanModeFall => true
  | .sqDoorbellWrite _ _ _ _ _ _ => true
  | .cqConsumerWrite _ _ _ _ _ => true
  | .dcInvalidate _ _ _ _ _ => true
  | .dcInvalidateDone _ => true
  | .descriptorFetch _ _ => true
  | .descriptorCapture _ _ => true
  | .parameterBlockRead _ _ => true
  | .jobDispatch => true
  | .keyDecision _ _ => true
  | .blobUnwrap _ => true
  | .fragmentTableWalk _ => true
  | .stateBlobRestore _ => true
  | .engineGrant _ => true
  | .hitch _ srcDone => srcDone < 2 ^ 40
  | .nop _ => true
  | .knot _ => true
  | .encrypt _ => true
  | .decrypt _ => true
  | .seal _ => true
  | .openAead _ _ => true
  | .macGen _ => true
  | .macCheck _ _ => true
  | .splice _ _ _ => true
  | .digest _ => true
  | .hmacGen _ => true
  | .hmacCheck _ _ => true
  | .kmacGen _ => true
  | .kmacCheck _ _ => true
  | .xof _ => true
  | .keyUnwrap _ => true
  | .keyWrap _ => true
  | .keyDerive _ => true
  | .keyGenerateOp _ => true
  | .random _ => true
  | .ecKeygen _ => true
  | .ecdsaSign _ _ _ => true
  | .ecdsaVerify _ => true
  | .ecdh _ => true
  | .eddsaSign _ _ _ => true
  | .eddsaVerify _ => true
  | .xdh _ => true
  | .rsaPrivate _ _ _ => true
  | .rsaPublic _ => true
  | .modexp _ => true
  | .modmul _ => true
  | .mlkemKeygen _ => true
  | .mlkemEncaps _ => true
  | .mlkemDecaps _ => true
  | .mldsaKeygen _ => true
  | .mldsaSign _ => true
  | .mldsaVerify _ => true
  | .lmsKeygen _ => true
  | .lmsSign _ _ => true
  | .lmsVerify _ => true
  | .xmssVerify _ => true
  | .slhdsaSign _ => true
  | .slhdsaVerify _ => true
  | .dataReadResponse port tag data _ _ => tag < tagsOf port && data.length ≤ 64
  | .writeDoneResponse port tag _ => tag < tagsOf port
  | .engineEndReport _ _ => true
  | .completionWriteAck tag _ => tag < tagsOf .rp
  | .irqTimerExpiry _ => true
  | .cqWriteRetry _ => true
  | .laneFault _ _ srcDone => srcDone < 2 ^ 40
  | .laneRetry => true
  | .laneSelftestAuto _ _ => true
  | .laneReseed _ _ => true
  | .groomStep => true
  | .slotIntegritySweep upsets stuck => upsets.Nodup && stuck.Nodup
  | .orphanSweep => true
  | .digestCachePurge _ => true
  | .digestCacheRemask _ => true
  | .chuteItemWrite _ data _ => data.length == 32
  | .chuteItemRead _ => true
  | .chuteFlush _ _ => true
  | .chuteFlushNow _ _ => true
  | .timerTick _ => true
  | .moverStart _ _ => true
  | .moverEnable _ _ _ => true
  | .moverDisable _ _ => true
  | .moverWalk _ => true
  | .copy _ => true
  | .braid _ => true
  | .unbraid _ => true
  | .moverDescriptorEnd _ => true
  | .inTagWrite _ _ _ _ => true
  | .noticeReceive _ => true
  | .noticePost _ => true
  | .outTagRead _ _ _ => true
  | .pairReset _ _ _ => true
  | .hostUnresponsive _ => true
  | .stallCreate _ => true
  | .stallBind _ => true
  | .stallQuiesceSoft _ => true
  | .stallQuiesceHard _ => true
  | .stallResume _ => true
  | .stallReset _ => true
  | .stallDestroy _ => true
  | .keyImportClear _ => true
  | .keyGenerate _ => true
  | .install _ => true
  | .destroy _ => true
  | .tackRoomImageRestore _ => true
  | .keyAttest _ => true
  | .keyDestroy _ => true
  | .custodianEnroll _ => true
  | .custodianClear _ => true
  | .curveLoad _ => true
  | .curveUnload _ => true
  | .packLoad _ _ => true
  | .lifecycleAdvance _ _ => true
  | .forgeRoots _ _ => true
  | .gateChallenge _ => true
  | .gateRespond _ _ _ => true
  | .gatePassword _ _ => true
  | .gateClose _ => true
  | .gateSessionExpiry => true
  | .gateChallengeExpiry => true
  | .gateLockoutExpiry => true
  | .gateCellRetry => true
  | .odRead _ => true
  | .odWrite _ _ => true
  | .selftest _ _ => true
  | .wearMeasure _ _ => true
  | .wearReport _ => true
  | .eventlogRead _ => true
  | .eventlogAck _ => true
  | .laneFence _ => true
  | .laneUnfence _ => true
  | .timeSet _ => true
  | .alarmAck _ => true
  | .studbookStatus _ => true
  | .odCtrlRead _ _ _ => true
  | .odCtrlWrite _ _ _ => true
  | .dictionaryOperation _ _ => true
  | .fzWrite _ _ data _ _ => 1 ≤ data.length && data.length ≤ 64
  | .srcRetireBurn _ _ _ => true
  | .ltArmSet _ _ => true
  | .ltRespSet _ _ => true
  | .latchAcquire _ _ _ => true
  | .latchFree _ _ _ _ => true
  | .registerWrite _ _ _ _ => true
  | .sbResponse _ _ _ => true
  | .studbookTimeout => true
  | .tamperStatic _ => true
  | .tamperMesh _ => true
  | .vbkLow => true
  | .ltClockFault => true
  | .clockFault _ _ => true
  | .supplyWarn _ => true
  | .supplyHoldEnd _ => true
  | .supplyHoldTimeout _ => true
  | .supplyReset _ => true
  | .entropyFail => true
  | .entropyRestartDone _ => true
  | .leanToEventArrival => true
  | .leanToRecord => true
  | .wearScheduledMeasurement _ => true
  | .clockRatioChange _ => true
  | .temperatureSample _ => true
  | .clkRefWithinRange => true
  | .vbkLoss => true
  | .clkLtInRange => true
  | .tamperInputRearm _ => true
  | .meshRearm _ => true
  | .vbkLowClear => true
  | .vfzWithinRange _ => true
  | .writeWaitAllowanceExpiry _ => true
  | .wearMeasurementRerun _ _ => true

end Sys2Proof
end

