-- ==== Sys2Proof/Tests/Slice0.lean ====
section
/-!
SUPPORT. Tests: well-formedness refuses what it should, every statement's hypotheses are met by some small state, and
single commands give the values the manual states.
-/

namespace Sys2Proof.Machine.Tests

open Sys2Proof Sys2Proof.Machine

set_option Elab.async false

/-! ## Small states -/

/-- A block that has started up, holds a barn key and has one ACTIVE stall, 0, bound to process 5. -/
def up : Block :=
  { boot := { step := 10, ready := true, sealClear := true }
    tack := { sys := ({ dflt := {} } : Tab SysSlot).set 0 { content := [1] } }
    stalls := ({ dflt := {} } : Tab Stall).set 0 { state := .active, pid := some 5, wasActive := some (0, 8) } }
def on (b : Block) : State := { State.reset with blk := b }
/-- The block after a command. -/
def after (c : Instr) (b : Block) : Block :=
  match exec c (on b) with
  | .next t => t.blk
  | _ => {}

/-- A privileged sender on port A, and an unprivileged one on port B. -/
def manager : Sender := { rid := 7, priv := true, port := .a }
def guest : Sender := { rid := 9, priv := false, port := .b }

/-- A received command of code `op` with parameters. -/
def cmdOf (op : Nat) (par : Bytes) (phase step : Nat) : Cmd :=
  let bytes := toLe 2 op ++ zeros 2 ++ toLe 4 7 ++ toLe 4 (32 + par.length) ++ zeros 4 ++ toLe 8 0x1000 ++ toLe 4 65536 ++ zeros 4 ++ par
  { sender := manager, sheetAddr := 0x4000, sheet := { want := bytes.length, parts := [(0, bytes)] }, phase, step }
/-- A block in which that command, number 3, is about to run or running. -/
def withCmd (b : Block) (c : Cmd) : Block := { b with ym := { b.ym with cmds := [(3, c)], nextCmd := 4 } }
/-- Command 3 of code `op` with these parameters is about to run on `b`, and its checks pass. -/
def runs (b : Block) (op : Nat) (par : Bytes) (checks : Block → Cmd → Checks) : Bool :=
  let c := cmdOf op par 2 0
  decide (Turn (on (withCmd b c)) 3 c op ∧ Passes (withCmd b c) c (checks (withCmd b c) c))
/-- Command 3 is running. -/
def goes (b : Block) (op : Nat) (par : Bytes) (step : Nat) : Bool :=
  let c := cmdOf op par 3 step
  decide (Going (on (withCmd b c)) 3 c op)

/-- A job of opcode `op` on an engine, with every input there. -/
def jobOn (op : Nat) (e : Engine) : Job :=
  { desc := { opcode := BitVec.ofNat 8 op }, stage := .running, started := true, engine := some e, keys := [{}, {}] }
def withJob (b : Block) (j : Job) : Block := { b with jobs := ({ dflt := none } : Tab (Option Job)).set 0 (some j) }

/-! ## Well-formedness -/

theorem test_wf_tag : Instr.wf (.writeDoneResponse .rp 96 false) = false ∧ Instr.wf (.writeDoneResponse .rp 95 false) = true
    ∧ Instr.wf (.completionWriteAck 96 true) = false ∧ Instr.wf (.dataReadResponse .dp0 1024 [] false true) = false := by decide
theorem test_wf_lengths : Instr.wf (.dataReadResponse .dp0 0 (zeros 65) false true) = false ∧ Instr.wf (.chuteItemWrite 0 (zeros 31) 1) = false
    ∧ Instr.wf (.fzWrite 0x8020 0 [] manager .good) = false ∧ Instr.wf (.fzWrite 0x8020 0 (zeros 65) manager .good) = false
    ∧ Instr.wf (.hitch (.lane 0) (2 ^ 40)) = false ∧ Instr.wf (.laneFault 0 0 (2 ^ 40)) = false := by decide
theorem test_wf_once : Instr.wf (.startUp { lockFails := [1, 1] }) = false ∧ Instr.wf (.startUp { sramFails := [2, 2] }) = false
    ∧ Instr.wf (.startUp { lockFails := [1, 2], sramFails := [1] }) = true
    ∧ Instr.wf (.slotIntegritySweep [4, 4] []) = false ∧ Instr.wf (.slotIntegritySweep [] [4, 4]) = false := by decide

/-! ## Witnesses: a state and operands that meet each statement's hypotheses -/

theorem witness_StepsKeepClocksLegal_reset : ∀ i, LegalRatio ((State.reset.clk.ratio).get i) ∧ LegalRatio (State.reset.clk.target.get i) :=
  fun _ => show LegalRatio 100 ∧ LegalRatio 100 by decide
theorem witness_FusesOnlyBurn : step State.reset = .next { State.reset with blk := { State.reset.blk with now := 1 } } := rfl
theorem witness_IndexWrites : DoorbellServes up ∧ ¬ Accepted (up.stall 0) 6 false true ∧ Accepted (up.stall 0) 5 false true
    ∧ ((64 : Idx) - (up.ring 0 0).prod).toNat + ((up.ring 0 0).prod - (up.ring 0 0).cons).toNat ≤ 2 ^ (up.ring 0 0).k
    ∧ 2 ^ (up.ring 0 0).k < ((65 : Idx) - (up.ring 0 0).prod).toNat + ((up.ring 0 0).prod - (up.ring 0 0).cons).toNat
    ∧ ((0 : Idx) - (up.stall 0).cqCons).toNat ≤ ((up.stall 0).cqProd - (up.stall 0).cqCons).toNat
    ∧ ((up.stall 0).cqProd - (up.stall 0).cqCons).toNat < ((1 : Idx) - (up.stall 0).cqCons).toNat := by decide
theorem witness_Invalidation : DoorbellServes up ∧ Accepted (up.stall 0) 5 false true ∧ (0xF : BitVec 4) ≠ 0
    ∧ (∀ r : RingId, (up.stall 0).invMask.getLsbD r.val = true → ∀ f ∈ (up.ring 0 r.val).fetching, f.2.2.2 = false)
    ∧ (let b := modStall 0 (fun s => { s with invMask := 8 }) (modRing 0 3 (fun g => { g with fetching := [(0, 1, {}, true)] }) up)
       ∃ r : RingId, (b.stall 0).invMask.getLsbD r.val = true ∧ ∃ f ∈ (b.ring 0 r.val).fetching, f.2.2.2 = true) := by decide
theorem witness_IndexWrites_credit : up.dbCredits ≠ 0 ∧ ({ up with dbCredits := 0 } : Block).dbCredits = 0
    ∧ dbHeld { up with holds := up.holds.set 22 (some 1) } = true ∧ (up.stall 0).cqHalted = false
    ∧ ((modStall 0 (fun q => { q with cqHalted := true }) up).stall 0).cqHalted = true := by decide
theorem witness_Halt : (up.ring 0 3).halted = false ∧ ((modRing 0 3 (fun g => { g with halted := true }) up).ring 0 3).halted = true := by decide
/-- Sixteen announced descriptors, near the end of a ring of 64. -/
def fetching : Block := modRing 0 0 (fun g => { g with prod := 68, cons := 60 }) up
theorem witness_Fetch : fetchable fetching 0 0 = true ∧ ((fetching.stall 0).invMask).getLsbD 0 = false ∧ fetchCount (fetching.ring 0 0) = 4
    ∧ 2 ≤ (fetching.ring 0 0).k ∧ (fetching.ring 0 0).k ≤ 15 := by decide
/-- A captured SPLICE whose parameter block is unread. -/
def spliceHead : Captured := { desc := { opcode := 0x18, aux := 0x1000 } }
theorem witness_Capture :
    (let g := (modRing 0 0 (fun g => { g with fetching := [(0, 1, { want := 64, parts := [(0, zeros 64)] }, false)] }) up).ring 0 0
     ∃ first k buf drop rest, g.fetching = (first, k, buf, drop) :: rest ∧ buf.full = true)
    ∧ [spliceHead].find? (fun c => c.pblk == .unread && pblkLen c.desc != 0) = some spliceHead :=
  ⟨⟨0, 1, _, false, [], rfl, by decide⟩, by decide⟩
/-- A ring with a NOP at its head, and one with a cancelling knot. -/
def headOf (d : Desc) : Block := modRing 0 0 (fun g => { g with prod := 1, captured := [{ desc := d }] }) up
theorem witness_Dispatch : leastRank (candidates (refilled up)) = none
    ∧ (∃ x, leastRank (candidates (refilled (headOf {}))) = some x ∧ x.2 = (0, 0)) ∧ headReady (refilled (headOf {})) 0 0 = some { desc := {} }
    ∧ lowest (admission (refill 0 (refilled (headOf {}))) 0 0 { desc := {} }) = none
    ∧ lowest (admission (refill 0 (refilled (headOf { opcode := 0xFF }))) 0 0 { desc := { opcode := 0xFF } }) = some .opcodeUnknown
    ∧ (let d : Desc := { opcode := 0x01, variant := 1 }
       lowest (admission (refill 0 (refilled (headOf d))) 0 0 { desc := d }) = none) :=
  ⟨by decide, ⟨(leastRank (candidates (refilled (headOf {})))).getD (0, 0, 0), by decide, by decide⟩, by decide, by decide, by decide, by decide⟩
theorem witness_Nonces : (2 : Nat) ^ 32 - 1 < 2 ^ 32 ∧ 511 < 512 ∧ (2 : Nat) ^ 54 - 1 < 2 ^ 54
    ∧ nonceBytes (2 ^ 32 - 1) 511 (2 ^ 54 - 1) = nonceBytes (2 ^ 32 - 1) 511 (2 ^ 54 - 1) ∧ nonceBytes 1 0 0 ≠ nonceBytes 0 1 0 := by decide

/-! ### Jobs -/

/-- A waiting ENCRYPT with a key in slot 2, its engine named, on a block that holds the key and on one that does not. -/
def keyJob : Job := { desc := { opcode := 0x10, variant := 0x02, keyRef := 2 }, keyDone := false, engine := some (.lane 0) }
def keyed : Block := modSlot 2 (fun s => { s with kflags := 1, runLen := 1, alg := 1, size := 256, engineMask := 0xFF, uses := 0xFFFF, useLimit := 0xFFFFFFFF }) up
theorem witness_KeyDecision : let b := withJob up keyJob
    keyJob.started = false ∧ keyJob.stage = .waiting ∧ mayProceed b keyJob = true ∧ takesKey keyJob.desc = true ∧ usesOwnSk keyJob = false
    ∧ attrReady keyJob = true ∧ keyJob.keyDone = false ∧ keyJob.desc.op ≠ 0x30 ∧ keyJob.engine.isSome = true
    ∧ usesOwnSk { keyJob with desc := { opcode := 0x10, variant := 0x02, keyRef := 0x00100000 } } = true ∧ b.boot.entropyPaused = false ∧ { keyJob with engine := none }.engine = none
    ∧ keyJob.attrDone = true ∧ blobsReady b keyJob = true ∧ sealDecides b keyJob = false ∧ decision b keyJob false ≠ []
    ∧ decision (withJob keyed keyJob) keyJob false = [] ∧ sealDecides { b with boot := { b.boot with sealClear := false } } keyJob = true
    ∧ attrAddr { opcode := 0x33, aux := 0x2000 } = some 0x2000 ∧ (keyCopy keyed keyJob false).map KeyCopy.shares = [[zeros 32]] := by decide +kernel
/-- A job whose key is a blob at 0x3000, not yet asked for. -/
def blobJob : Job := { keyJob with blobs := [{ addr := 0x3000, phase := 0 }] }
theorem witness_Blob : let x : BlobRead := { addr := 0x3000, phase := 0 }
    mayProceed (withJob up blobJob) blobJob = true ∧ sealDecides (withJob up blobJob) blobJob = false ∧ blobJob.blobs = [x] ∧ x.bat = none
    ∧ ({ want := 0 } : Buf).full = true ∧ freeUnit up = some 0 := by decide
/-- A block whose barn key is known to be bad, so that nothing draws it again. -/
def tended : Block := modTack (fun t => { t with sys := t.sys.set 0 { content := [1], bad := true } }) up
/-- A block whose stall-key slot 0 is VALID with a tag that cannot be right, and a blob header under it. -/
def badTag : Block := modSk 0 (fun k => { k with state := 1, tag := [] }) tended
def blobHeader : Bytes := [0x4D, 0x42, 0x4C, 0x42, 1, 0, 0, 0] ++ zeros 8 ++ [1, 0, 128, 0, 0, 0, 0, 0, 0, 0, 0, 0, 0, 0, 16, 0] ++ zeros 32
/-- The blob read, its material and one unit taken for it. -/
def blobRead : BlobRead := { addr := 0x3000, phase := 3, head := { want := 64, parts := [(0, blobHeader)] }, rest := { want := 32, parts := [(0, zeros 32)] } }
theorem witness_BlobBadTag : checkSys 0 badTag = badTag ∧ blobRead.rest.full = true ∧ blobRead.rest.err = false ∧ field blobRead.head.bytes 6 2 = 0
    ∧ blobHeadOk badTag blobRead.head.bytes = true ∧ blobStallOk badTag 0 false 0 = true ∧ (badTag.sk 0).state = 1 ∧ anyHold badTag = false
    ∧ skTagOk badTag 0 = false := by
  refine ⟨rfl, by decide +kernel, by decide, by decide +kernel, by decide +kernel, by decide, by decide, by decide, ?_⟩
  have hl : (slotTag badTag 1 0 (skRecord (badTag.sk 0))).length = 8 := by simp [slotTag, kmac256, fit, zeros]
  have h0 : (badTag.sk 0 == ({} : StallKey)) = false := by decide
  have h1 : (badTag.sk 0).tag = [] := by decide
  have h2 : (barnKey badTag == []) = false := by decide
  unfold skTagOk
  rw [h0, h1, h2, Bool.false_or, Bool.false_or, beq_eq_false_iff_ne]
  intro h
  rw [← h] at hl
  simp at hl
/-- A header that is no blob's; and a splice of stall 0 whose grant for stall 5's blobs has been cleared. -/
theorem witness_BlobFails : useBlobKey blobJob { phase := 3 } tended = tended ∧ blobNamesKey tended 0 false [] = false
    ∧ (grantGone tended blobJob {} 0 && blobHeadOk tended []) = false := ⟨rfl, by decide, by decide⟩
def fromFive : Bytes := blobHeader.take 6 ++ [5, 0] ++ blobHeader.drop 8
theorem witness_BlobUngranted : let j : Job := { blobJob with desc := { opcode := 0x18 }, grant := 0x8005 }
    let x : BlobRead := { blobRead with head := { want := 64, parts := [(0, fromFive)] } }
    useBlobKey j x tended = tended ∧ field x.head.bytes 6 2 = 5 ∧ blobHeadOk tended x.head.bytes = true ∧ grantGone tended j x 5 = true
    ∧ grantGone (modStall 0 (fun q => { q with spliceSource := 0x8005 }) tended) j x 5 = false := by
  refine ⟨?_, by decide +kernel, by decide +kernel, by decide, by decide⟩
  have h : (blobHeadOk tended fromFive && blobStallOk tended 0 true (field fromFive 6 2)) = false := by decide +kernel
  have e : Buf.bytes { want := 64, parts := [(0, fromFive)] } = fromFive := by decide +kernel
  show when (blobHeadOk tended (Buf.bytes { want := 64, parts := [(0, fromFive)] })
    && blobStallOk tended 0 true (field (Buf.bytes { want := 64, parts := [(0, fromFive)] }) 6 2))
    (checkSk (field (Buf.bytes { want := 64, parts := [(0, fromFive)] }) 6 2)) tended = tended
  rw [e, h]
  rfl
/-- A stall-key slot whose tag is right, so that its blobs are taken; whether one opens is Config's. -/
def skGood : Block := skRetag 0 (modSk 0 (fun k => { k with state := 1 }) tended)
theorem skGood_tag : skTagOk skGood 0 = true := by
  have t : (skGood.sk 0).tag = slotTag skGood 1 0 (skRecord (skGood.sk 0)) := rfl
  unfold skTagOk
  rw [← t]
  exact Bool.or_eq_true_iff.2 (.inr (beq_self_eq_true _))
theorem witness_BlobUses (j : Job) (x : BlobRead) (h : field x.head.bytes 6 2 = 0) : useBlobKey j x skGood = skGood := by
  have c : checkSys 0 skGood = skGood := rfl
  have k : checkSk 0 skGood = skGood := by simp [checkSk, skGood_tag, when]
  unfold useBlobKey useNamedKey
  simp only [c, h, when, k, ite_self]
theorem skGood_names : blobNamesKey skGood 0 false blobHeader = true := by
  have u : skUsable skGood 0 = true := Bool.and_eq_true_iff.2 ⟨by decide, skGood_tag⟩
  have r : (blobHeadOk skGood blobHeader && blobStallOk skGood 0 false (field blobHeader 6 2) && (slice blobHeader 8 8 == fit 8 (skGood.sk (field blobHeader 6 2)).fp)) = true := by
    decide +kernel
  have m : field blobHeader 6 2 = 0 := by decide +kernel
  simp only [Bool.and_eq_true] at r
  simp only [blobNamesKey, m, Bool.and_eq_true] at r ⊢
  exact ⟨⟨r.1, u⟩, r.2⟩
theorem witness_BlobOpens (mat : Bytes)
    (h : Config.sivOpen (zeros 32) (slice blobHeader 32 12) (blobHeader.take 64) ((zeros 32).take (blobPad blobHeader + 16)) = some mat) :
    blobOpen skGood 0 false blobHeader (zeros 32) = some (fit (blobMatLen blobHeader) mat) := by
  have k : fit 32 (skGood.sk (field blobHeader 6 2)).material = zeros 32 := by decide +kernel
  unfold blobOpen
  simp only [skGood_names, k, h, if_pos, Option.map_some]
/-- A retry that has its new lane and repeats the decision, with its key and without it. -/
def againJob : Job := { keyJob with started := true, stage := .retry, faultLane := some 1 }
theorem witness_KeyDecision_again : againJob.started = true ∧ againJob.keyDone = false ∧ resumable againJob = true
    ∧ lowest (decision (withJob keyed againJob) againJob true) = none ∧ (lowest (decision (withJob up againJob) againJob true)).isSome = true
    ∧ sealDecides (withJob keyed againJob) againJob = false
    ∧ sealDecides (withJob { up with boot := { up.boot with sealClear := false } } againJob) againJob = true := by decide +kernel
/-- A KEY_UNWRAP of a blob under its stall's key, with room for its material and without. -/
def unwrapJob : Job := { keyJob with desc := { opcode := 0x30, keyRef := 0x00100000, srcLen := 112 }, engine := some (.unwrap 0) }
theorem witness_KeyDecision_unwrap : let b := withJob skGood unwrapJob
    mayProceed b unwrapJob = true ∧ takesKey unwrapJob.desc = true ∧ unwrapJob.found = [] ∧ unwrapJob.target = []
    ∧ (takeSlots (some 0) 1 true none b).any (fun x => x.1 != []) = true ∧ roomFor b (some 0) 1 true = true
    ∧ roomFor b (some 0) 8193 true = false ∧ anyHold { b with holds := b.holds.set 5 (some 1) } = true
    ∧ (takeSlots (some 0) 8193 true none b).isNone = true := by decide +kernel
theorem witness_KeyDecision_unwrap_passes : decision (withJob skGood unwrapJob) unwrapJob false = [] := by
  have t : skTagOk (withJob skGood unwrapJob) 0 = true := skGood_tag
  have s : sealDecides (withJob skGood unwrapJob) unwrapJob = false := by decide
  have x : blobIndexBad (withJob skGood unwrapJob) unwrapJob = false := by decide
  have k : keyConds (withJob skGood unwrapJob) unwrapJob false false = skConds (withJob skGood unwrapJob) unwrapJob false 0 := rfl
  have z : ((withJob skGood unwrapJob).sk 0).state = 1 := rfl
  have u : (0 != unwrapJob.stall.val || !usesOk unwrapJob.desc false (uDerive ||| uWrap) || !fitsJob (withJob skGood unwrapJob) unwrapJob.desc false 0x05 256) = false := by decide
  have e : (engineBit unwrapJob.desc.op != 3) = false := by decide
  simp only [decision, s, x, k, skConds, t, z, u, e]
  decide
theorem witness_KeyDecision_own : usesOwnSk unwrapJob = true ∧ useSk 0 (withJob skGood unwrapJob) = withJob skGood unwrapJob := by
  have t : skTagOk (withJob skGood unwrapJob) 0 = true := skGood_tag
  have c : checkSys 0 (withJob skGood unwrapJob) = withJob skGood unwrapJob := rfl
  exact ⟨by decide, by simp [useSk, c, checkSk, t, when]⟩
/-- A splice whose first blob is open, the second comes through entry 3 of the table. -/
def batEntry (stall : Nat) : Buf := { want := 16, parts := [(0, toLe 8 0x5000 ++ toLe 4 112 ++ toLe 2 (2 ^ 15 + stall) ++ zeros 2)] }
def tableRead : BlobRead := { phase := 1, second := true, bat := some 3, head := batEntry 0 }
def twoBlobs : Job := { blobJob with desc := { opcode := 0x18 }, blobs := [{ phase := 4 }, tableRead] }
theorem witness_Blob_table : firstBlob twoBlobs = some 1 ∧ twoBlobs.blobs.getD 1 {} = tableRead ∧ tableRead.head.full = true
    ∧ (let h := tableRead.head.bytes; field h 12 2 / 2 ^ 15 = 1 ∧ field h 0 8 % 16 = 0 ∧ blobStallOk tended 0 false (field h 12 2 % 512) = true)
    ∧ blobStallOk tended 0 false (field (batEntry 5).bytes 12 2 % 512) = false
    ∧ 2 ^ tended.tack.batK ≤ 2 ^ tended.tack.batK ∧ 0 < 2 ^ tended.tack.batK
    ∧ ({ tableRead with head := { want := 16, err := true } } : BlobRead).head.err = true
    ∧ matLenOk tended blobHeader none = true ∧ matLenOk tended blobHeader (some 0) = false
    ∧ ({ blobRead with rest := { want := 32, err := true } } : BlobRead).rest.err = true := by decide +kernel
/-- What a job that has gone left on unit 1. -/
def leftOn : LeftBlob := { job := 7, blob := { blobRead with phase := 5, unit := some 1, room := [4] } }
def leftBlock : Block := { skGood with unwrapLeft := skGood.unwrapLeft.set 1 (some leftOn) }
theorem witness_Blob_left : leftBlock.unwrapLeft.get 1 = some leftOn ∧ leftBlock.unwrapLeft.get 0 = none ∧ anyHold leftBlock = false
    ∧ noEntropy leftBlock = false ∧ (∀ u, u < 2 → ∀ l, leftBlock.unwrapLeft.get u = some l → l.job ≠ 0) := by
  refine ⟨by decide, by decide, by decide, by decide, fun u hu l h => ?_⟩
  have e : u = 0 ∨ u = 1 := by omega
  rcases e with rfl | rfl
  · cases h
  · have : l = leftOn := (Option.some.inj h).symm
    subst this; decide
/-- The blob's unit and the slots its copy would take. -/
theorem witness_BlobRoom : anyHold skGood = false ∧ noEntropy skGood = false ∧ freeUnit skGood = some 0
    ∧ (takeSlots (some 0) (ceilDiv (blobMatLen blobHeader) 64) false none (unwrapCharge 0 blobJob 600 skGood)).isSome = true
    ∧ noEntropy { skGood with boot := { skGood.boot with entropyPaused := true } } = true ∧ xtsHalvesEqual 2 (zeros 64) = true := by decide +kernel
/-- A blob that has been read waits for a unit, and is the one served next. -/
def dueJob : Job := { blobJob with engine := none, blobs := [blobRead] }
theorem witness_BlobChosen : unwrapChoice (withJob skGood dueJob) = some (0, dueJob) := by
  have hit : blobHit (withJob skGood dueJob) dueJob blobRead = none := by
    have e : (withJob skGood dueJob).tack.slots.ents = [] := rfl
    simp [blobHit, cachedCopy, e]
  have names : blobNamesKey (withJob skGood dueJob) dueJob.stall.val (dueJob.desc.op == 0x18 && !blobRead.second) blobRead.head.bytes = true := by
    have e : blobRead.head.bytes = blobHeader := by decide +kernel
    rw [e]
    exact skGood_names
  have room : (takeSlots (some (field blobRead.head.bytes 6 2)) (ceilDiv (blobMatLen blobRead.head.bytes) 64) false none (withJob skGood dueJob)).isSome = true := by
    decide +kernel
  have due : blobDue (withJob skGood dueJob) dueJob blobRead = true := by
    simp only [blobDue, hit, names, room]
    decide +kernel
  have waits : blobWaits (withJob skGood dueJob) dueJob = true := by
    have f : firstBlob dueJob = some 0 := by decide
    have g : dueJob.blobs.getD 0 {} = blobRead := rfl
    have r : (dueJob.stage == .waiting && mayProceed (withJob skGood dueJob) dueJob && !sealDecides (withJob skGood dueJob) dueJob) = true := by decide
    simp only [blobWaits, f, g, due, r, Bool.and_self]
  have q : unwrapQueue (withJob skGood dueJob) = [(0, dueJob)] := by
    have l : (withJob skGood dueJob).live = [(0, dueJob)] := rfl
    have u : (freeUnit (withJob skGood dueJob)).isNone = false := by decide
    have w : waiters (withJob skGood dueJob) .unwrap = [] := by decide
    simp only [unwrapQueue, u, l, w, List.filter, waits]
    rfl
  unfold unwrapChoice
  rw [q]
  decide +kernel
theorem witness_Table : let j : Job := { srcWalk := { done := false, next := 0x10F0, want := 32 } }
    mayProceed (withJob up j) j = true ∧ j.dstWalk.done = true ∧ j.srcWalk.done = false ∧ j.srcWalk.reading = false ∧ j.found = [] := by decide
theorem witness_Table_dst : let w : Walk := { done := false, next := 0x10F0 }
    let j : Job := { desc := { opcode := 0x31, variant := 1 }, keyDone := true, dstWalk := w, found := [.portError] }
    mayProceed (withJob up j) j = true ∧ outLenKnown j = true ∧ j.srcWalk.done = true ∧ j.dstWalk.done = false ∧ j.found ≠ []
    ∧ outLenKnown { j with keyDone := false } = false := by decide
theorem witness_Chain : let w : Walk := { done := false, want := 16 }
    w.done = false ∧ w.noSum = false ∧ w.sum = (w.frags.map Frag.len).sum := by decide
theorem witness_StateBlob : let j : Job := { restoreDone := false, desc := { opcode := 0x20 } }
    let k : Job := { j with restore := { want := 280, parts := [(0, zeros 280)] } }
    j.restore = {} ∧ mayProceed (withJob up j) j = true ∧ k.restore.full = true ∧ k.keyDone = true := by decide +kernel
/-- A prepared ENCRYPT without conditions, and the same hitched. -/
def ready1 : Job := { desc := { opcode := 0x10 }, passed4a := true }
theorem witness_Grant : servable up .cipher = [] ∧ servable (withJob up ready1) .cipher ≠ [] ∧ retryServable (withJob up ready1) = false
    ∧ (∃ g, engineFor (withJob up ready1) 0 ready1 .cipher = some g)
    ∧ firstHitched [((0 : Nat), ({ ready1 with stage := .hitched 1 } : Job))] = some (0, { ready1 with stage := .hitched 1 })
    ∧ firstRetry up = none ∧ up.boot.entropyStopped = false :=
  ⟨by decide, by decide, by decide, ⟨(engineFor (withJob up ready1) 0 ready1 .cipher).getD .entropy, by decide⟩, by decide, by decide, by decide⟩
/-- A prepared KEY_WRAP: the unwrap units' one queue serves it, and no blob waits before it. -/
def readyWrap : Job := { desc := { opcode := 0x31 }, passed4a := true }
theorem witness_Grant_unwrap : unwrapChoice up = none ∧ unwrapChoice (withJob up readyWrap) = some (0, readyWrap)
    ∧ blobWaits (withJob up readyWrap) readyWrap = false ∧ (engineFor (withJob up readyWrap) 0 readyWrap .unwrap).isSome = true
    ∧ (takeSlots (some 0) 1 false none up).isSome = true ∧ cachedCopy up 0 false (zeros 8) (zeros 32) = none := by decide +kernel
/-- An ENCRYPT of three blocks on a lane that is to leave, its first block there. -/
def onLane : Job := { jobOn 0x10 (.lane 0) with desc := { opcode := 0x10, variant := 0x02, srcLen := 48 }, src := { want := 48, parts := [(0, zeros 16)] } }
def laneBusy : Block := modLane 0 (fun l => { l with jobs := [0], leaving := true }) (withJob up onLane)
theorem witness_Hitch : firstLeaver laneBusy 0 = some (0, onLane) ∧ laneForced laneBusy 0 = true ∧ holding laneBusy 1 = false ∧ onLane.zeroFill = false
    ∧ boundary onLane 16 = true ∧ boundary onLane 15 = false ∧ seenLen onLane ≤ 16 ∧ 16 ≤ haveLen onLane ∧ onLane.restore.full = true
    ∧ chuteBehind onLane 16 = true ∧ firstLeaver laneBusy 1 = none
    ∧ (let b := modLane 0 (fun l => { l with leaving := false }) laneBusy
       firstLeaver b 0 = some (0, onLane) ∧ (laneForced b 0 || laneAsked b 0 && laneHitchable b 0) = false)
    ∧ (let z : Job := { onLane with stage := .draining, zeroFill := true }
       firstLeaver (modLane 0 (fun l => { l with jobs := [0], leaving := true }) (withJob up z)) 0 = some (0, z)) := by decide +kernel
theorem witness_Hitch_releases (out : Bytes) : mayRelease onLane out = true := Bool.or_eq_true_iff.2 (.inr (by decide))
/-- A digest lane whose island has gone out of service: a SHA-256 job at its second block, and a SHAKE between two blocks of its output. -/
def digestBusy (j : Job) : Block := modIsland 0 (fun x => { x with inService := false }) { withJob up j with digestJobs := ({ dflt := none } : Tab (Option Nat)).set 0 (some 0) }
def absorbing : Job :=
  { jobOn 0x20 (.digest 0) with desc := { opcode := 0x20, variant := 0x01, srcLen := 192 }, src := { want := 192, parts := [(0, zeros 64)] } }
def squeezing : Job := { jobOn 0x25 (.digest 0) with desc := { opcode := 0x25, variant := 0x21, aadLen := 400 } }
theorem witness_Hitch_digest : digestAsked (digestBusy absorbing) 0 = true ∧ canLeave (digestBusy absorbing) 0 absorbing = true ∧ boundary absorbing 64 = true
    ∧ chuteBehind absorbing 64 = true ∧ absorbing.seen.length ≤ 64 ∧ 64 ≤ (haveSrc absorbing).length ∧ digestLeavesAt (digestBusy absorbing) absorbing 63 = false
    ∧ digestAsked (digestBusy squeezing) 0 = true ∧ canLeave (digestBusy squeezing) 0 squeezing = true
    ∧ digestLeavesAt (digestBusy squeezing) squeezing 168 = true ∧ digestAsked { digestBusy absorbing with islands := up.islands } 0 = false := by decide +kernel
theorem witness_Prepared : prepared ready1 = true ∧ ready1.stage = .waiting ∧ ready1.found = [] ∧ inChute ready1.desc = none
    ∧ mayProceed (withJob up ready1) { ready1 with engine := some (.lane 0) } = true ∧ lowest [.keyNotFound] = some .keyNotFound
    ∧ (let j : Job := { ready1 with engine := some (.lane 0) }
       engineHeld (withJob up j) j = false ∧ chargeable (withJob up j) j = true ∧ cacheMiss (withJob up j) j = false)
    ∧ (let j : Job := { desc := { opcode := 0x21, variant := 1 }, passed4a := true, engine := some (.digest 0), keys := [{ slot := some 2 }] }
       let b := withJob keyed j
       cacheMiss b j = true ∧ mayStart b j = true ∧ HasEntropy b) := by decide +kernel
theorem witness_Finish : (withJob up (jobOn 0x10 (.lane 0))).job 0 = some (jobOn 0x10 (.lane 0)) ∧ outChute (jobOn 0x10 (.lane 0)).desc = none := by decide
theorem witness_Finish_lanes (l : Nat) : (up.lane l).jobs.Nodup ∧ (up.lane l).leaving = false := ⟨List.nodup_nil, rfl⟩
theorem witness_Prepared_held : let j : Job := { ready1 with engine := some (.lane 0) }
    holding (withJob { up with holds := up.holds.set 0 (some 1) } j) 0 = true ∧ holding up 0 = false ∧ engineHeld { withJob up j with holds := up.holds.set 1 (some 1) } j = true := by decide
theorem witness_Finish_kept : ¬ ({ jobOn 0x10 (.lane 0) with outRest := [1] } : Job).outRest = [] ∧ (jobOn 0x10 (.lane 0)).outRest = []
    ∧ waitingWrites (withJob up (jobOn 0x10 (.lane 0))) 0 = [] ∧ engineHeld (withJob up (jobOn 0x10 (.lane 0))) (jobOn 0x10 (.lane 0)) = false := by decide
/-- Every opcode that works on an engine works on the state of the helper, as chute and input handling leave it. -/
theorem witness_Works : ∀ p ∈ ([(0x10, .lane 0), (0x11, .lane 7), (0x12, .lane 1), (0x13, .lane 2), (0x14, .lane 3), (0x15, .lane 4), (0x18, .lane 0)
      , (0x20, .digest 0), (0x21, .digest 15), (0x22, .digest 1), (0x23, .digest 2), (0x24, .digest 3), (0x25, .digest 4)] : List (Nat × Engine)),
    let j := jobOn p.1 p.2
    feedAndCheck 0 (withJob up j) = withJob up j ∧ Works (withJob up j) p.1 0 j := by decide
/-- A GCM-SIV SEAL and a splice into GCM-SIV in their second pass, and a check while the entropy island restarts. -/
theorem witness_Works_again : (∀ p ∈ ([(0x12, 0x06), (0x18, 0x65)] : List (Nat × Nat)),
      let j := { jobOn p.1 (.lane 0) with desc := { opcode := BitVec.ofNat 8 p.1, variant := BitVec.ofNat 8 p.2, srcLen := 16 }, src := { want := 16, parts := [(0, zeros 16)] } }
      let k := { j with pass2 := true, again := { want := 16, parts := [(0, zeros 16)] } }
      Works (withJob up j) p.1 0 j ∧ Works (withJob up k) p.1 0 k ∧ k.again.full = true ∧ (spDst j.desc = 6 ∨ p.1 = 0x12) ∧ spliceTwo { j.desc with variant := 0x65, srcLen := 70000 } = true ∧ tapLost (withJob up k) k = false)
    ∧ (let b := withJob { up with boot := { up.boot with entropyPaused := true } } (jobOn 0x15 (.lane 0))
       feedAndCheck 0 b = b ∧ Works b 0x15 0 (jobOn 0x15 (.lane 0)) ∧ b.boot.entropyPaused = true ∧ b.boot.entropyStopped = false) := by decide +kernel
/-- A splice into GCM-SIV whose payload is too long to stage goes twice over its source. -/
theorem witness_Works_long : let x : Buf := { want := 65552, parts := (List.range 257).map fun k => (256 * k, zeros 256) }
    let j := { jobOn 0x18 (.lane 0) with desc := { opcode := 0x18, variant := 0x65, srcLen := 65552 }, src := x }
    spliceTwo j.desc = true ∧ Works (withJob up j) 0x18 0 j ∧ feedAndCheck 0 (withJob up j) = withJob up j := by decide +kernel
theorem witness_Works_keys : ∀ p ∈ ([(0x30, .unwrap 0), (0x31, .unwrap 1), (0x32, .unwrap 0), (0x33, .unwrap 0), (0x34, .entropy), (0x40, .core 0)
      , (0x41, .core 1), (0x42, .core 2), (0x43, .core 3), (0x44, .core 4), (0x45, .core 5), (0x46, .core 6), (0x48, .core 7), (0x49, .core 0)
      , (0x4A, .core 0), (0x4B, .core 0), (0x50, .core 0), (0x51, .core 0), (0x52, .core 0), (0x54, .core 0), (0x55, .core 0), (0x56, .core 0)
      , (0x58, .core 0), (0x59, .core 0), (0x5A, .core 0), (0x5B, .core 0), (0x5C, .core 0), (0x5D, .core 0)] : List (Nat × Engine)),
    Works (withJob up (jobOn p.1 p.2)) p.1 0 (jobOn p.1 p.2) ∧ HasEntropy (withJob up (jobOn p.1 p.2)) := by decide

/-! ### Key opcodes and cores: what an opaque check says is the hypothesis -/

def blk16 : Bytes := List.replicate 16 1
theorem witness_KeyOpcodes : let j := { jobOn 0x30 (.unwrap 0) with newKey := some { alg := 1, size := 256 }, target := [4] }
    Works (withJob up j) 0x30 0 j ∧ j.newKey = some { alg := 1, size := 256 } ∧ (materialLen up 1 256) = some 32
    ∧ xtsHalvesEqual 1 (zeros 32) = false ∧ xtsHalvesEqual 2 (zeros 64) = true ∧ holding up 21 = false
    ∧ Works (withJob up (jobOn 0x31 (.unwrap 0))) 0x31 0 (jobOn 0x31 (.unwrap 0)) := by decide
/-- An ECDH whose peer is the point (0, 0), and a MODMUL of reduced odd numbers. -/
def ecdhZero : Job := { jobOn 0x43 (.core 0) with desc := { opcode := 0x43, variant := 1, srcLen := 64 }, src := { want := 64, parts := [(0, zeros 64)] } }
def mulSrc : Bytes := [0x80] ++ zeros 62 ++ [1] ++ zeros 63 ++ [2] ++ zeros 63 ++ [3]
def modmulJob : Job := { jobOn 0x4B (.core 0) with desc := { opcode := 0x4B, variant := 8, srcLen := 192 }, src := { want := 192, parts := [(0, mulSrc)] } }
theorem witness_PublicKey :
    lowest (pkConds (withJob up ecdhZero) ecdhZero) = some .inputZero ∧ lowest (pkConds (withJob up modmulJob) modmulJob) = none := by decide +kernel
theorem witness_PublicKey_works : Works (withJob up ecdhZero) 0x43 0 ecdhZero ∧ Works (withJob up modmulJob) 0x4B 0 modmulJob := by decide +kernel
theorem witness_Entropy : HasEntropy up ∧ ({ up with boot := { up.boot with entropyStopped := true } } : Block).boot.entropyStopped = true
    ∧ ({ up with boot := { up.boot with entropyPaused := true } } : Block).boot.entropyPaused = true := by decide
theorem witness_Signatures : (jobOn 0x41 (.core 0)).desc.checkPass = false
    ∧ ({ opcode := 0x41, flags := 0x40 } : Desc).checkPass = true ∧ ¬ (false = true ∧ Take.agree = .agree) := by decide
/-- Material of a toy RSA key of 8-byte halves: p = 3, q = 5, d_p = 1, d_q = 3, q_inv = 2. -/
def rsaKey : Bytes := zeros 8 ++ toBe 8 3 ++ toBe 8 5 ++ toBe 8 1 ++ toBe 8 3 ++ toBe 8 2
theorem witness_Rsa : 0 < rsaPart rsaKey 16 0 ∧ 0 < rsaPart rsaKey 16 1 ∧ rsaPart rsaKey 16 1 * rsaPart rsaKey 16 4 % rsaPart rsaKey 16 0 = 1 % rsaPart rsaKey 16 0 := by decide
/-- One job of each opcode that signs or computes with a modulus, whose operands meet no edge condition: n = 0x80…01 with 2 and 3, the toy RSA
key with 2, a P-256 scalar 5. -/
def coreJob (op v : Nat) (key src : Bytes) : Job :=
  { jobOn op (.core 0) with desc := { opcode := BitVec.ofNat 8 op, variant := BitVec.ofNat 8 v, srcLen := BitVec.ofNat 40 src.length }
                            keys := [{ shares := [key] }], src := { want := src.length, parts := [(0, src)] } }
def completing : List Job := [coreJob 0x41 1 (toBe 32 5 ++ zeros 64) (zeros 32), coreJob 0x44 0x18 (zeros 64) (zeros 40), coreJob 0x48 2 rsaKey (toBe 16 2)
  , coreJob 0x49 8 [] mulSrc, coreJob 0x4A 8 [] mulSrc, coreJob 0x4B 8 [] mulSrc, coreJob 0x55 0x44 (zeros 64) (zeros 64), coreJob 0x5C 0x21 (zeros 64) (zeros 64)]
theorem witness_CoreWorks : ∀ j ∈ completing, CoreWorks (withJob up j) j.desc.op 0 j ∧ lowest (pkConds (withJob up j) j) = none
    ∧ HasEntropy (withJob up j) ∧ (withJob up j).boot.ready = true := by decide +kernel
theorem witness_CoreWorks_ops : completing.map (fun j => j.desc.op) = [0x41, 0x44, 0x48, 0x49, 0x4A, 0x4B, 0x55, 0x5C] := by decide +kernel
theorem witness_Cores : let j := { jobOn 0x40 (.core 0) with newKey := some { alg := 0x10, size := 256 }, target := [4, 5] }
    Works (withJob up j) 0x40 0 j ∧ j.newKey.isSome = true ∧ allZero (zeros 32) = true ∧ allZero blk16 = false := by decide
/-- An LMS key whose codes give trees of height 5, and a cell with one value left. -/
def lmsKey : Bytes := zeros 48 ++ (toBe 4 5 ++ toBe 4 4 ++ zeros 8) ++ [3] ++ zeros 7 ++ toLe 8 1024 ++ zeros 32
def lmsBlk : Block := { up with tack := { up.tack with cells := ({ dflt := {} } : Tab LeafCell).set 3 { value := 2048, known := true, next := 1024, stop := 2048 } } }
theorem witness_Leaves : let x := lmsBlk.tack.cells.get (lmsCell lmsKey)
    lmsCell lmsKey = 3 ∧ x.next < x.stop ∧ x.next - lmsBase lmsKey < lmsLeaves 1 (lmsCodes lmsKey) ∧ lmsLeaves 1 (lmsCodes lmsKey) ≤ 2048 - lmsBase lmsKey
    ∧ (up.tack.cells.get 0).next = (up.tack.cells.get 0).stop ∧ ({ jobOn 0x59 (.core 0) with leaf := some 1024 } : Job).again.full = true := by decide

/-- The job that reached its leaf step first is served, one behind it waits. -/
theorem witness_Leaves_order : let j := { jobOn 0x59 (.core 0) with ord := 4 }
    let b := withJob lmsBlk j
    (leafQueue (joinQueue 3 j b) 3).head? = some 4
    ∧ (let c := { b with jobs := b.jobs.set 1 (some { j with ord := 2 }), tack := { b.tack with cells := b.tack.cells.mod 3 fun x => { x with queue := [2] } } }
       (leafQueue (joinQueue 3 j c) 3).head? ≠ some 4) := by decide +kernel

/-! ### Ports, completions, interrupts -/

/-- A read of a job's source under tag 5 on dp0, and a data write under tag 6. -/
def flying (o : Owner) (w : Bool) : Block :=
  let b := withJob up { jobOn 0x10 (.lane 0) with stall := 0 }
  { b with dp0 := { out := [{ tag := 5, req := { len := 16, owner := o, write := w } }] }
           rp := { out := [{ tag := 5, req := { len := 64, owner := o, write := w } }] } }
theorem witness_ReadData : (∀ o ∈ [Owner.src 0, .discard, .desc 0 0 0], ∃ g, flightOf (flying o false) .dp0 5 = some g ∧ g.req.write = false ∧ g.req.owner = o
      ∧ (flying o false).portDrain = false) ∧ flightOf up .dp0 5 = none :=
  ⟨fun o _ => ⟨{ tag := 5, req := { len := 16, owner := o } }, rfl, rfl, rfl, rfl⟩, rfl⟩
theorem witness_ReadData_lanes (l : LaneId) : ∀ i ∈ (up.lane l.val).jobs, ∀ j, up.job i = some j → laneEmpty up i j = false := nofun
theorem witness_ReadData_owners : ∀ o ∈ [Owner.srcAgain 0, .aux 0, .exp 0, .tableAgain 0 [1], .pblk 0 0 0, .table 0 false, .table 0 true, .attr 0
      , .bat 0 false, .blobHead 0 true, .blobRest 0 false, .stateBlob 0, .sheet 3, .input 3, .moverDesc 0, .moverTable 0, .moverData 0],
    ∃ g, flightOf (flying o false) .dp0 5 = some g ∧ g.req.write = false ∧ g.req.owner = o :=
  fun o _ => ⟨{ tag := 5, req := { len := 16, owner := o } }, rfl, rfl, rfl⟩
/-- The running job of `flying`, a waiting one, one that takes a key; bytes that err and bytes that do not; a full, a short and a failed block. -/
theorem witness_ReadData_cases : (flying (.attr 0) false).job 0 = some { jobOn 0x10 (.lane 0) with stall := 0 }
    ∧ (jobOn 0x10 (.lane 0)).stage = .running ∧ (({} : Job).stage ≠ .running) ∧ takesKey (jobOn 0x10 (.lane 0)).desc = true
    ∧ takesKey ({ opcode := 0x40 } : Desc) = false ∧ holding up 19 = false ∧ ({ want := 280 } : Buf).full = false
    ∧ tapLost (flying (.stateBlob 0) false) (jobOn 0x10 (.lane 0)) = false
    ∧ ({ want := 0 } : Buf).err = false ∧ ({ want := 0 } : Buf).full = true ∧ ({ want := 1 } : Buf).full = false ∧ ({ want := 1, err := true } : Buf).err = true
    ∧ (zeros 16 ≠ [1]) := by decide
theorem witness_WriteResponse : ∀ o ∈ [Owner.data 0, .irq 0, .completion 0 0], ∃ g, flightOf (flying o true) .rp 5 = some g ∧ g.req.write = true ∧ g.req.owner = o :=
  fun o _ => ⟨{ tag := 5, req := { len := 64, owner := o, write := true } }, rfl, rfl, rfl⟩
theorem witness_WriteResponse_owners : ∀ o ∈ [Owner.zero 0, .tapSave 0, .image 3, .payload 3, .header 3, .moverData 0, .moverStatus 0],
    ∃ g, flightOf (flying o true) .rp 5 = some g ∧ g.req.write = true ∧ g.req.owner = o :=
  fun o _ => ⟨{ tag := 5, req := { len := 64, owner := o, write := true } }, rfl, rfl, rfl⟩
theorem witness_Completion : (1 : Nat) < 2 ∧ ({ nonce := zeros 12 } : Job).nonce.length = 12 ∧ ({ } : RunResult).bytesWritten < 2 ^ 48
    ∧ ({} : RunResult).status = .done ∧ (.authFailed : Status) ≠ .done := by decide
theorem witness_Ack : let j := { jobOn 0x10 (.lane 0) with stage := .issued }
    (jobsOf (withJob up j) 0).find? (fun e => e.2.stage == .issued && e.2.cqIndex == 0) = some (0, j) ∧ (up.stall 0).cqAcked = [] ∧ (0 : Idx) = (up.stall 0).cqProd
    ∧ (1 : Idx) ≠ (up.stall 0).cqProd ∧ (up.stall 0).cqProd ∉ (up.stall 0).cqAcked ∧ (up.stall 0).cqRetry = []
    ∧ (let q := (modStall 0 (fun s => { s with cqRetry := [(0, zeros 64, 7)] }) up).stall 0
       q.cqRetry = [(0, zeros 64, 7)] ∧ q.cqAgain = none)
    ∧ ((modStall 0 (fun s => { s with cqAgain := some 0 }) up).stall 0).cqAgain = some 0 := by decide
/-- An acknowledgement that meets a hold of the yard. -/
theorem witness_Ack_held : let b := { up with
      holds := up.holds.set 0 (some 1)
      rp := { out := [{ tag := 5, req := { len := 64, owner := .completion 0 0, write := true } }] } }
    b.boot.ready = true ∧ holding b 0 = true ∧ b.rpFifo = []
    ∧ flightOf b .rp 5 = some { tag := 5, req := { len := 64, owner := .completion 0 0, write := true } }
    ∧ (modStall 0 (fun q => { q with state := .quiescing, inFlight := 1 }) up).stall 0 = { up.stall 0 with state := .quiescing, inFlight := 1 } := by decide
/-- A knot that asks for HALT_ON_ERROR and has failed. -/
theorem witness_Irq_knot : let j : Job := { desc := { opcode := 1, flags := 0x90 }, result := { status := .ropeLinkInvalid } }
    j.desc.haltOnError = true ∧ j.result.status.isResult = false ∧ j.desc.isKnot = true ∧ (up.ring 0 0).halted = false
    ∧ ({} : Job).desc.haltOnError = false := by decide
theorem witness_Irq : let b := modStall 0 (fun s => { s with irqCtrl := 1, irqCount := 2 }) up
    let q := b.stall 0
    let j : Job := { desc := { flags := 0x10 } }
    (j.desc.irq && q.irqCtrl.getLsbD 0) = true ∧ ¬ (q.irqCount ≤ q.irqPending + 1 ∨ (q.irqCtrl.getLsbD 1 = true ∧ j.ring = 0))
    ∧ (({} : Job).desc.irq && q.irqCtrl.getLsbD 0) = false ∧ q.irqPending = 0
    ∧ ((modStall 0 (fun s => { s with irqPending := 1, irqSince := some 0 }) b).stall 0).irqSince = some 0 := by decide
theorem witness_JobsEnd : let n : Job := {}
    let k : Job := { desc := { opcode := 1 } }
    let d : Job := { jobOn 0x10 (.lane 0) with stage := .draining }
    mayProceed (withJob up n) n = true ∧ mayProceed (withJob up k) k = true ∧ dataWrites (withJob up d) 0 = 0 ∧ d.outRest = [] ∧ opClass d.desc.op = some .cipher
    ∧ n.stage ≠ .draining := by decide
theorem witness_JobsEnd_held : let d : Job := { jobOn 0x10 (.lane 0) with stage := .draining }
    d.errDue = none ∧ engineHeld (withJob up d) d = false ∧ { d with errDue := some .portError }.errDue ≠ none
    ∧ engineHeld { withJob up d with holds := up.holds.set 1 (some 1) } d = true := by decide

/-! ### Mailboxes and commands -/

theorem witness_Mailbox : (windowsOpen up && true) = true ∧ (windowsOpen up && false) = false ∧ (windowsOpen State.reset.blk && true) = false
    ∧ boundOut (up.pair 0) manager = false ∧ (up.pair 0).inFull = false ∧ boundOut { bind := 0x80000001 } manager = true := by decide
theorem witness_Mailbox_credits : mpCredits up .a ≠ 0 ∧ mpCredits up .b ≠ 0 ∧ holding up 22 = false ∧ mpCredits { up with mpaCredits := 0 } .a = 0
    ∧ holding { up with holds := up.holds.set 22 (some 1) } 22 = true ∧ (fzField 0x8020 0).isSome = true
    ∧ (∃ v, (Instr.ltArmSet 0 manager) = .ltArmSet v manager) := by
  refine ⟨by decide, by decide, by decide, by decide, by decide, by decide, 0, rfl⟩
theorem witness_Notices : let b := modPair 0 (fun m => { m with inFull := true, inPtr := 0x40 }) up
    (b.pair 0).inFull = true ∧ (pairCmds b 0).length + (b.pair 0).queue.length < 4 ∧ (b.pair 0).inPtr.toNat % 64 = 0 ∧ (0x41 : Addr).toNat % 64 ≠ 0
    ∧ ((modPair 0 (fun m => { m with queue := [(0, 0, 0, 0)] }) up).pair 0).queue = [(0, 0, 0, 0)] ∧ (up.pair 0).outFull = false ∧ (up.pair 0).stale = false
    ∧ b.ym.gated = false := by decide
theorem witness_Ended : (withCmd up (cmdOf 0x0603 [] 5 0)).cmd 3 = some (cmdOf 0x0603 [] 5 0) ∧ (cmdOf 0x0603 [] 5 0).aborted = false := by decide
theorem witness_Ended_gate : let c := cmdOf 0x0404 (zeros 8) 3 2
    let b := modGate (fun g => { g with undated := true, session := some (manager, 1, 50) }) (withCmd up c)
    b.cmd 3 = some c ∧ c.op = 0x0404 ∧ b.ym.gate.undated = true ∧ c.silent = false ∧ (b.pair c.pair.val).stale = false := by decide
theorem witness_Refused : let c := { cmdOf 0x0101 (zeros 8) 2 0 with sender := guest }
    (withCmd up c).cmd 3 = some c ∧ mayRun (withCmd up c) 3 c = true ∧ c.sender.priv = false
    ∧ mayRun { up with ym := { up.ym with cmds := [(2, cmdOf 0x0101 (zeros 8) 3 0), (3, c)] } } 3 c = false
    ∧ rightFails (withCmd up c) manager .manager = none ∧ 16 + 2 ≤ c.resLen
    ∧ (let d := { c with waitSince := some 4 }
       (withCmd up d).cmd 3 = some d ∧ (withCmd up d).boot.vfz = false ∧ (withCmd up { d with phase := 3 }).cmd 3 = some { d with phase := 3 })
    ∧ anyHold { up with holds := up.holds.set 5 (some 1) } = true := by decide
/-- A QUIESCED stall 4 with five rings of its own. -/
def quiet : Block := modStall 4 (fun s => { s with
  state := .quiesced, cqBase := 0x50000
  rings := [0, 1, 2, 3].foldl (fun t r => t.mod r fun g => { g with base := BitVec.ofNat 64 (0x10000 * (r + 1)) }) s.rings }) up
theorem witness_StallCommands :
    runs up 0x0101 (toLe 2 4) createChecks = true ∧ runs up 0x0101 [0xFF, 0xFF] createChecks = true ∧ lowestFree up = some 1
    ∧ runs quiet 0x0102 (toLe 4 4 ++ toLe 4 9) bindChecks = true ∧ bindFails (quiet.stall 4) = none ∧ bindFails (up.stall 0) = some 1
    ∧ runs up 0x0103 (toLe 3 0) quiesceChecks = true ∧ (up.stall 0).inFlight = 0
    ∧ runs (modStall 0 (fun s => { s with inFlight := 1 }) up) 0x0103 (toLe 2 0 ++ [1]) quiesceChecks = true
    ∧ runs (modStall 4 (fun s => { s with state := .bound }) quiet) 0x0104 (toLe 2 4) resumeChecks = true
    ∧ runs quiet 0x0105 (toLe 2 4) (quiescedChecks false) = true ∧ runs quiet 0x0106 (toLe 2 4) (quiescedChecks true) = true
    ∧ goes quiet 0x0103 (toLe 2 4 ++ [1]) 1 = true := by decide +kernel

/-- The parameters of an AES-256 key for stall 0, its material 64 bytes in, and a block in FIELD with a gate session. -/
def newPar : Bytes := toLe 2 0xFFFF ++ toLe 2 0 ++ zeros 16 ++ toLe 2 1 ++ toLe 2 256 ++ [1, 0] ++ [3, 0] ++ toLe 4 0xFFFFFFFF ++ zeros 20
def field2 : Block :=
  { up with sensed := { lc := 3, roots := [some blk16, some blk16, none, some blk16], serial := some blk16, packKeyHash := some (zeros 32) }
            ym := { gate := { known := true, session := some (manager, 0x1F, 100) } }, pack := { ready := true }
            tack := { up.tack with counterKnown := true } }
theorem witness_KeyCommands :
    runs up 0x0201 (newPar ++ toLe 2 32 ++ zeros 10 ++ blk16 ++ blk16) (newChecks true) = true ∧ runs up 0x0203 newPar (newChecks false) = true
    ∧ materialOk up 1 256 (blk16 ++ blk16) = true ∧ (takeSlots (some 0) 1 true none up).isSome = true
    ∧ runs field2 0x0202 (zeros 16 ++ toLe 4 1504 ++ zeros 12) updChecks = true ∧ field2.lc = 2 ∧ up.lc ≠ 2
    ∧ runs (modSk 9 (fun k => { k with state := 1 }) field2) 0x0205 (toLe 4 0x00100009 ++ zeros 12) destroyChecks = true
    ∧ runs field2 0x0204 (toLe 4 0x00200003 ++ [8] ++ zeros 35) attestChecks = true ∧ attestSubject field2 0x00200003 = some .identity
    ∧ noEntropy up = false ∧ noEntropy { up with boot := { up.boot with entropyPaused := true } } = true
    ∧ goes field2 0x0206 ([0, 1] ++ zeros 14) 3 = true ∧ goes field2 0x0202 ([1] ++ zeros 31) 1 = true
    ∧ (let c := cmdOf 0x0203 newPar 2 0
       newWaits up c = false ∧ newWaits { up with boot := { up.boot with entropyPaused := true } } c = true)
    ∧ anyHold { field2 with holds := field2.holds.set 5 (some 1) } = true := by decide +kernel
/-- A part in FIELD whose image key is held under a tag that is right. -/
def imaged : Block := setSys 1 blk16 (modTack (fun t => { t with sys := t.sys.set 0 { content := [1], bad := true } }) field2)
theorem witness_KeyCommands_image : useSys 1 imaged = imaged ∧ imaged.lc = 2 ∧ barnHeld imaged = true ∧ imageKey imaged ≠ []
    ∧ (imaged.tack.sys.get 1).bad = false := by
  refine ⟨?_, by decide, by decide, by decide, by decide⟩
  have z : checkSys 0 imaged = imaged := rfl
  have t : sysTagOk imaged 1 = true := Bool.or_eq_true_iff.2 (.inr (beq_self_eq_true _))
  unfold useSys
  rw [z]
  simp [checkSys, t]
/-- A change under a barn key that nothing judges again, and one under a barn key whose tag is right. -/
theorem witness_StallKeys : (tended.tack.sys.get 0).bad = true ∧ sysTagOk imaged 1 = true ∧ (cmdOf 0x0206 ([0, 1] ++ zeros 174) 3 3).op = 0x0206
    ∧ (cmdOf 0x0206 ([0, 1] ++ zeros 174) 3 3).par 1 1 = 1 ∧ (cmdOf 0x0205 (toLe 4 0x00100009 ++ zeros 12) 3 3).op = 0x0205 :=
  ⟨by decide, Bool.or_eq_true_iff.2 (.inr (beq_self_eq_true _)), by decide +kernel, by decide +kernel, by decide +kernel⟩

/-! ### Curves, packs, life cycle, gate -/

/-- A pack of version 7 that asks for its floor. -/
def pack7 : Bytes := zeros 8 ++ toLe 4 7 ++ zeros 10 ++ [1] ++ zeros 400
def curve4 : Block := modCurve 4 (fun _ => { state := 1 }) field2
theorem witness_CurvesAndPacks :
    runs field2 0x0301 ([4] ++ zeros 7 ++ toLe 8 0x2000) curveChecksOf = true ∧ freeCore field2 = some 0
    ∧ goes field2 0x0301 ([4] ++ zeros 7 ++ toLe 8 0x2000) 1 = true ∧ goes field2 0x0301 ([4] ++ zeros 7 ++ toLe 8 0x2000) 2 = true
    ∧ ((modCore 0 (fun x => { x with state := 3 }) field2).cores.get 0).state = 3 ∧ (field2.cores.get 0).state ≠ 3 ∧ holding field2 11 = false
    ∧ holding { field2 with holds := field2.holds.set 11 (some 1) } 11 = true
    ∧ ((List.range 32).any fun k => (field2.curves.get k).state != 0) = false
    ∧ runs curve4 0x0302 [4] unloadChecks = true ∧ slotInUse curve4 4 = false ∧ goes curve4 0x0302 [4] 1 = true
    ∧ slotInUse (withJob curve4 { jobOn 0x43 (.core 0) with desc := { opcode := 0x43, variant := 0x24 } }) 4 = true
    ∧ runs field2 0x0303 (zeros 8 ++ toLe 8 0x2000 ++ toLe 4 1024) packChecks = true ∧ field2.lc ≠ 4 ∧ field2.sensed.packKeyHash ≠ none
    ∧ up.sensed.packKeyHash = none ∧ packLen (cmdOf 0x0303 (zeros 16 ++ toLe 4 1024) 2 0) ≠ 0
    ∧ seedCore field2 = some 0 ∧ seedCore (modCore 2 (fun x => { x with state := 2 }) field2) = none
    ∧ (∀ k ∈ [2, 3, 4, 5, 6], goes field2 0x0303 (zeros 16 ++ toLe 4 1024) k = true) ∧ packVer pack7 = 7 ∧ field pack7 22 1 = 1 ∧ packVer (zeros 64) < 1 := by decide +kernel
/-- A part in MAKER with `vfz` there and its serial number burnt, and one in BLANK. -/
def maker : Block := { up with boot := { up.boot with vfz := true }, sensed := { lc := 1, serial := some blk16 } }
def blank : Block := { up with boot := { up.boot with vfz := true } }
theorem witness_LifeCycle : burnReady blank = true ∧ runs blank 0x0401 [1] lifecycleChecks = true ∧ transitionLacks blank 1 = none
    ∧ blank.boot.warmDue = false ∧ runs maker 0x0401 [2] lifecycleChecks = true ∧ transitionLacks maker 2 = some 1
    ∧ runs maker 0x0402 [] (forgeChecks (on maker)) = true ∧ burnReady maker = true ∧ maker.boot.entropyPaused = false
    ∧ maker.boot.scanUsed = false := by decide +kernel
/-- A part in FIELD without a session, at the gate; one locked out. -/
def gated : Block := modGate (fun g => { g with session := none }) field2
def locked : Block := modGate (fun g => { g with lockoutEnd := some 50, fails := 3 }) gated
def pwPar : Bytes := toLe 4 1 ++ toLe 4 10 ++ [8] ++ zeros 7 ++ List.replicate 8 0x41 ++ zeros 56
def rspPar (scope : Nat) : Bytes := toLe 4 scope ++ toLe 4 10 ++ zeros 160 ++ toLe 2 1 ++ zeros 6 ++ zeros 97
theorem witness_Gate :
    runs gated 0x0405 pwPar passwordChecks = true ∧ runs gated 0x0404 (rspPar 1) respondChecks = true ∧ gated.ym.gate.known = true
    ∧ gated.lc = 2 ∧ up.lc = 0 ∧ lockedOut gated = false ∧ lockedOut locked = true ∧ otherHolds field2 guest = true ∧ otherHolds gated guest = false
    ∧ gated.boot.entropyStopped = false ∧ gated.ym.gate.reread = false ∧ gated.ym.gate.fails ≠ 255
    ∧ goes gated 0x0405 pwPar 2 = true ∧ goes gated 0x0404 (rspPar 1) 2 = true ∧ passwordFails gated (cmdOf 0x0405 pwPar 3 2) = some 5
    ∧ respondFails gated (cmdOf 0x0404 (rspPar 1) 3 2) = some 1
    ∧ goes gated 0x0404 (rspPar 16) 4 = true ∧ (scopeOf (cmdOf 0x0404 (rspPar 16) 3 4)).getLsbD 4 = true
    ∧ (scopeOf (cmdOf 0x0405 pwPar 3 4)).getLsbD 4 = false ∧ noEntropy gated = false := by decide +kernel
/-- The right password. -/
theorem witness_Gate_right : let c := cmdOf 0x0405 pwPar 3 2
    passwordFails { gated with sensed := { gated.sensed with
      gatePwHash := some (kmac256 (serialOf gated) (slice c.params 16 (pwLen c)) 32 (ascii "gate pw")) } } c = none :=
  if_pos (Bool.and_eq_true_iff.2 ⟨rfl, beq_self_eq_true _⟩)
theorem witness_GateTerms : runs field2 0x0403 [] challengeChecks = true ∧ noEntropy field2 = false
    ∧ runs field2 0x0406 [] closeChecks = true ∧ runs gated 0x0406 [] closeChecks = true ∧ openSession gated = none
    ∧ gateRead field2 = true ∧ gateRead gated = true ∧ openSession field2 = some (manager, 0x1F, 100) ∧ sameHolder manager manager = true ∧ sameHolder manager guest = false
    ∧ holding field2 20 = false ∧ gateReading (modGate (fun g => { g with retry := true }) field2) = false
    ∧ (modGate (fun g => { g with challenge := some (zeros 32, 4) }) field2).ym.gate.challenge = some (zeros 32, 4)
    ∧ (modGate (fun g => { g with port := true }) field2).ym.gate.port = true ∧ field2.ym.gate.port = false := by decide +kernel
theorem witness_Gate_undated : let c := { cmdOf 0x0405 pwPar 4 4 with result := rcOk }
    let b := modGate (fun g => { g with undated := true }) (withCmd field2 c)
    b.cmd 3 = some c ∧ c.op = 0x0405 ∧ c.result = rcOk ∧ b.ym.gate.undated = true ∧ b.ym.gate.session ≠ none
    ∧ field2.ym.gate.undated = false ∧ field2.lc = 2 ∧ gated.ym.gate.session = none ∧ gated.ym.gate.challenge = none ∧ gated.ym.gate.lockoutEnd = none
    ∧ locked.ym.gate.lockoutEnd = some 50 := by decide +kernel

/-! ### Chutes, movers, timers -/

def full0 : Block := modChute 0 (fun h => { h with items := List.replicate 512 { data := zeros 32, ctl := 1 } }) up
/-- Outbound chute 4 with a packet of one item, and a bound inbound chute 1. -/
def chuted : Block := modChute 1 (fun h => { h with bind := 0x3000, items := [{ data := zeros 32, ctl := 0x07 }] })
  (modChute 4 (fun h => { h with items := [{ data := zeros 32, ctl := 0x3E7 }] }) up)
theorem witness_Chutes : ({ data := zeros 32, ctl := 0 } : Item).valid = false ∧ ({ data := zeros 32, ctl := 1 } : Item).valid = true
    ∧ 512 ≤ (full0.chute 0).items.length + (full0.chute 0).drained ∧ (full0.chute 0).holder = none ∧ (up.chute 0).items.length + (up.chute 0).drained < 512 ∧ (up.chute 0).flush = none
    ∧ (up.chute 0).draining = false ∧ (chuted.chute 4).items ≠ [] ∧ readable (chuted.chute 4) = true ∧ holding chuted 23 = false
    ∧ (chuted.chute 4).flush = none ∧ (chuted.chute 4).holder = none
    ∧ readable ((modChute 4 (fun h => { h with items := [{ data := zeros 32, ctl := 3 }] }) up).chute 4) = false
    ∧ manager.priv = true ∧ guest.priv = false ∧ bindKind (chuted.chute 1) = 3 ∧ (chuted.chute 1).mover = none ∧ bindKind (up.chute 1) ≠ 3
    ∧ flushPoint (up.chute 0).items = 0 ∧ flushPoint (chuted.chute 1).items ≠ 0 := by decide +kernel
theorem witness_Chutes_empty : readable (up.chute 4) = false ∧ (up.chute 4).items = [] ∧ holding { up with holds := up.holds.set 23 (some 1) } 23 = true
    ∧ (chuted.chute 4).inPacket = false ∧ 4 ≤ (4 : Nat) := by decide
/-- Channel 1, granted to a manager, in a state of its life. -/
def chan (f : Mover → Mover) : Block := modMover 1 (fun m => f { m with grant := 0x4000 }) up
def copyDesc : MDesc := { mop := 1, src := 0x1000, dst := 0x2000, len := 64, next := 0x3000 }
theorem witness_Movers :
    ownChannel 0 = true ∧ ownChannel 1 = false ∧ (((1 : BitVec 32) ||| 1).toNat / 16 % 4 ≠ 3) ∧ (1 : BitVec 32).getLsbD 1 = false
    ∧ ((chan id).mover 1).ctrl.getLsbD 0 = false ∧ grantKind ((chan id).mover 1) ≠ 0 ∧ ownPending (moverReq 1) (chan id) = 0
    ∧ (let y := (chan fun m => { m with ctrl := 0x10 ||| 1, state := 1 }).mover 1
       y.ctrl.getLsbD 0 = true ∧ y.state = 1 ∧ (y.ctrl ||| 2).toNat / 16 % 4 ≠ 3 ∧ (y.ctrl &&& 0xFFFFFFFE).toNat / 16 % 4 ≠ 3
         ∧ y.ctrl.toNat / 16 % 4 = 1 ∧ y.ctrl.toNat / 256 % 4 = 0)
    ∧ (let b := chan fun m => { m with state := 2, step := 0 }
       (b.mover 1).state = 2 ∧ (b.mover 1).step = 0 ∧ mayWalk b 1 = true ∧ (b.mover 1).pendingTrig = false)
    ∧ (let b := chan fun m => { m with state := 2, step := 3, desc := copyDesc, data := { want := 64, parts := [(0, zeros 64)] }, issued := true }
       let d := (b.mover 1).desc
       moverIn d = none ∧ moverOut d = none ∧ d.mop = 1 ∧ d.len % 64 = 0 ∧ (b.mover 1).data.full = true ∧ (b.mover 1).data.err = false
         ∧ (b.mover 1).chuteErr = none ∧ { d with mop := 2 } ≠ { d with mop := 3 } ∧ (chan id |>.mover 1).issued = false)
    ∧ (let b := chan fun m => { m with state := 2, step := 5, desc := copyDesc }
       ownPending (fun o => o == .moverData 1 || o == .moverStatus 1) b = 0 ∧ (b.mover 1).mstatus = .done ∧ copyDesc.next ≠ 0
         ∧ copyDesc.mflags.getLsbD 2 = false ∧ Status.portError ≠ .done) := by decide +kernel

/-! ### Lanes in trouble, the tack room's own work -/

def suspect0 : Block := modLane 0 (fun l => { l with suspect := true }) up
def retryJob : Job := { jobOn 0x10 (.lane 0) with stage := .retry, retried := true, faultLane := some 0, engine := none, keys := [], passed4a := true }
/-- The tag at a lane's end may fault as its blocks may; a splice's second lane may fault in the lane cycle of the first. -/
theorem witness_LaneFaults : laneBusy.job 0 = some onLane ∧ holding laneBusy 1 = false ∧ (laneBusy.lane 0).jobs = [0] ∧ onLane.faultLane = none ∧ laneBusy.boot.entropyStopped = false
    ∧ openRecoveries laneBusy 0 = [] ∧ recoveryFree laneBusy 0 onLane = true ∧ pairFault 0 keyJob = false
    ∧ pairFault 1 { desc := { opcode := 0x18 }, stage := .retry, faultLane := some 0 } = true
    ∧ faultsAt laneBusy 0 0 17 onLane = false ∧ faultsAt laneBusy 1 0 16 onLane = false
    ∧ (let b := modRing 0 0 (fun g => { g with page := { g.page with holder := some 3 } }) laneBusy
       recoveryFree b 0 onLane = false)
    ∧ (let b := { laneBusy with jobs := laneBusy.jobs.set 2 (some { keyJob with retried := true, faultLane := some 4 }) }
       openRecoveries b 0 = [4]) := by decide +kernel
theorem witness_LaneFaults_at : faultsAt laneBusy 0 0 16 onLane = true := by
  have h : mayRelease onLane (passOut onLane 16) = true := witness_Hitch_releases _
  have q : reaches onLane 16 = true := by
    have r : (decide (16 ≤ haveLen onLane) && decide (seenLen onLane ≤ 16) && (onLane.restore.full || 16 == seenLen onLane) && chuteBehind onLane 16) = true := by
      decide +kernel
    unfold reaches
    rw [r, h, Bool.or_true, Bool.and_true]
  have r : ((laneBusy.lane 0).jobs.contains 0 && (onLane.stage == .running && (boundary onLane 16 || 16 == onLane.desc.sLen))) = true := by decide +kernel
  have z : onLane.zeroFill = false := rfl
  simpa [faultsAt, q, z] using r
theorem witness_LaneRetry : firstRetry (moveAllKept up) = none ∧ firstRetry (moveAllKept (withJob up retryJob)) = some (0, retryJob)
    ∧ (engineFor (moveAllKept (withJob up retryJob)) 0 retryJob .cipher).isSome = true
    ∧ (suspect0.lane 0).suspect = true ∧ (suspect0.lane 0).jobs = [] ∧ ((modLane 0 (fun l => { l with suspect := false }) suspect0).lane 0).inService = true
    ∧ up.boot.entropyPaused = false ∧ (up.lane 0).paused = false := by decide +kernel
/-- A SELFTEST that names lane 0 is under way. -/
theorem witness_LaneRetry_testing : ((modLane 0 (fun l => { l with suspect := true, testing := true }) up).lane 0).testing = true
    ∧ (suspect0.lane 0).testing = false ∧ holding suspect0 20 = false ∧ holding suspect0 1 = false := by decide
/-- A tack room with one orphan, in slot 6. -/
def orphaned : Block := { up with tack := { up.tack with slots := ({ dflt := {} } : Tab Slot).set 6 { kflags := 1, runLen := 1, skGen := 1 } } }
theorem witness_TackRoom : holding up 19 = false ∧ anyHold up = false ∧ HasEntropy up ∧ up.tack.groomPos < 8192 ∧ barnHeld up = true
    ∧ (up.slot 0).material.length = (up.slot 0).mask.length ∧ (up.slot 0).mask.length ≤ 64 ∧ (up.sk 4).state ≠ 2
    ∧ orphans up = [] ∧ orphans orphaned = [6] ∧ (orphaned.slot 6).runLen = 1 ∧ holding up 9 = false := by decide
theorem witness_TackRoom_slots : ∀ k : Nat, up.slot k = ({} : Slot) := fun _ => rfl
/-- A custodian slot whose content has changed. -/
def swept : Block := modTack (fun t => { t with sys := t.sys.set 6 { content := [1] } }) tended
theorem witness_Sweep_stalls (k : Nat) : (tended.sk k).state = 2 ∨ skTagOk tended k = true := .inr rfl
theorem witness_Sweep : barnHeld tended = true ∧ (∀ k, k < 16 → (tended.tack.sys.get k).bad = true ∨ sysTagOk tended k = true)
    ∧ (∀ k, k < 16 → k + 512 ≠ 518 → (swept.tack.sys.get k).bad = true ∨ sysTagOk swept k = true) ∧ (swept.tack.sys.get 6).bad = false
    ∧ (swept.tack.sys.get 6).content ≠ [] ∧ (∀ k, k < 16 → k + 512 ≠ 512 → (field2.tack.sys.get k).bad = true ∨ sysTagOk field2 k = true)
    ∧ (field2.tack.sys.get 0).bad = false ∧ (field2.tack.sys.get 0).content ≠ [] := by decide +kernel
theorem witness_Sweep_again : ∃ x, sysOf field2 0 = some x := ⟨(sysOf field2 0).getD [], rfl⟩
/-- A state key that was BAD because nothing could be drawn; and a barn key whose tag fails, over stall keys whose tags are right once it is derived again. -/
def stateBad : Block := modTack (fun t => { t with sys := (t.sys.set 0 { content := [1], bad := true }).set 2 { content := [1], bad := true } }) field2
theorem witness_Sweep_state : (stateBad.tack.sys.get 2).bad = true ∧ noEntropy stateBad = false ∧ (∃ x, sysOf stateBad 2 = some x)
    ∧ (∀ k, k < 16 → (stateBad.tack.sys.get k).bad = true ∨ sysTagOk stateBad k = true) ∧ (tended.tack.sys.get 2).bad = false :=
  ⟨by decide, by decide, ⟨(sysOf stateBad 2).getD [], rfl⟩, by decide +kernel, by decide⟩
theorem witness_Sweep_barn (x : Bytes) (n : Nat) : skTagOk (setSys 0 x field2) n = true :=
  Bool.or_eq_true_iff.2 (.inl (Bool.or_eq_true_iff.2 (.inr rfl)))
theorem witness_Grooms : HasEntropy up ∧ up.tack.groomPos < 8192 ∧ up.boot.entropyPaused = false ∧ (up.islands.get 0).cache = [] := by decide

/-! ### Services -/

def okItem : Bytes := toLe 2 1 ++ zeros 6 ++ toLe 4 0x30010000 ++ toLe 2 4 ++ zeros 10
theorem witness_Services :
    runs up 0x0701 (zeros 8 ++ [1] ++ zeros 7) eventReadChecks = true ∧ runs up 0x0702 (zeros 8) (uptoChecks .manager) = true
    ∧ runs field2 0x0902 (zeros 8) (uptoChecks (.gate 3)) = true ∧ runs up 0x0901 (toLe 8 77) timeChecks = true
    ∧ runs up 0x0603 [] (fun _ c => { right := .any, pay := 176, bad := paramFails c.params [] 0 [] }) = true
    ∧ runs up 0x0602 (toLe 4 6) wearChecks = true ∧ goes up 0x0602 (toLe 4 6) 1 = true ∧ ownIslands (cmdOf 0x0602 (toLe 4 6) 2 0) up = [1, 2] ∧ (∀ i, i < 22 → (up.wear.get i).rerun = false)
    ∧ runs up 0x0801 [3] maskChecks = true ∧ runs up 0x0802 [3] maskChecks = true
    ∧ (∀ l ∈ namedLanes (cmdOf 0x0801 [3] 2 0), (up.lane l).jobs = [] ∧ (up.lane l).forTest = false)
    ∧ (∃ l ∈ namedLanes (cmdOf 0x0801 [3] 2 0), (laneBusy.lane l).jobs ≠ [])
    ∧ runs up 0x0601 (toLe 4 0x07000301) testChecks = true
    ∧ (let t := each (namedTests (cmdOf 0x0601 (toLe 4 0x07000301) 2 0)) testBegin up
       (∀ k ∈ namedTests (cmdOf 0x0601 (toLe 4 0x07000301) 2 0), testReady t k = true) ∧ testReady (testBegin 0 laneBusy) 0 = false)
    ∧ runs up 0x0A01 [] (fun _ c => { pay := 128, bad := paramFails c.params [] 0 [] }) = true ∧ goes up 0x0A01 [] 16 = true
    ∧ runs up 0x0501 (toLe 2 1 ++ zeros 6 ++ toLe 4 0x80000000) (odReadChecks (on up)) = true
    ∧ goes up 0x0501 (toLe 2 1 ++ zeros 6 ++ toLe 4 0x80000000) 1 = true ∧ opsBefore up 1 = false
    ∧ opsBefore (modWin .a (fun w => { w with busy := true }) up) 1 = true
    ∧ runs up 0x0502 okItem odWriteChecks = true ∧ goes up 0x0502 okItem 1 = true ∧ odCount (cmdOf 0x0502 okItem 2 0) = 1
    ∧ up.lt.nextSeq = 0 ∧ ({ nextSeq := 3 } : LeanTo).nextSeq ≠ 0 := by decide +kernel
/-- A read that has its place passes its checks and is served; a write whose item is served, waits and is refused; an answer that names a leaf cell. -/
theorem witness_Services_turns : let c := cmdOf 0x0501 (toLe 2 1 ++ zeros 6 ++ toLe 4 0x80000000) 2 0
    let b := withCmd up c
    let e := takeTurn 3 b
    let x := { c with turn := some b.ym.odNext }
    c.turn = none ∧ opsBefore e b.ym.odNext = false ∧ decide (Passes e x (odReadChecks (on e) e x)) = true
    ∧ opsBefore (takeTurn 3 (modWin .a (fun w => { w with busy := true, turn := 0 }) (modYm (fun y => { y with odNext := 1 }) b))) 1 = true
    ∧ (checksBefore e { x with sender := guest, sheet := {} } (odReadChecks (on e) e { x with sender := guest, sheet := {} })).isSome = true
    ∧ (let w := { cmdOf 0x0502 okItem 2 0 with turn := none }
       w.note = 0 ∧ w.waitSince = none ∧ odCount w ≠ 0 ∧ odCount w ≤ 1)
    ∧ (4 : Nat) ≤ 4 ∧ ({ user := .cmd 3, op := 0, cell := 4, arg := 0, since := 0 } : SbOp).user = .cmd 3 := by decide +kernel

/-! ### Windows, entries, latches -/

theorem witness_Windows : (windowsOpen up && true) = true ∧ (windowsOpen {} && true) = false ∧ (up.win .a).busy = false
    ∧ ((modWin .a (fun w => { w with busy := true }) up).win .a).busy = true ∧ (0x0100 : BitVec 32).extractLsb' 8 8 = 1
    ∧ up.ym.latches.get 0 = none ∧ (({ dflt := none } : Tab (Option Sender)).set 3 (some manager)).get 3 = some manager
    ∧ (up.pair 0).inFull = false ∧ (0x0300 : BitVec 32).getLsbD 16 = false ∧ (0x0102 : BitVec 16).toNat % 4 ≠ 0 := by decide
/-- The read side: outputs driven and not, a page that takes a read and one that does not, a stall with few jobs in flight. -/
theorem witness_Windows_reads : windowsOpen up = true ∧ windowsOpen {} = false ∧ driven { up with boot := { up.boot with vdd := true } } = true
    ∧ driven {} = false ∧ Accepted (up.stall 0) 5 false true ∧ ¬ Accepted (up.stall 0) 6 false true ∧ (up.stall 0).inFlight < 8192
    ∧ up.boot.step < 16 ∧ up.boot.cause < 256 ∧ (up.pair 0).note < 16 ∧ up.boot.ready = true ∧ ({} : Block).boot.ready = false ∧ holding up 23 = false
    ∧ (0 : BitVec 32).getLsbD 0 = false ∧ (1 : BitVec 32).getLsbD 0 = true ∧ (2 : BitVec 32).getLsbD 1 = true
    ∧ (({ dflt := none } : Tab (Option Sender)).get 3 = none) ∧ 2 < up.boot.step ∧ ({} : Block).boot.step ≤ 2 := by decide
/-- Fields of FZ entries in MAKER: the gate password's hash, and the tether. -/
theorem witness_Dictionary :
    (match fzField 0x8020 0, selected 0x8020 0 with
      | some f, some e => decide (maker.lc = 1 ∧ unwritten (on maker) f = true ∧ burnReady maker = true ∧ maker.boot.warmDue = false
          ∧ allZero (List.replicate e.size 1) = false ∧ (List.replicate e.size (1 : Byte)).length = e.size)
      | _, _ => false) = true ∧ fzField 0x1000 0 = none
    ∧ (let x := manager
       maker.boot.ready = true ∧ holding maker 20 = false ∧ 5 ≤ maker.boot.step ∧ opsBefore maker 0 = false ∧ (maker.win x.port).busy = false ∧ (maker.win (otherPort x.port)).busy = false
       ∧ gatePasses maker x 0 = true ∧ gatePasses gated x 0 = false ∧ retirable maker 3 = true ∧ retirable maker 8 = false ∧ burnReady up = false)
    ∧ (let b := modWin .a (fun w => { w with busy := true, turn := 1 }) (modWin .b (fun w => { w with busy := true }) up)
       (b.win .a).busy = true ∧ (b.win .b).busy = true ∧ (b.win .b).turn < (b.win .a).turn)
    ∧ opsBefore (withCmd up { cmdOf 0x0502 okItem 3 1 with turn := some 3 }) 4 = true := by decide +kernel
theorem witness_Dictionary_credits : mpCredits maker manager.port ≠ 0 ∧ holding maker 22 = false ∧ opsBefore maker maker.ym.odNext = false
    ∧ (modWin .a (fun w => { w with busy := true, isWrite := true, burnSince := some 4 }) up).boot.vfz = false := by decide

/-! ### Monitors, the lean-to, ageing -/

def armed : Block :=
  { up with boot := { up.boot with vdd := true }
            lt := { up.lt with arm := 0xFFF, fifo := [{ code := 0x0101, resp := 1 }]
                               mesh := (up.lt.mesh.set 0 { seeded := true, drove := 6 }).set 1 { seeded := true } } }
def held5 : Block := { armed with holds := armed.holds.set 5 (some 3) }
theorem witness_Monitors : leanToAlive armed = true ∧ (∀ k, k < 12 → armed.lt.arm.getLsbD k = true) ∧ armed.lt.fired = 0 ∧ (∀ k, k < 112 → retired armed k = false)
    ∧ armed.lt.vbkLow = false ∧ armed.lt.clockBad = false ∧ armed.lt.fifo ≠ [] ∧ up.lt.fifo = []
    ∧ up.lt.tickEvents = [] ∧ up.lt.tick / 32768 = up.lt.second ∧ up.boot.backup = false ∧ up.lt.store.length < 64
    ∧ armedMonitors armed = true ∧ armedMonitors State.reset.blk = false ∧ armedSupply armed = true ∧ armedSupply State.reset.blk = false
    ∧ holding armed 5 = false ∧ holding held5 5 = true ∧ held5.holds.get 5 = some 3 ∧ held5.dbFifo = [] ∧ held5.rpFifo = [] ∧ held5.sbQueue = []
    ∧ (∀ c, c < 8 → held5.chute c = {})
    ∧ 7 ≤ armed.boot.step ∧ noEntropy armed = false ∧ armed.boot.entropyRestarts < 2 ∧ armed.live = [] ∧ (∀ l, l < 8 → (armed.lane l).jobs = [])
    ∧ LegalRatio 98 ∧ ((armed.wear.set 4 { rerun := true }).get 4).rerun = true ∧ (armed.wear.get 4).rerunAt = none
    ∧ ((armed.wear.set 4 { rerunAt := some 1000 }).get 4).rerunAt = some 1000 ∧ holding armed 4 = false := by decide +kernel
theorem witness_Monitors_lanes (l : Nat) : (armed.lane l).jobs = [] := rfl
/-- What mesh 0 drove is 1, 1 in its last two bits: inputs of 0, 0 differ, of 1, 1 do not; over 32 ticks the rest was 0. -/
theorem witness_Monitors_mesh : let m := armed.lt.mesh.get 0
    m.seeded = true ∧ ((0 : BitVec 2).getLsbD 0 ≠ m.drove.getLsbD 1 ∧ (0 : BitVec 2).getLsbD 1 ≠ m.drove.getLsbD 2)
    ∧ ¬ ((3 : BitVec 2).getLsbD 0 ≠ m.drove.getLsbD 1 ∧ (3 : BitVec 2).getLsbD 1 ≠ m.drove.getLsbD 2)
    ∧ (∀ n, n < 32 → (3 : BitVec 32).getLsbD n = m.drove.getLsbD (n + 1)) ∧ ¬ ∀ n, n < 32 → (0 : BitVec 32).getLsbD n = m.drove.getLsbD (n + 1) := by
  refine ⟨rfl, by decide, by decide, by decide, fun h => absurd (h 0 (by decide)) (by decide)⟩
/-- A clock of 100 % and of 70 %, within its limits, too fast by more than 6 %, too slow by more than 10 %, and with short cycles. -/
theorem witness_Monitors_clock : let r := clockReport armed State.reset.clk 5
    r { edges := 4096 } = none ∧ r { edges := 4341 } = none ∧ r { edges := 4342 } = some (36, true) ∧ r { edges := 3687 } = none
    ∧ r { edges := 3686 } = some (36, false) ∧ r { edges := 4096, cycles := [8999] } = some (37, false)
    ∧ r { edges := 4096, cycles := List.replicate 16 8999 } = some (37, true) ∧ r { edges := 4500, cycles := [8999] } = some (37, false)
    ∧ r { edges := 4096, cycles := [9000, 10000] } = none
    ∧ clockReport armed { State.reset.clk with watched := State.reset.clk.watched.set 5 70 } 5 { edges := 2868, cycles := [12858] } = none
    ∧ clockReport armed State.reset.clk 22 { edges := 1 } = none ∧ clockReport armed State.reset.clk 22 { edges := 0 } = some (104, false) := by
  decide +kernel
/-- A hold whose end finds nothing waiting; the same with no hold of the port islands, and a wake kept; a start-up under way whose clock fault is seen. -/
theorem witness_Monitors_holds : held5.mpFifo = [] ∧ held5.ym.changesDue = [] ∧ held5.tack.dropsDue = [] ∧ held5.boot.epochDue = none ∧ held5.live = []
    ∧ holding held5 22 = false ∧ holding { up with holds := up.holds.set 22 (some 1) } 22 = true
    ∧ ({ armed with boot := { armed.boot with wakeDue := true } } : Block).boot.wakeDue = true ∧ armed.boot.vdd = true
    ∧ armed.boot.entropyPaused = false ∧ ({ armed.boot with entropyPaused := true }).entropyPaused = true ∧ ¬ (3 : Nat) < 2 ∧ holding armed 21 = false := by decide
def starting : Block := { armed with boot := { armed.boot with step := 5, ready := false, stopped := false } }
theorem witness_Monitors_startup : armedMonitors starting = true ∧ starting.boot.ready = false ∧ starting.boot.stopped = false
    ∧ clockReport starting State.reset.clk 5 { edges := 3686 } = some (36, false) ∧ clockReport starting State.reset.clk 20 { edges := 3686 } = some (96, false)
    ∧ ({ edges := 1, sramOk := false } : ClockSeen).sramOk = false ∧ ({ edges := 1 } : ClockSeen).sramOk = true := by decide +kernel

/-! ### Resets, start-up, supplies, test access -/

/-- A block before start-up, with a supply and its clock. -/
def cold : Block := { boot := { step := 1, vdd := true, clkRef := true } }
theorem witness_Resets : mayBoot cold = true ∧ mayBoot up = false ∧ cold.boot.step = 1 ∧ cold.boot.clkRef = true
    ∧ ({ cold.boot with clkRef := false }).clkRef = false ∧ vital [0] = true ∧ vital [5] = false ∧ vital [] = false
    ∧ cold.boot.entropyStopped = false ∧ cold.sb = none ∧ cold.sbQueue = [] ∧ anyHold cold = false ∧ cold.boot.obs = none
    ∧ lifecycleWritten up = true ∧ ({ up.boot with warmDue := true }).warmDue = true ∧ up.boot.warmDue = false ∧ up.boot.scan = false
    ∧ lifecycleWritten (withCmd up (cmdOf 0x0401 [1] 3 1)) = false
    ∧ (0 : BitVec 64).toNat < 2 ^ 32 ∧ 2 ^ 32 ≤ (0x100000000 : BitVec 64).toNat
    ∧ cold.sbDrop = 0 ∧ cold.portDrain = false ∧ ({ vddOk := false } : StartObs).vddOk = false
    ∧ (let o : StartObs := { romOk := false }
       o.vddOk = true ∧ o.lockFails = [] ∧ o.sramFails = [] ∧ ({} : StartObs).entropyOk = true ∧ ({} : StartObs).lifecycle = .agree ∧ ({} : StartObs).romOk = true)
    ∧ mayBoot { cold with boot := { cold.boot with step := 2, cause := 1 } } = true
    ∧ mayBoot { cold with boot := { cold.boot with obs := some {}, clkRef := false } } = true
    ∧ mayBoot { cold with boot := { cold.boot with stopped := true } } = false
    ∧ ({ up.boot with scan := true }).scan = true ∧ ({ up.boot with vdd := false }).vdd = false
    ∧ (let q : SbOp := { user := .afterReady 2, op := 0, cell := 2, arg := 0, since := 0 }
       ({ up with sb := some q } : Block).sb = some q ∧ up.sbQueue = [] ∧ up.sbDrop = 0 ∧ up.portDrain = false) := by decide +kernel
theorem witness_Supplies : ({ up with sb := some { user := .cmd 3, op := 0, cell := 1, arg := 0, since := 0 } } : Block).sb.isSome = true
    ∧ up.boot.readyAt + lockoutUs (0 % 256) ≤ 0 ∧ up.boot.burnLeft = none ∧ anyHold up = false ∧ up.boot.vdd = true
    ∧ isActive up = false ∧ isActive laneBusy = true ∧ up.boot.asleep = false ∧ ymIdleNow up = true ∧ up.ym.gated = false
    ∧ tapOpen up = true ∧ tapOpen {} = false ∧ tapOpen field2 = false ∧ up.boot.scanUsed = false
    ∧ holding { up with holds := up.holds.set 0 (some 1) } 0 = true ∧ holding up 0 = false ∧ holding up 20 = false
    ∧ ({ up with boot := { up.boot with burnLeft := some (.roots, blk16) } } : Block).boot.burnLeft = some (.roots, blk16)
    ∧ (let g : SbOp := { user := .gateRead, op := 0, cell := 2, arg := 0, since := 0 }
       ({ up with sb := some g } : Block).sb = some g) := by decide +kernel
/-- A studbook operation that waits behind nothing, and a start-up whose lanes are mostly out of service. -/
theorem witness_Supplies_queue : let q : SbOp := { user := .cmd 3, op := 0, cell := 1, arg := 0, since := 0 }
    let b := { up with sbQueue := [q] }
    b.sb = none ∧ b.sbQueue = [q] ∧ q.user = .cmd 3 ∧ lanesFenced up < 5
    ∧ 5 ≤ lanesFenced (each [0, 1, 2, 3, 4] (fun l => modLane l fun x => { x with fencedFault := true }) up) := by decide +kernel
/-- The epoch's answer in a hold and after it; a start-up operation with nothing else asked for. -/
theorem witness_Supplies_epoch : let q : SbOp := { user := .boot, op := 1, cell := 0, arg := 1, since := 0 }
    let b : Block := { up with boot := { up.boot with step := 9, ready := false }, sb := some q }
    b.sb = some q ∧ q.user = .boot ∧ b.sbQueue = [] ∧ b.sbDrop = 0 ∧ b.portDrain = false ∧ holding b 0 = false ∧ holding b 20 = false
    ∧ holding { b with holds := b.holds.set 20 (some 1) } 20 = true
    ∧ ({ b with boot := { b.boot with epochDue := some (some 7) } } : Block).boot.epochDue = some (some 7) ∧ lanesFenced b < 5 ∧ (7 : Nat) < 2 ^ 32 := by decide +kernel
/-- An OD_WRITE that was cut off in a paused burn, a hold in which the block does not wake, and an open port with and without an instruction of its own. -/
theorem witness_Supplies_cut : let c := { cmdOf 0x0502 okItem 3 1 with note := 0 }
    let b : Block := { up with ym := { up.ym with changesDue := [c] } }
    b.ym.changesDue = [c] ∧ c.op = 0x0502 ∧ b.boot.burnLeft = none ∧ anyHold b = false ∧ (∀ x ∈ up.ym.changesDue, x.op ≠ 0x0502)
    ∧ anyHold { up with holds := up.holds.set 5 (some 1) } = true
    ∧ tapDeep { up with boot := { up.boot with tapIr := .other 9 } } = true ∧ tapDeep up = false ∧ up.boot.scanUsed = false
    ∧ ({ up with boot := { up.boot with scanUsed := true } } : Block).boot.scanUsed = true := by decide +kernel
theorem witness_Supplies_stall : ∃ (n : Nat) (q : Stall), (n, q) ∈ up.stalls.ents := ⟨0, _, List.mem_singleton.2 rfl⟩

/-! ## Values the manual works out -/

/-- Ring SQ2 of stall 37 with k = 8 (chapter "Stalls and rings", example of the ring rules). -/
def ring37 (prod : Idx) : Block := modStall 37 (fun s => { s with state := .active, pid := some 5 })
  (modRing 37 2 (fun g => { g with k := 8, cons := 65500, prod }) up)
theorem test_ring_accepts : let t := after (.sqDoorbellWrite 37 2 20 5 false true) (ring37 65530)
    (t.ring 37 2).prod = 20 ∧ (t.ring 37 2).halted = false := by decide +kernel
theorem test_ring_lapped : let t := after (.sqDoorbellWrite 37 2 221 5 false true) (ring37 220)
    (t.ring 37 2).prod = 220 ∧ (t.ring 37 2).halted = true ∧ (t.ring 37 1).halted = false := by decide +kernel
/-- Stall 37, epoch 345, counter 1,000,000 (example of R208). -/
theorem test_nonce : nonceBytes 345 37 1000000 = [0, 0, 1, 0x59, 9, 0x40, 0, 0, 0, 0x0F, 0x42, 0x40] := by decide +kernel
/-- An OPEN of variant 0x65, AAD_LEN 96, SRC_LEN 64 reports VARIANT_UNSUPPORTED (example of R103). -/
theorem test_admission_lowest : let d : Desc := { opcode := 0x13, variant := 0x65, srcLen := 64, aadLen := 96 }
    lowest (admission up 37 1 { desc := d }) = some .variantUnsupported := by decide +kernel
/-- Lock-outs of three and four failures (example of R440). -/
theorem test_lockouts : lockoutUs 2 = 0 ∧ lockoutUs 3 = 60000000 ∧ lockoutUs 4 = 120000000 := by decide
/-- Re-rating and remaining life of island 3 (example of R512). -/
theorem test_rerate : rerateGo 15 22 100 = (42, 98) := by decide
theorem test_life : lifeTenths 64 34 950 = 20 := by decide +kernel
/-- RSA_PUBLIC of 2,048 bits with e = 65537 (R311), and LMS signing with W4 over SHA-256 (R343). -/
theorem test_core_times : powerNs 2048 17 = 35 * 171 ∧ lmsNs 0x59 1 (toBe 4 8 ++ toBe 4 3 ++ zeros 8) = 180000
    ∧ coreTimeNs up { opcode := 0x41, variant := 2, flags := 0x50, srcLen := 32 } none = 150000 := by decide +kernel
/-- A 4 KiB XTS DECRYPT costs 320 ns (example of R364). -/
theorem test_cipher_cost : estCost up { opcode := 0x11, variant := 0x04, srcLen := 4096 } [] [] = 320 := by decide +kernel
/-- IRQ_COUNT of stall 200 is written to 16 through the window of `mpa_` (example of R420). -/
def od200 (v : BitVec 32) : Block :=
  after (.dictionaryOperation .a .good) (after (.odCtrlWrite 0x0202 manager true)
    (after (.registerWrite 0x0140 v manager true) (after (.registerWrite 0x0100 0x304000C8 manager true)
      (modStall 200 (fun s => { s with state := .bound }) up))))
theorem test_od_write : let t := od200 0x10
    (t.stall 200).irqCount = 16 ∧ (t.win .a).busy = false ∧ (t.win .a).status = 0 ∧ (t.win .a).len = 2 := by decide +kernel
theorem test_od_out_of_range : let t := od200 0
    (t.stall 200).irqCount = (up.stall 200).irqCount ∧ (t.win .a).status = BitVec.ofNat 8 odOutOfRange := by decide +kernel
/-- The eleven grains of way 3 (example of R466): grain 63 goes to way 3 at offset 163,840. -/
theorem test_braid : grainOf { mop := 2, ways := 6, grain := 16384, len := 1048576 } 63 = (3, 163840, 16384) := by decide +kernel
/-- IDCODE (R550). -/
theorem test_idcode : (after (.tapInstruction .idcode) up).boot.tapOut = 0x4D424F41 := by decide
/-- A record of the smallest primes that Baillie-PSW accepts, and pseudoprimes it refuses (R325). -/
theorem test_primes : (List.range 30).filter isPrime = [2, 3, 5, 7, 11, 13, 17, 19, 23, 29] ∧ [2047, 3277, 5459, 5777, 10877].filter isPrime = [] := by
  decide +kernel

/-! ## A curve -/

/-- The curve secp160r1 as a record. -/
def curve160 : Bytes := [0x4D, 0x43, 0x52, 0x56, 1, 0] ++ toLe 2 160 ++ [1] ++ zeros 7
  ++ toBe 72 0xffffffffffffffffffffffffffffffff7fffffff ++ toBe 72 0xffffffffffffffffffffffffffffffff7ffffffc
  ++ toBe 72 0x1c97befc54bd7a8b65acf89f81d4d4adc565fa45 ++ toBe 72 0x4a96b5688ef573284664698968c38bb913cbfc82
  ++ toBe 72 0x23a628553168947d59dcc912042351377ac5fb32 ++ toBe 72 0x0100000000000000000001f4c8f927aed3ca752257
/-- A record that passes every check, and one of zeros, which fails the first. -/
theorem witness_Curves : curveFails curve160 = none ∧ curveFails (zeros 448) = some 0 ∧ curve160.length = 448 := by decide +kernel

end Sys2Proof.Machine.Tests
end

section
/-!
SUPPORT. Little-endian bytes read back, and a slice of joined byte strings.
-/

namespace Sys2Proof.Machine

@[simp] theorem length_toLe (k n : Nat) : (toLe k n).length = k := by
  induction k generalizing n with
  | zero => rfl
  | succ k ih => simp [toLe, ih]

@[simp] theorem length_fit (n : Nat) (l : Bytes) : (fit n l).length = n := by simp [fit]

/-- `k` bytes keep a number modulo 256^k. -/
theorem leNat_toLe (k n : Nat) : leNat (toLe k n) = n % 256 ^ k := by
  induction k generalizing n with
  | zero => simp [toLe, leNat, Nat.mod_one]
  | succ k ih =>
    calc leNat (toLe (k + 1) n) = n % 256 + 256 * (n / 256 % 256 ^ k) := by simp [toLe, leNat, ih]
      _ = n % 256 ^ (k + 1) := by rw [Nat.pow_succ', Nat.mod_mul]

/-- A field holds the number its bytes were made of. -/
theorem field_eq_of_slice {e : Bytes} {off len n : Nat} (h : slice e off len = toLe len n) (hn : n < 256 ^ len) :
    field e off len = n := by rw [field, h, leNat_toLe, Nat.mod_eq_of_lt hn]

theorem fit_of_length {n : Nat} {l : Bytes} (h : l.length = n) : fit n l = l := by simp [fit, ← h]

theorem fit_nil (n : Nat) : fit n [] = zeros n := by simp [fit]

/-- Bytes that start after a first string lie in the rest. -/
theorem slice_append_right {x : Bytes} {off : Nat} (h : x.length ≤ off) (l : Bytes) (len : Nat) :
    slice (x ++ l) off len = slice l (off - x.length) len := by
  simp [slice, List.drop_append, List.drop_eq_nil_of_le h]

/-- The first string of two, read at its own length. -/
theorem slice_append_left {x : Bytes} {len : Nat} (h : x.length = len) (l : Bytes) : slice (x ++ l) 0 len = x := by
  simp [slice, ← h]

theorem slice_zero_length {x : Bytes} {len : Nat} (h : x.length = len) : slice x 0 len = x := by simp [slice, ← h]

end Sys2Proof.Machine
end

section
/-!
SUPPORT. Where the fields of a completion entry lie (R94), what they hold, and PHASE from one index to another (R66).
-/

namespace Sys2Proof.Machine

section entry
variable (j : Job) (phase : Nat)

/-- BYTES_WRITTEN as an entry reports it (R98). -/
def reportedBytes : Nat := if j.result.status = .done then j.result.bytesWritten else 0
/-- NONCE as an entry reports it (R94). -/
def reportedNonce : Bytes := fit 12 (if j.result.status = .done && j.desc.nonceHw then j.nonce else [])

/-- The entry as its fields one after another, the two bytes of CFLAGS apart. -/
theorem completionBytes_eq : completionBytes j phase =
    toLe 4 j.desc.tag.toNat ++ (toLe 2 j.result.status.code ++ (toLe 1 (cflags j phase) ++ (toLe 1 (cflags j phase / 256)
      ++ (toLe 6 (reportedBytes j) ++ (toLe 2 j.stall.val ++ (reportedNonce j ++ (toLe 4 j.result.verdict.toNat
      ++ (toLe 4 j.result.verdictInv.toNat ++ (toLe 2 j.result.rounds.toNat ++ (toLe 2 j.seq.toNat ++ zeros 24)))))))))) := by
  simp only [completionBytes, List.append_assoc]; rfl

@[simp] theorem length_reportedNonce : (reportedNonce j).length = 12 := by simp [reportedNonce]

theorem length_completionBytes : (completionBytes j phase).length = 64 := by simp [completionBytes_eq]

/-- The bytes at the offset of each field of R94. -/
theorem completionBytes_slices : let e := completionBytes j phase
    slice e 0 4 = toLe 4 j.desc.tag.toNat ∧ slice e 4 2 = toLe 2 j.result.status.code
    ∧ slice e 6 1 = toLe 1 (cflags j phase) ∧ slice e 7 1 = toLe 1 (cflags j phase / 256)
    ∧ slice e 8 6 = toLe 6 (reportedBytes j) ∧ slice e 14 2 = toLe 2 j.stall.val ∧ slice e 16 12 = reportedNonce j
    ∧ slice e 28 4 = toLe 4 j.result.verdict.toNat ∧ slice e 32 4 = toLe 4 j.result.verdictInv.toNat
    ∧ slice e 36 2 = toLe 2 j.result.rounds.toNat ∧ slice e 38 2 = toLe 2 j.seq.toNat ∧ slice e 40 24 = zeros 24 := by
  simp [completionBytes_eq, slice_append_right, slice_append_left, slice_zero_length]

/-- CFLAGS in two bytes: the flags over PHASE in the lower, RING in the upper (R95). -/
theorem cflags_bytes (h : phase < 2) :
    cflags j phase % 256 = j.byKnot.toNat * 16 + j.wasHitched.toNat * 8 + j.supplyHold.toNat * 4 + j.retried.toNat * 2 + phase
    ∧ cflags j phase / 256 = j.ring.val := by
  have hk := j.byKnot.toNat_le
  have hh := j.wasHitched.toNat_le
  have hs := j.supplyHold.toNat_le
  have hr := j.retried.toNat_le
  simp only [cflags]
  constructor <;> omega

theorem reportedBytes_lt (h : j.result.bytesWritten < 2 ^ 48) : reportedBytes j < 2 ^ 48 := by
  unfold reportedBytes; split
  · exact h
  · decide

theorem reportedNonce_drawn (hn : j.nonce.length = 12) (hs : j.result.status = .done) (hw : j.desc.nonceHw = true) :
    reportedNonce j = j.nonce := by simp [reportedNonce, hs, hw, fit_of_length hn]

theorem reportedNonce_absent (h : j.result.status ≠ .done ∨ j.desc.nonceHw = false) : reportedNonce j = zeros 12 := by
  rcases h with h | h <;> simp [reportedNonce, h, fit_nil]

theorem Status.code_lt (st : Status) : st.code < 2 ^ 16 := by cases st <;> decide

end entry

/-! ## PHASE (R66) -/

theorem phaseBit_eq (i : Idx) (k : Nat) : phaseBit i k = 1 - i.toNat / 2 ^ k % 2 := by
  rw [phaseBit, Nat.shiftRight_eq_div_pow]

theorem phaseBit_lt_two (i : Idx) (k : Nat) : phaseBit i k < 2 := by
  rw [phaseBit_eq]; omega

theorem phaseBit_first_pass {i : Idx} {k : Nat} (h : i.toNat < 2 ^ k) : phaseBit i k = 1 := by
  rw [phaseBit_eq, Nat.div_eq_of_lt h]

/-- One pass on, the index's quotient by the ring's size is one higher. It may lose the index's wrap, a multiple of
2 × 2^k for `k` to 15, so its parity turns all the same. -/
theorem pass_parity_add {k : Nat} (hk : k ≤ 15) (i : Idx) :
    (i + BitVec.ofNat 16 (2 ^ k)).toNat / 2 ^ k % 2 = (i.toNat / 2 ^ k + 1) % 2 := by
  have hw : (2 : Nat) ^ k * 2 ∣ 2 ^ 16 := by
    rw [← Nat.pow_succ]; exact Nat.pow_dvd_pow 2 (by omega)
  calc (i + BitVec.ofNat 16 (2 ^ k)).toNat / 2 ^ k % 2
      = (i.toNat + 2 ^ k) % 2 ^ 16 % (2 ^ k * 2) / 2 ^ k := by
        rw [Nat.mod_mul_right_div_self, BitVec.toNat_add, BitVec.toNat_ofNat, Nat.add_mod_mod]
    _ = (i.toNat + 2 ^ k) / 2 ^ k % 2 := by rw [Nat.mod_mod_of_dvd _ hw, Nat.mod_mul_right_div_self]
    _ = (i.toNat / 2 ^ k + 1) % 2 := by rw [Nat.add_div_right _ (Nat.two_pow_pos k)]

theorem phaseBit_next_pass {k : Nat} (hk : k ≤ 15) (i : Idx) :
    phaseBit (i + BitVec.ofNat 16 (2 ^ k)) k = 1 - phaseBit i k := by
  rw [phaseBit_eq, phaseBit_eq, pass_parity_add hk]; omega

/-! ## The write of an entry (R62, R66) -/

/-- The write of stall `n`'s entry at completion index `x` on `rp_`. -/
def entryReq (b : Block) (n : Nat) (x : Idx) (data : Bytes) : Req :=
  { write := true, addr := (b.stall n).cqBase + BitVec.ofNat 64 (64 * (x.toNat % 2 ^ (b.stall n).cqK)), len := 64, data
    ident := stallIdent b n, owner := .completion (Fin.ofNat 512 n) x }

theorem offerEntry_eq (n : Nat) (x : Idx) (data : Bytes) (b : Block) :
    offerEntry n x data b = offer .rp [entryReq b n x data] b := rfl

/-- The block as `issueOne` leaves it before it offers the write: the index is taken and the job knows it. -/
def indexTaken (n i : Nat) (b : Block) : Block :=
  modStall n (fun q => { q with cqIssue := q.cqIssue + 1 })
    (modJob i (fun j => { j with stage := .issued, cqIndex := (b.stall n).cqIssue }) b)

theorem issueOne_eq (n i : Nat) (j : Job) (b : Block) : issueOne n i j b = offerEntry n (b.stall n).cqIssue
    (completionBytes j (phaseBit (b.stall n).cqIssue (b.stall n).cqK)) (indexTaken n i b) := rfl

/-- Taking an index moves neither the completion ring nor the stall's identity. -/
theorem entryReq_indexTaken (b : Block) (n i : Nat) (x : Idx) (data : Bytes) :
    entryReq (indexTaken n i b) n x data = entryReq b n x data := by
  have hq : (indexTaken n i b).stall n = { b.stall n with cqIssue := (b.stall n).cqIssue + 1 } := by
    simp [indexTaken, Block.stall]
  simp only [entryReq, stallIdent, hq]

theorem issueOne_still (n i : Nat) (j : Job) (b : Block) : (issueOne n i j b).still = (indexTaken n i b).still := by
  rw [issueOne_eq, offerEntry_eq, offer_still]

theorem issueOne_offered (n i : Nat) (j : Job) (b : Block) : Offered (issueOne n i j b) .rp
    (entryReq b n (b.stall n).cqIssue (completionBytes j (phaseBit (b.stall n).cqIssue (b.stall n).cqK))) := by
  rw [issueOne_eq, offerEntry_eq, entryReq_indexTaken]
  exact offer_offered (List.mem_singleton_self _)

/-! ## The fields and the obligation -/

/-- The fields of an entry, with a PHASE of one bit and a nonce of 12 bytes (R94, R95, R98). -/
theorem completionBytes_fields {j : Job} {phase : Nat} (hp : phase < 2) (hb : j.result.bytesWritten < 2 ^ 48)
    (hn : j.nonce.length = 12) : let e := completionBytes j phase
    let st := j.result.status
    e.length = 64 ∧ field e 0 4 = j.desc.tag.toNat ∧ field e 4 2 = st.code
      ∧ field e 6 1 = j.byKnot.toNat * 16 + j.wasHitched.toNat * 8 + j.supplyHold.toNat * 4 + j.retried.toNat * 2 + phase
      ∧ field e 7 1 = j.ring.val ∧ (st = .done → field e 8 6 = j.result.bytesWritten) ∧ (st ≠ .done → field e 8 6 = 0)
      ∧ field e 14 2 = j.stall.val ∧ (st = .done → j.desc.nonceHw = true → slice e 16 12 = j.nonce)
      ∧ (st ≠ .done ∨ j.desc.nonceHw = false → slice e 16 12 = zeros 12)
      ∧ field e 28 4 = j.result.verdict.toNat ∧ field e 32 4 = j.result.verdictInv.toNat ∧ field e 36 2 = j.result.rounds.toNat
      ∧ field e 38 2 = j.seq.toNat ∧ slice e 40 24 = zeros 24 := by
  obtain ⟨hflags, hr⟩ := cflags_bytes j phase hp
  obtain ⟨htag, hcode, hlow, hring, hbytes, hstall, hnonce, hver, hinv, hrounds, hseq, hzero⟩ := completionBytes_slices j phase
  have hwritten : field (completionBytes j phase) 8 6 = reportedBytes j := field_eq_of_slice hbytes (reportedBytes_lt j hb)
  refine ⟨length_completionBytes j phase, field_eq_of_slice htag j.desc.tag.isLt,
    field_eq_of_slice hcode (Status.code_lt _), ?flags, ?ring, fun h => ?done, fun h => ?failed,
    field_eq_of_slice hstall (by omega), fun h hw => hnonce.trans (reportedNonce_drawn j hn h hw),
    fun h => hnonce.trans (reportedNonce_absent j h), field_eq_of_slice hver j.result.verdict.isLt,
    field_eq_of_slice hinv j.result.verdictInv.isLt, field_eq_of_slice hrounds j.result.rounds.isLt,
    field_eq_of_slice hseq j.seq.isLt, hzero⟩
  case flags => rw [field, hlow, leNat_toLe]; exact hflags
  case ring => rw [hr] at hring; exact field_eq_of_slice hring (by omega)
  case done => rw [hwritten, reportedBytes, if_pos h]
  case failed => rw [hwritten, reportedBytes, if_neg h]

/-- Settles O36: the fields from the entry's own bytes, the PHASE of the entry issued from its index, and PHASE from pass to
pass from the parity of the index's quotient by the ring's size. -/
theorem completionEntryLayout : Obligations.CompletionEntryLayout := by
  refine ⟨fun j phase hp hb hn => completionBytes_fields hp hb hn, fun b n i j => ?_, fun i k hk =>
    ⟨phaseBit_lt_two i k, phaseBit_first_pass, phaseBit_next_pass hk i⟩⟩
  have ho := issueOne_offered n i j b
  rw [phaseBit_eq] at ho
  exact ⟨issueOne_still n i j b, ho⟩

end Sys2Proof.Machine
end

section
/-!
SUPPORT. The bytes of a hardware nonce, its draw, and the epoch it takes from the studbook (R210, R211, R523).
-/

namespace Sys2Proof.Machine

/-! ## Big-endian bytes -/

@[simp] theorem length_toBe (k n : Nat) : (toBe k n).length = k := by simp [toBe]

/-- `k` big-endian bytes keep a number modulo 256^k. -/
theorem beNat_toBe (k n : Nat) : beNat (toBe k n) = n % 256 ^ k := by
  rw [beNat, toBe, List.reverse_reverse, leNat_toLe]

/-! ## The value of a nonce -/

/-- EPOCH, STALL and COUNT in their ranges fill 96 bits, so the 12 bytes lose nothing of their sum. -/
theorem beNat_nonceBytes {e n k : Nat} (he : e < 2 ^ 32) (hn : n < 512) (hk : k < 2 ^ 54) :
    beNat (nonceBytes e n k) = e * 2 ^ 64 + n * 2 ^ 54 + k := by
  have h96 : e * 2 ^ 64 + n * 2 ^ 54 + k < 256 ^ 12 := by omega
  rw [nonceBytes, beNat_toBe, Nat.mod_eq_of_lt he, Nat.mod_eq_of_lt h96]

/-- The fields do not overlap, so equal nonces have equal values and with them equal fields. -/
theorem nonceBytes_injective {e n k e' n' k' : Nat} (he : e < 2 ^ 32) (he' : e' < 2 ^ 32) (hn : n < 512) (hn' : n' < 512)
    (hk : k < 2 ^ 54) (hk' : k' < 2 ^ 54) (h : nonceBytes e n k = nonceBytes e' n' k') : e = e' ∧ n = n' ∧ k = k' := by
  have hv : e * 2 ^ 64 + n * 2 ^ 54 + k = e' * 2 ^ 64 + n' * 2 ^ 54 + k' := by
    rw [← beNat_nonceBytes he hn hk, h, beNat_nonceBytes he' hn' hk']
  omega

/-! ## The draw -/

theorem drawNonce_eq {b : Block} {n i : Nat} {j : Job} (hj : b.job i = some j) (hw : j.desc.nonceHw = true) :
    drawNonce n i b = modStall n (fun s => { s with nonceCount := s.nonceCount + 1 })
      (modJob i (fun j => { j with nonce := nonceBytes b.boot.epoch n (b.stall n).nonceCount }) b) := by
  simp only [drawNonce, hj, hw, when_true]

theorem drawNonce_job {b : Block} {n i : Nat} {j : Job} (hj : b.job i = some j) (hw : j.desc.nonceHw = true) :
    (drawNonce n i b).job i = some { j with nonce := nonceBytes b.boot.epoch n (b.stall n).nonceCount } := by
  rw [drawNonce_eq hj hw]
  exact modJob_job hj _

theorem drawNonce_stall {b : Block} {n i : Nat} {j : Job} (hj : b.job i = some j) (hw : j.desc.nonceHw = true) :
    (drawNonce n i b).stall n = { b.stall n with nonceCount := (b.stall n).nonceCount + 1 } := by
  rw [drawNonce_eq hj hw, modStall_stall_self]
  rfl

/-! ## The epoch -/

@[simp] theorem sbPump_boot (b : Block) : (sbPump b).boot = b.boot := by
  unfold sbPump; split <;> rfl

@[simp] theorem askAfter_boot (c : Nat) (b : Block) : (askAfter c b).boot = b.boot := by
  unfold askAfter; cases decide (c ≤ 3)
  · rfl
  · exact sbPump_boot _

/-- With fewer than five lanes fenced no event is raised as `ready` rises, and the epoch stays as it is (R519, R524). -/
theorem riseReady_epoch {b : Block} (hl : lanesFenced b < 5) : (riseReady b).boot.epoch = b.boot.epoch := by
  rw [riseReady, askAfter_boot, decide_eq_false (Nat.not_le.2 hl), when_false]
  rfl

/-- An answer of 32 bits is an epoch (R213, R523). -/
theorem epochAnswer_eq {v : Nat} (hv : v < 2 ^ 32) (b : Block) :
    epochAnswer (some v) b = riseReady (modBoot (fun t => { t with epoch := v, nonceState := 0 }) b) := by
  have hle : v ≤ 0xFFFFFFFF := Nat.le_of_lt_succ hv
  simp only [epochAnswer, hle, if_true]

theorem bootAnswer_unheld {b : Block} (h0 : holding b 0 = false) (h20 : holding b 20 = false) (a : Option Nat) :
    bootAnswer a b = epochAnswer a b := if_neg (by simp [h0, h20])

/-- The epoch is the answer to start-up's own operation, which neither the yard nor the yardmaster holds back (R523, R531). -/
theorem sbResponse_epoch {b : Block} {q : SbOp} {v : Nat} (hq : b.sb = some q) (hu : q.user = .boot)
    (h0 : holding b 0 = false) (h20 : holding b 20 = false) (hl : lanesFenced b < 5) (hv : v < 2 ^ 32) :
    (sbResponse false false v b).boot.epoch = v := by
  have answered : sbAnswer q (some v) { b with sb := none } = epochAnswer (some v) { b with sb := none } := by
    rw [sbAnswer, hu]
    exact bootAnswer_unheld (by exact h0) (by exact h20) _
  have responded : sbResponse false false v b = sbPump (epochAnswer (some v) { b with sb := none }) := by
    simp [sbResponse, hq, answered]
  rw [responded, sbPump_boot, epochAnswer_eq hv, riseReady_epoch (by exact hl)]
  rfl

/-! ## The obligation -/

/-- Settles O13: the 12 bytes keep the 96-bit value, whose fields do not overlap; the draw and the epoch are the rules of
`drawNonce` and of start-up's answer, and the entry's NONCE field that of R94. -/
theorem hardwareNoncesAreDistinct : Obligations.HardwareNoncesAreDistinct := by
  refine ⟨fun e n k he hn hk => ⟨length_toBe 12 _, beNat_nonceBytes he hn hk⟩,
    fun e n k e' n' k' he he' hn hn' hk hk' h => nonceBytes_injective he he' hn hn' hk hk' h,
    fun b n i j hj hw => ⟨drawNonce_job hj hw, drawNonce_stall hj hw⟩, ?epoch, fun j phase hw => ⟨if_pos hw, fun hs => ?entry⟩⟩
  case epoch =>
    intro s q v b hq hu _ _ _ _ _ h0 h20 hl hv
    exact ⟨sbResponse false false v.toNat b, rfl, sbResponse_epoch hq hu h0 h20 hl hv⟩
  case entry =>
    obtain ⟨-, -, -, -, -, -, hnonce, -⟩ := completionBytes_slices j phase
    rw [hnonce, reportedNonce, hs, hw]
    rfl

end Sys2Proof.Machine
end

section
/-!
SUPPORT. Every command keeps the queue, the fuse cells and the legal clocks: the commands that only change the block by the frame of
their answer, the others by the laws of the operations on the whole state (R145, R506, R508, R549).
-/

namespace Sys2Proof.Machine

open Sys2Proof

/-- The answer is a next state that keeps the queue, the fuse cells and the legal clocks. -/
def NextKeeps (s : State) (o : Host.Outcome State Fault Refusal) : Prop := ∃ t, o = .next t ∧ Keeps s t

theorem nextKeeps_upd (s : State) (f : Block → Block) : NextKeeps s (upd s f) := ⟨_, rfl, keeps_blk s _⟩

theorem NextKeeps.of_keeps {s t : State} (h : Keeps s t) : NextKeeps s (.next t) := ⟨t, rfl, h⟩

theorem NextKeeps.ite {s : State} {c : Prop} [Decidable c] {x y : Host.Outcome State Fault Refusal}
    (hx : NextKeeps s x) (hy : NextKeeps s y) : NextKeeps s (if c then x else y) := by
  split
  · exact hx
  · exact hy

theorem NextKeeps.unchanged (s : State) : NextKeeps s (.next s) := .of_keeps (.refl s)

theorem NextKeeps.closing {s : State} {o : Host.Outcome State Fault Refusal} (h : NextKeeps s o) : NextKeeps s (closing s o) := by
  obtain ⟨t, rfl, ht⟩ := h
  exact .of_keeps (ht.trans (scanClosed_keeps _ _))

theorem warmReset_blk_keeps (n : Nat) (s : State) (b : Block) : Keeps s (warmReset n { s with blk := b }) :=
  (keeps_blk s b).trans (warmReset_keeps _ _)

theorem writeEntry_nextKeeps (how : Burn) (x : Sender) (c : Instr) (i sub : Nat) (d : Bytes) (s : State) :
    NextKeeps s (writeEntry how x c i sub d s) := by
  unfold writeEntry
  dsimp only
  refine .of_keeps ?_
  split
  · exact (keeps_blk s _).trans (runWindow_keeps _ _ _)
  · exact keeps_blk s _

/-! ## The commands that reach the fuses, the generators or a reset -/

theorem execLtReset_nextKeeps (s : State) : NextKeeps s (execLtReset s) := by
  unfold execLtReset
  dsimp only
  refine .of_keeps ?_
  split
  · exact warmReset_blk_keeps _ _ _
  · exact keeps_blk s _

theorem execStartUp_nextKeeps (o : StartObs) (s : State) : NextKeeps s (execStartUp o s) :=
  .ite (.unchanged s) (.ite (.of_keeps (keeps_blk s _)) (.of_keeps (startSteps_keeps o s)))

theorem execClkRefWithinRange_nextKeeps (s : State) : NextKeeps s (execClkRefWithinRange s) := by
  unfold execClkRefWithinRange
  dsimp only
  split
  · exact .ite (.of_keeps ((keeps_blk s _).trans (startSteps_keeps _ _))) (.of_keeps (keeps_blk s _))
  · exact .of_keeps (keeps_blk s _)

theorem execVfzWithinRange_nextKeeps (how : Burn) (s : State) : NextKeeps s (execVfzWithinRange how s) := by
  refine .ite (.of_keeps ?_) (.unchanged s)
  dsimp only
  split
  · exact (keeps_blk s _).trans (finishBurn_keeps _ _)
  · exact (keeps_blk s _).trans (finishItems_keeps _ _)

theorem execLifecycleAdvance_nextKeeps (cmd : Nat) (how : Burn) (s : State) : NextKeeps s (execLifecycleAdvance cmd how s) :=
  .of_keeps ((onYm_keeps _ s).trans (burnCmd_keeps _ _ _ _ _ _))

theorem execForgeRoots_nextKeeps (cmd : Nat) (how : Burn) (s : State) : NextKeeps s (execForgeRoots cmd how s) :=
  .of_keeps ((onYm_keeps _ s).trans (burnCmd_keeps _ _ _ _ _ _))

theorem execOdWrite_nextKeeps (cmd : Nat) (how : Burn) (s : State) : NextKeeps s (execOdWrite cmd how s) :=
  .of_keeps ((onYm_keeps _ s).trans (runItems_keeps _ _ _))

theorem execFzWrite_nextKeeps (i sub : BitVec 16) (d : Bytes) (x : Sender) (how : Burn) (s : State) :
    NextKeeps s (execFzWrite i sub d x how s) := .ite (writeEntry_nextKeeps _ _ _ _ _ _ s) (.unchanged s)

theorem execClockFault_nextKeeps (i : IslandId) (g : ClockSeen) (s : State) : NextKeeps s (execClockFault i g s) := by
  unfold execClockFault
  split
  · exact .ite (.of_keeps (((keeps_blk s _).trans (clockReset_keeps _ _ _)).trans (scanClosed_keeps _ _))) (.unchanged s)
  · exact .unchanged s

theorem execClockRatioChange_nextKeeps (i : Fin 22) (s : State) : NextKeeps s (execClockRatioChange i s) :=
  .ite (.unchanged s) (.of_keeps ⟨rfl, FuseArray.le_refl _, fun h => clocksLegal_reach h _⟩)

theorem execSupplyHoldTimeout_nextKeeps (i : IslandId) (s : State) : NextKeeps s (execSupplyHoldTimeout i s) := by
  unfold execSupplyHoldTimeout
  split
  · exact .unchanged s
  · exact .of_keeps (warmReset_blk_keeps _ _ _)

theorem execWearScheduledMeasurement_nextKeeps (g : Vector Gauges 22) (s : State) : NextKeeps s (execWearScheduledMeasurement g s) :=
  .ite (.unchanged s) (.of_keeps (((keeps_blk s _).trans (measure_keeps _ _ _ _)).setBlk _))

theorem execWearMeasurementRerun_nextKeeps (i : Fin 22) (g : Gauges) (s : State) : NextKeeps s (execWearMeasurementRerun i g s) := by
  unfold execWearMeasurementRerun
  split
  · exact .unchanged s
  · exact .ite (.of_keeps ((keeps_blk s _).trans (measureOne_keeps _ _ _))) (.unchanged s)

theorem execWearMeasure_nextKeeps (cmd : Nat) (g : Vector Gauges 22) (s : State) : NextKeeps s (execWearMeasure cmd g s) :=
  .ite (.unchanged s) (.ite (.of_keeps ((keeps_blk s _).trans (measure_keeps _ _ _ _))) (.of_keeps (keeps_blk s _)))

/-! ## Every command, every step -/

theorem exec_nextKeeps (c : Instr) (s : State) : NextKeeps s (exec c s) := by
  cases c
  case coldReset => exact .of_keeps (keeps_reset s _)
  case vddRemove => exact .of_keeps (keeps_reset s _)
  case warmReset => exact .ite (.of_keeps (warmReset_keeps _ s)) (.unchanged s)
  case scanModeFall => exact .ite (.of_keeps (warmReset_keeps _ s)) (.unchanged s)
  case ltReset => exact execLtReset_nextKeeps s
  case startUp => exact execStartUp_nextKeeps _ s
  case clkRefWithinRange => exact execClkRefWithinRange_nextKeeps s
  case vfzWithinRange => exact execVfzWithinRange_nextKeeps _ s
  case lifecycleAdvance => exact execLifecycleAdvance_nextKeeps _ _ s
  case forgeRoots => exact execForgeRoots_nextKeeps _ _ s
  case odWrite => exact execOdWrite_nextKeeps _ _ s
  case dictionaryOperation => exact .of_keeps (runWindow_keeps _ _ s)
  case fzWrite => exact execFzWrite_nextKeeps _ _ _ _ _ s
  case srcRetireBurn => exact writeEntry_nextKeeps _ _ _ _ _ _ s
  case ltArmSet => exact writeEntry_nextKeeps _ _ _ _ _ _ s
  case ltRespSet => exact writeEntry_nextKeeps _ _ _ _ _ _ s
  case gateRespond => exact (nextKeeps_upd s _).closing
  case gatePassword => exact (nextKeeps_upd s _).closing
  case gateClose => exact (nextKeeps_upd s _).closing
  case gateSessionExpiry => exact (nextKeeps_upd s _).closing
  case clockFault => exact execClockFault_nextKeeps _ _ s
  case clockRatioChange => exact execClockRatioChange_nextKeeps _ s
  case supplyHoldTimeout => exact execSupplyHoldTimeout_nextKeeps _ s
  case supplyReset => exact .ite (.of_keeps (warmReset_blk_keeps _ _ _)) (.unchanged s)
  case wearScheduledMeasurement => exact execWearScheduledMeasurement_nextKeeps _ s
  case wearMeasurementRerun => exact execWearMeasurementRerun_nextKeeps _ _ s
  case wearMeasure => exact execWearMeasure_nextKeeps _ _ s
  case tamperMesh => unfold exec execTamperMesh; exact nextKeeps_upd s _
  case supplyHoldEnd => unfold exec execSupplyHoldEnd; exact nextKeeps_upd s _
  all_goals exact nextKeeps_upd s _

theorem step_keeps {s t : State} (h : step s = .next t) : s.fuse.le t.fuse ∧ (ClocksLegal s.clk → ClocksLegal t.clk) := by
  unfold step at h
  split at h
  · obtain rfl : _ = t := by simpa using h
    exact ⟨FuseArray.le_refl _, id⟩
  · rename_i c rest hp
    obtain ⟨u, hu, hk⟩ := exec_nextKeeps c { s with pending := rest }
    obtain rfl : u = t := by simpa [hu] using h
    exact hk.2

/-- Settles O2. -/
theorem fusesOnlyBurn : Obligations.FusesOnlyBurn := fun _ _ h => (step_keeps h).1

/-- Settles O3. -/
theorem stepsKeepClocksLegal : Obligations.StepsKeepClocksLegal := fun _ _ hc h => (step_keeps h).2 hc

end Sys2Proof.Machine
end

section
/-!
SUPPORT. A step on an empty queue, the state after reset, the limits of a tagged port and the pieces of a range
(R304, R373, R529, R536, R537).
-/

namespace Sys2Proof.Machine

open Sys2Proof

/-! ## Steps and reset -/

/-- The same change of the entries below `n`, one after the other. -/
theorem get_foldl_mod_range {α : Type} [DecidableEq α] (f : α → α) (n : Nat) (t : Tab α) (k : Nat) :
    ((List.range n).foldl (fun t k => t.mod k f) t).get k = if k < n then f (t.get k) else t.get k := by
  induction n with
  | zero => simp
  | succ n ih =>
    rw [List.range_succ, List.foldl_append, List.foldl_cons, List.foldl_nil, Tab.get_mod]
    by_cases hk : k = n
    · subst hk; simp [ih]
    · rw [if_neg hk, ih]
      exact if_congr (by omega) rfl rfl

theorem idle_cores_get (b : Block) (k : Nat) : (idle b).cores.get k =
    if holding b 20 = false ∧ k < 8 ∧ (b.cores.get k).state = 2 then
      { b.cores.get k with state := 0, microcode := b.pack.microcode } else b.cores.get k := by
  have hc : (idle b).cores = if holding b 20 then b.cores else (List.range 8).foldl (fun t k => t.mod k (reloaded b)) b.cores := rfl
  rw [hc]
  cases hh : holding b 20 with
  | true => simp
  | false =>
    simp only [Bool.false_eq_true, if_false, get_foldl_mod_range, reloaded, beq_iff_eq, true_and, ite_and]

/-- Settles O1: the queue's front is what `step` runs, and an idle microsecond changes the time and the cores that reload. -/
theorem stepTakesFrontCommand : Obligations.StepTakesFrontCommand := by
  refine ⟨fun c s => rfl, fun s hp => ⟨(idle s.blk).cores, ?_, idle_cores_get s.blk⟩⟩
  rw [step, hp]
  rfl

/-- Settles O4. -/
theorem resetStateOfTheBlock : Obligations.ResetStateOfTheBlock :=
  ⟨clocksLegal_reset, rfl, rfl, rfl, rfl, rfl, fun _ => rfl, fun _ => show Slot.occupied {} = false by decide,
    fun _ => rfl, fun _ => rfl, rfl, rfl⟩

/-! ## Outstanding requests of a port (R536) -/

/-- The flight a request becomes when it is issued. -/
abbrev nextFlight (out : List Flight) (r : Req) : Flight := { tag := freeTag out, req := r }

/-- What every issue keeps of the outstanding requests, issuing on the port keeps. -/
theorem pumpGo_out_induction {p : Port} {P : List Flight → Prop}
    (hP : ∀ (st : PortSt) (r : Req), mayIssue p st r = true → P st.out → P (st.out ++ [nextFlight st.out r]))
    (held : Owner → Bool) (n : Nat) {st : PortSt} (h : P st.out) : P (pumpGo p held n st).out := by
  induction n generalizing st with
  | zero => exact h
  | succ n ih =>
    simp only [pumpGo]
    split
    · exact h
    · rename_i r hr
      have hm := (List.mem_filter.1 (bestReq_mem hr)).2
      exact ih (hP st r (by simp only [Bool.and_eq_true] at hm; exact hm.1) h)

/-- What every issue keeps of the outstanding requests, offering keeps. -/
theorem offer_out_induction {p : Port} {P : List Flight → Prop}
    (hP : ∀ (st : PortSt) (r : Req), mayIssue p st r = true → P st.out → P (st.out ++ [nextFlight st.out r]))
    (rs : List Req) {b : Block} (h : P (b.port p).out) : P ((offer p rs b).port p).out := by
  unfold offer pump
  split
  · simpa using h
  · rw [setPort_port_self]
    exact pumpGo_out_induction hP _ _ (by simpa using h)

/-- The tag an issue takes is no outstanding one's: of one tag more than there are requests outstanding, one is free. -/
theorem freeTag_not_mem (out : List Flight) : freeTag out ∉ out.map Flight.tag := by
  unfold freeTag
  cases hf : (List.range (out.length + 1)).find? fun t => out.all fun f => f.tag != t with
  | some t =>
    have := List.find?_some hf
    simp only [List.all_eq_true, bne_iff_ne] at this
    simpa using this
  | none =>
    have hsub : List.range (out.length + 1) ⊆ out.map Flight.tag := by
      intro t ht
      have := List.find?_eq_none.1 hf t ht
      simpa using this
    have := (List.nodup_range.subperm hsub).length_le
    simp at this

theorem offer_tags_nodup {p : Port} (rs : List Req) {b : Block} (h : ((b.port p).out.map Flight.tag).Nodup) :
    (((offer p rs b).port p).out.map Flight.tag).Nodup := by
  refine offer_out_induction (P := fun out => (out.map Flight.tag).Nodup) (fun st r _ hn => ?_) rs h
  rw [List.map_append, List.nodup_append]
  exact ⟨hn, List.nodup_singleton _, fun a ha c hc hac => freeTag_not_mem st.out (by simp_all)⟩

theorem offer_reads_le {p : Port} (rs : List Req) {b : Block}
    (h : ((b.port p).out.filter fun f => !f.req.write).length ≤ maxReads p) :
    (((offer p rs b).port p).out.filter fun f => !f.req.write).length ≤ maxReads p := by
  refine offer_out_induction (P := fun out => (out.filter fun f => !f.req.write).length ≤ maxReads p) (fun st r hm hn => ?_) rs h
  cases hw : r.write <;> simp_all [mayIssue, List.filter_append]

theorem offer_writes_le {p : Port} (rs : List Req) {b : Block}
    (h : ((b.port p).out.filter fun f => f.req.write).length ≤ maxWrites p) :
    (((offer p rs b).port p).out.filter fun f => f.req.write).length ≤ maxWrites p := by
  refine offer_out_induction (P := fun out => (out.filter fun f => f.req.write).length ≤ maxWrites p) (fun st r hm hn => ?_) rs h
  cases hw : r.write <;> simp_all [mayIssue, List.filter_append]

/-- Settles O5. -/
theorem offeredRequestsKeepPortLimits : Obligations.OfferedRequestsKeepPortLimits := fun p rs b =>
  ⟨offer_reqs p rs b, fun _ hq => offer_port_ne hq rs b, offer_still b p rs, offer_tags_nodup rs, offer_reads_le rs, offer_writes_le rs⟩

/-! ## Pieces inside aligned blocks (R537) -/

theorem mem_cut {n addr off len : Nat} {x : Nat × Nat × Nat} (h : x ∈ cut n addr off len) :
    0 < x.2.2 ∧ x.1 / 256 = (x.1 + x.2.2 - 1) / 256 ∧ x.1 + off = addr + x.2.1 ∧ off ≤ x.2.1 ∧ x.2.1 + x.2.2 ≤ off + len := by
  induction n generalizing addr off len with
  | zero => simp [cut] at h
  | succ n ih =>
    by_cases hl : len = 0
    · simp [cut, hl] at h
    · simp only [cut, hl, if_false, List.mem_cons] at h
      rcases h with rfl | h
      · dsimp only; omega
      · obtain ⟨h1, h2, h3, h4, h5⟩ := ih h
        exact ⟨h1, h2, by omega, by omega, by omega⟩

theorem cut_zero_length (n addr off : Nat) : cut n addr off 0 = [] := by cases n <;> simp [cut]

/-- With room for a piece in each block it touches, the pieces are the range. -/
theorem cut_sum {n addr off len : Nat} (h : addr % 256 + len ≤ 256 * n) : ((cut n addr off len).map fun x => x.2.2).sum = len := by
  induction n generalizing addr off len with
  | zero => simp [cut]; omega
  | succ n ih =>
    by_cases hl : len = 0
    · simp [cut, hl]
    · simp only [cut, hl, if_false, List.map_cons, List.sum_cons]
      rcases Nat.le_total len (256 - addr % 256) with hle | hle
      · simp [Nat.min_eq_left hle, cut_zero_length]
      · rw [Nat.min_eq_right hle, ih (by omega)]; omega

/-- Settles O6. -/
theorem piecesStayInAlignedBlocks : Obligations.PiecesStayInAlignedBlocks :=
  fun _ _ _ => ⟨fun _ hp => mem_cut hp, cut_sum (by omega)⟩

end Sys2Proof.Machine
end

section
/-!
SUPPORT. Halts of the rings of a stall, and the write requests of the doorbell window: which are handled, which wait and what each does
(R35 to R37, R46 to R65, R69, R539).
-/

namespace Sys2Proof.Machine

open Sys2Proof

/-! ## The interrupt message of a halt (R37, R69) -/

/-- The interrupt message a stall's registers describe. -/
def irqReq (b : Block) (n : Nat) : Req :=
  { write := true, addr := (b.stall n).irqAddr, len := 4, data := toLe 4 (b.stall n).irqData.toNat
    ident := stallIdent b n, owner := .irq (Fin.ofNat 512 n) }

/-- A stall's counting state after its message, when one is written. -/
def irqSent (irq : Bool) (q : Stall) : Stall :=
  { q with irqPending := if irq then 0 else q.irqPending, irqSince := if irq then none else q.irqSince }

theorem sendIrq_eq (n : Nat) (b : Block) : sendIrq n b = modStall n (irqSent true) (offer .rp [irqReq b n] b) := rfl

theorem haltIrq_stall_self (n : Nat) (b : Block) : (haltIrq n b).stall n = irqSent ((b.stall n).irqCtrl.getLsbD 0) (b.stall n) := by
  unfold haltIrq
  cases (b.stall n).irqCtrl.getLsbD 0
  · rfl
  · rw [when_true, sendIrq_eq, modStall_stall_self, Block.stall, offer_stalls]; rfl

theorem haltIrq_stall_ne {n m : Nat} (h : m ≠ n) (b : Block) : (haltIrq n b).stall m = b.stall m := by
  unfold haltIrq
  cases (b.stall n).irqCtrl.getLsbD 0
  · rfl
  · rw [when_true, sendIrq_eq, modStall_stall_ne h, Block.stall, offer_stalls]; rfl

@[simp] theorem haltIrq_lt (n : Nat) (b : Block) : (haltIrq n b).lt = b.lt := by
  unfold haltIrq
  cases (b.stall n).irqCtrl.getLsbD 0
  · rfl
  · rw [when_true, sendIrq_eq, modStall_lt, offer_lt]

theorem haltIrq_offered {n : Nat} {b : Block} (h : (b.stall n).irqCtrl.getLsbD 0 = true) : Offered (haltIrq n b) .rp (irqReq b n) := by
  rw [haltIrq, h, when_true, sendIrq_eq]
  exact offered_of_port (b := offer .rp [irqReq b n] b) rfl (offer_offered (List.mem_singleton_self _))

/-- Beside the stalls and the ports a halt's message changes nothing. -/
theorem haltIrq_still (n : Nat) (b : Block) (q : Tab Stall) (l : LeanTo) :
    { haltIrq n b with stalls := q, lt := l }.still = { b with stalls := q, lt := l }.still := by
  unfold haltIrq
  cases (b.stall n).irqCtrl.getLsbD 0
  · rfl
  · exact congrArg (fun x : Block => { x with stalls := q, lt := l }) (offer_still b .rp [irqReq b n])

/-! ## Halts (R35 to R37) -/

/-- A submission ring marked as halted. -/
abbrev haltedRing (g : Ring) : Ring := { g with halted := true }

/-- The block of a ring's halt before its message: ring and stall marked, the event raised. -/
def ringHalted (n r : Nat) (cause : BitVec 4) (b : Block) : Block :=
  raise evStallHalted (toLe 2 n ++ toLe 1 r) (modStall n (haltStall cause) (modRing n r haltedRing b))

theorem haltRing_eq {n r : Nat} {b : Block} (h : (b.ring n r).halted = false) (cause : BitVec 4) :
    haltRing n r cause b = haltIrq n (ringHalted n r cause b) := if_neg (by simp [h])

/-- What an event puts on the event path depends on that path, the start-up state and the response map alone. -/
theorem raise_lt_congr {b t : Block} (hl : t.lt = b.lt) (hb : t.boot = b.boot) (hy : t.ym = b.ym) (c : Nat) (d : Bytes) :
    (raise c d t).lt = (withEvent c d b).lt := by
  simp only [raise, raiseWith, modLt, withEvent, respOf, opening, hl, hb, hy]

/-- Beside the stalls and the event path a halt changes nothing but the ports. -/
theorem ringHalted_rest (n r : Nat) (cause : BitVec 4) (b : Block) (q : Tab Stall) (l : LeanTo) :
    { ringHalted n r cause b with stalls := q, lt := l } = { b with stalls := q, lt := l } := by simp [ringHalted]

theorem ringHalted_stall_self (n r : Nat) (cause : BitVec 4) (b : Block) :
    (ringHalted n r cause b).stall n = haltStall cause { b.stall n with rings := (b.stall n).rings.mod r haltedRing } := by
  simp [ringHalted, Block.stall]

theorem ringHalted_stall_ne {n m : Nat} (h : m ≠ n) (r : Nat) (cause : BitVec 4) (b : Block) :
    (ringHalted n r cause b).stall m = b.stall m := by
  simp [ringHalted, Block.stall, h]

/-- The block of the completion ring's halt before its message. -/
def cqHaltedBlock (n : Nat) (b : Block) : Block :=
  raise evStallHalted (toLe 2 n ++ toLe 1 4) (modStall n (fun s => { haltStall 3 s with cqHalted := true })
    (each [0, 1, 2, 3] (fun r => modRing n r haltedRing) b))

theorem haltCq_eq {n : Nat} {b : Block} (h : (b.stall n).cqHalted = false) : haltCq n b = haltIrq n (cqHaltedBlock n b) :=
  if_neg (by simp [h])

/-- The rings of a stall when all four submission rings have halted. -/
def allHalted (t : Tab Ring) : Tab Ring := (((t.mod 0 haltedRing).mod 1 haltedRing).mod 2 haltedRing).mod 3 haltedRing

theorem allHalted_get (t : Tab Ring) (k : Nat) : (allHalted t).get k = if k < 4 then haltedRing (t.get k) else t.get k := by
  by_cases hk : k < 4
  · interval_cases k <;> simp [allHalted]
  · have h0 : k ≠ 0 := by omega
    have h1 : k ≠ 1 := by omega
    have h2 : k ≠ 2 := by omega
    have h3 : k ≠ 3 := by omega
    simp [allHalted, hk, h0, h1, h2, h3]

theorem cqHaltedBlock_rest (n : Nat) (b : Block) (q : Tab Stall) (l : LeanTo) :
    { cqHaltedBlock n b with stalls := q, lt := l } = { b with stalls := q, lt := l } := by simp [cqHaltedBlock]

theorem cqHaltedBlock_stall_self (n : Nat) (b : Block) :
    (cqHaltedBlock n b).stall n = { haltStall 3 { b.stall n with rings := allHalted (b.stall n).rings } with cqHalted := true } := by
  simp [cqHaltedBlock, Block.stall, allHalted]

theorem cqHaltedBlock_stall_ne {n m : Nat} (h : m ≠ n) (b : Block) : (cqHaltedBlock n b).stall m = b.stall m := by
  simp [cqHaltedBlock, Block.stall, h]

theorem irqReq_ringHalted (n r : Nat) (cause : BitVec 4) (b : Block) : irqReq (ringHalted n r cause b) n = irqReq b n := by
  simp only [irqReq, stallIdent, ringHalted_stall_self, haltStall]

theorem irqReq_cqHaltedBlock (n : Nat) (b : Block) : irqReq (cqHaltedBlock n b) n = irqReq b n := by
  simp only [irqReq, stallIdent, cqHaltedBlock_stall_self, haltStall]

/-- Settles O9. -/
theorem haltOfARing : Obligations.HaltOfARing := by
  refine ⟨fun b n r cause => ⟨fun h => if_pos h, fun h => ?ring⟩, fun b n => ⟨fun h => if_pos h, fun h => ?cq⟩⟩
  case ring =>
    have hs : (haltRing n r cause b).stall n
        = irqSent ((b.stall n).irqCtrl.getLsbD 0) (haltStall cause { b.stall n with rings := (b.stall n).rings.mod r haltedRing }) := by
      rw [haltRing_eq h, haltIrq_stall_self, ringHalted_stall_self]; rfl
    have hr : (haltRing n r cause b).ring n = ((b.stall n).rings.mod r haltedRing).get := by
      funext k; rw [Block.ring, hs]; rfl
    refine ⟨by rw [hr]; exact Tab.get_mod_self .., fun k hk => by rw [hr]; exact Tab.get_mod_ne _ _ hk, fun k hk => ?_, hs ▸ rfl, ?_,
      fun hi => ?_, ?_⟩
    · rw [haltRing_eq h, haltIrq_stall_ne hk, ringHalted_stall_ne hk]
    · rw [haltRing_eq h, haltIrq_lt, ringHalted]
      exact raise_lt_congr (by simp) (by simp) (by simp) _ _
    · have ho := haltIrq_offered (n := n) (b := ringHalted n r cause b) (by rw [ringHalted_stall_self]; exact hi)
      rw [irqReq_ringHalted] at ho
      rw [haltRing_eq h]; exact ho
    · rw [haltRing_eq h]
      exact (haltIrq_still n (ringHalted n r cause b) b.stalls b.lt).trans (congrArg Block.still (ringHalted_rest n r cause b b.stalls b.lt))
  case cq =>
    have hs : (haltCq n b).stall n = irqSent ((b.stall n).irqCtrl.getLsbD 0)
        { haltStall 3 { b.stall n with rings := allHalted (b.stall n).rings } with cqHalted := true } := by
      rw [haltCq_eq h, haltIrq_stall_self, cqHaltedBlock_stall_self]; rfl
    have hr : (haltCq n b).ring n = (allHalted (b.stall n).rings).get := by
      funext k; rw [Block.ring, hs]; rfl
    refine ⟨fun k => by rw [hr]; exact allHalted_get _ k, fun k hk => ?_, hs ▸ rfl, ?_, fun hi => ?_, ?_⟩
    · rw [haltCq_eq h, haltIrq_stall_ne hk, cqHaltedBlock_stall_ne hk]
    · rw [haltCq_eq h, haltIrq_lt, cqHaltedBlock]
      exact raise_lt_congr (by simp) (by simp) (by simp) _ _
    · have ho := haltIrq_offered (n := n) (b := cqHaltedBlock n b) (by rw [cqHaltedBlock_stall_self]; exact hi)
      rw [irqReq_cqHaltedBlock] at ho
      rw [haltCq_eq h]; exact ho
    · rw [haltCq_eq h]
      exact (haltIrq_still n (cqHaltedBlock n b) b.stalls b.lt).trans (congrArg Block.still (cqHaltedBlock_rest n b b.stalls b.lt))

/-! ## Requests of the doorbell window (R48, R49, R73, R527, R539) -/

theorem dbWrite_no_credit {b : Block} (h : b.dbCredits = 0) (c : Instr) : dbWrite c b = b := by simp [dbWrite, h]

theorem dbWrite_before_ready {b : Block} (hc : 0 < b.dbCredits) (hr : b.boot.ready = false) (c : Instr) :
    dbWrite c b = dbAccess 0 b := by
  have : b.dbCredits ≠ 0 := by omega
  simp [dbWrite, this, hr]

theorem dbWrite_held {b : Block} (hc : 0 < b.dbCredits) (hr : b.boot.ready = true) (hh : dbHeld b = true) (c : Instr) :
    dbWrite c b = { dbAccess 0 b with dbFifo := b.dbFifo ++ [c] } := by
  have : b.dbCredits ≠ 0 := by omega
  simp [dbWrite, this, hr, hh]

/-- Outside the holds a request has entered the islands when it is handled, so its credit is back. -/
theorem dbWrite_serves {b : Block} (h : DoorbellServes b) (c : Instr) : dbWrite c b = handleDb c (dbEntered b) := by
  obtain ⟨hc, hr, hh⟩ := h
  have hne : b.dbCredits ≠ 0 := by omega
  have h22 : holding b 22 = false := by simp only [dbHeld, Bool.or_eq_false_iff] at hh; exact hh.2
  have hd : dbAccess 0 b = dbEntered b := by simp [dbAccess, dbEntered, h22]
  rw [← hd]; simp [dbWrite, hne, hr, hh]

section accept
variable {b : Block} {n : Nat} {pid : BitVec 20} {priv whole : Bool}

theorem doorbellWrite_accepted (h : Accepted (b.stall n) pid priv whole) (r : Nat) (v : BitVec 16) :
    doorbellWrite n r v pid priv whole b = producerWrite n r v (wake b) := if_pos ((dbAccepts_iff _ _ _ _).2 h)

theorem doorbellWrite_dropped (h : ¬ Accepted (b.stall n) pid priv whole) (r : Nat) (v : BitVec 16) :
    doorbellWrite n r v pid priv whole b = dbReject n (4 * r) pid b := if_neg (mt (dbAccepts_iff _ _ _ _).1 h)

theorem cqIdxWrite_accepted (h : Accepted (b.stall n) pid priv whole) (v : BitVec 16) :
    cqIdxWrite n v pid priv whole b = consumerWrite n v (wake b) := if_pos ((dbAccepts_iff _ _ _ _).2 h)

theorem cqIdxWrite_dropped (h : ¬ Accepted (b.stall n) pid priv whole) (v : BitVec 16) :
    cqIdxWrite n v pid priv whole b = dbReject n 0x10 pid b := if_neg (mt (dbAccepts_iff _ _ _ _).1 h)

theorem invalidateWrite_accepted (h : Accepted (b.stall n) pid priv whole) (m : BitVec 4) :
    invalidateWrite n m pid priv whole b = invalidate n m (wake b) := if_pos ((dbAccepts_iff _ _ _ _).2 h)

theorem invalidateWrite_dropped (h : ¬ Accepted (b.stall n) pid priv whole) (m : BitVec 4) :
    invalidateWrite n m pid priv whole b = dbReject n 0x14 pid b := if_neg (mt (dbAccepts_iff _ _ _ _).1 h)

end accept

/-- Settles O7. -/
theorem indexWritesMoveOrHalt : Obligations.IndexWritesMoveOrHalt := by
  refine ⟨fun s n r v pid priv whole => ⟨fun h => upd_gives (dbWrite_no_credit h _),
      fun hc hr => upd_gives (dbWrite_before_ready hc hr _), fun hc hr hh => upd_gives (dbWrite_held hc hr hh _),
      fun hs ha => upd_gives ((dbWrite_serves hs _).trans ?drop), fun hs ha hf => upd_gives ((dbWrite_serves hs _).trans ?move),
      fun hs ha hf => upd_gives ((dbWrite_serves hs _).trans ?lap)⟩,
    fun s n v pid priv whole => ⟨fun h => upd_gives (dbWrite_no_credit h _),
      fun hc hr => upd_gives (dbWrite_before_ready hc hr _), fun hc hr hh => upd_gives (dbWrite_held hc hr hh _),
      fun hs ha => upd_gives ((dbWrite_serves hs _).trans ?cqDrop), fun hs ha hf => upd_gives ((dbWrite_serves hs _).trans ?cqMove),
      fun hs ha hf => upd_gives ((dbWrite_serves hs _).trans ?cqHalt)⟩⟩
  case drop => exact doorbellWrite_dropped (b := dbEntered s.blk) ha r.val v
  case move =>
    exact (doorbellWrite_accepted (b := dbEntered s.blk) ha r.val v).trans (if_pos (decide_eq_true hf))
  case lap =>
    exact (doorbellWrite_accepted (b := dbEntered s.blk) ha r.val v).trans (if_neg (mt of_decide_eq_true (Nat.not_le.2 hf)))
  case cqDrop => exact cqIdxWrite_dropped (b := dbEntered s.blk) ha v
  case cqMove =>
    exact (cqIdxWrite_accepted (b := dbEntered s.blk) ha v).trans (if_pos (decide_eq_true hf))
  case cqHalt =>
    exact (cqIdxWrite_accepted (b := dbEntered s.blk) ha v).trans (if_neg (mt of_decide_eq_true (Nat.not_le.2 hf)))

/-! ## Invalidation (R46, R60) -/

/-- A ring whose captured descriptors are discarded and whose reads are marked. -/
def discarded (g : Ring) : Ring := { g with captured := [], fetching := g.fetching.map fun f => (f.1, f.2.1, f.2.2.1, true) }

theorem discarded_discarded (g : Ring) : discarded (discarded g) = discarded g := by simp [discarded]

theorem discardCaptured_stalls (n r : Nat) (b : Block) :
    (discardCaptured n r b).stalls = b.stalls.mod n fun s => { s with rings := s.rings.mod r discarded } := rfl

theorem discardCaptured_stall_self (n r : Nat) (b : Block) :
    (discardCaptured n r b).stall n = { b.stall n with rings := (b.stall n).rings.mod r discarded } := by
  rw [Block.stall, discardCaptured_stalls, Tab.get_mod_self]; rfl

theorem discardCaptured_stall_ne {n k : Nat} (h : k ≠ n) (r : Nat) (b : Block) : (discardCaptured n r b).stall k = b.stall k := by
  rw [Block.stall, discardCaptured_stalls, Tab.get_mod_ne _ _ h]; rfl

section discardAll
variable (n : Nat) (l : List Nat) (b : Block)

theorem each_discardCaptured_stall_ne {k : Nat} (h : k ≠ n) : (each l (discardCaptured n) b).stall k = b.stall k := by
  induction l generalizing b with
  | nil => rfl
  | cons r l ih => rw [each_cons, ih, discardCaptured_stall_ne h]

theorem each_discardCaptured_invMask : ((each l (discardCaptured n) b).stall n).invMask = (b.stall n).invMask := by
  induction l generalizing b with
  | nil => rfl
  | cons r l ih => rw [each_cons, ih, discardCaptured_stall_self]

theorem each_discardCaptured_ring (k : Nat) :
    (each l (discardCaptured n) b).ring n k = if k ∈ l then discarded (b.ring n k) else b.ring n k := by
  induction l generalizing b with
  | nil => simp
  | cons r l ih =>
    have hr : (discardCaptured n r b).ring n k = if k = r then discarded (b.ring n r) else b.ring n k := by
      rw [Block.ring, discardCaptured_stall_self]; exact Tab.get_mod _ _ _ _
    rw [each_cons, ih, hr]
    by_cases hk : k = r
    · subst hk; simp [discarded_discarded]
    · simp [hk]

theorem each_discardCaptured_still (q : Tab Stall) :
    { each l (discardCaptured n) b with stalls := q }.still = { b with stalls := q }.still := by
  induction l generalizing b with
  | nil => rfl
  | cons r l ih => rw [each_cons, ih]; rfl

end discardAll

theorem mem_maskRings (m : BitVec 4) (r : RingId) : r.val ∈ maskRings m ↔ m.getLsbD r.val = true := by
  unfold maskRings
  rw [List.mem_filter]
  have : r.val ∈ [0, 1, 2, 3] := by have := r.isLt; simp; omega
  simp [this]

theorem invReady_iff (b : Block) (n : Nat) : invReady b n = true ↔
    ∀ r : RingId, (b.stall n).invMask.getLsbD r.val = true → ∀ f ∈ (b.ring n r.val).fetching, f.2.2.2 = false := by
  simp only [invReady, List.all_eq_true, Bool.not_eq_true']
  refine ⟨fun h r hr => h r.val ((mem_maskRings _ r).2 hr), fun h r hr => ?_⟩
  have hlt : r < 4 := by
    have := (List.mem_filter.1 hr).1
    simp only [List.mem_cons, List.not_mem_nil, or_false] at this
    omega
  exact h ⟨r, hlt⟩ ((mem_maskRings _ ⟨r, hlt⟩).1 hr)

/-- Settles O8. -/
theorem invalidationOfCapturedDescriptors : Obligations.InvalidationOfCapturedDescriptors := by
  refine fun s n m pid priv whole => ⟨fun h => upd_gives (dbWrite_no_credit h _),
    fun hc hr => upd_gives (dbWrite_before_ready hc hr _), fun hc hr hh => upd_gives (dbWrite_held hc hr hh _),
    fun hs ha => upd_gives ((dbWrite_serves hs _).trans (invalidateWrite_dropped (b := dbEntered s.blk) ha m)),
    fun hs ha hm => upd_gives ((dbWrite_serves hs _).trans
      ((invalidateWrite_accepted (b := dbEntered s.blk) ha m).trans (by subst hm; rfl))),
    fun hs ha hm => ?mask, fun hr hh => ⟨fun hq => ?clear, fun hq => ?pending⟩⟩
  case mask =>
    let w := wake (dbEntered s.blk)
    let t := modStall n.val (fun q => { q with invMask := q.invMask ||| m }) (each (maskRings m) (discardCaptured n.val) w)
    have ht : invalidate n.val m w = t := by
      have : (m != 0) = true := by simpa using hm
      simp only [invalidate, this, when_true]; rfl
    refine ⟨t, upd_gives ((dbWrite_serves hs _).trans ((invalidateWrite_accepted (b := dbEntered s.blk) ha m).trans ht)),
      ?_, fun k hk => ?_, fun r => ?_, ?_⟩
    · rw [modStall_stall_self, each_discardCaptured_invMask]; rfl
    · rw [modStall_stall_ne hk, each_discardCaptured_stall_ne _ _ _ hk]; rfl
    · have : t.ring n.val r.val = (each (maskRings m) (discardCaptured n.val) w).ring n.val r.val := by
        rw [Block.ring, modStall_stall_self]; rfl
      rw [this, each_discardCaptured_ring]
      exact if_congr (mem_maskRings m r) rfl rfl
    · exact each_discardCaptured_still n.val (maskRings m) w s.blk.stalls
  case clear =>
    exact updOn_gives hr hh (by rw [invalidateDone, (invReady_iff _ _).2 hq, when_true])
  case pending =>
    have hn : invReady s.blk n.val = false := by
      obtain ⟨r, hm, f, hf, hd⟩ := hq
      refine Bool.eq_false_iff.2 fun h => ?_
      have := (invReady_iff _ _).1 h r hm f hf
      simp [hd] at this
    exact updOn_gives hr hh (by rw [invalidateDone, hn, when_false])

end Sys2Proof.Machine
end

section
/-!
SUPPORT. Fetch and capture of descriptors, and the charge a dispatch notes in its job (R54 to R60, R252, R274, R355, R364).
-/

namespace Sys2Proof.Machine

open Sys2Proof

/-! ## Fetch (R54, R58) -/

theorem fetchCount_fits {g : Ring} (h : fetchCount g ≠ 0) :
    cachedCount g + fetchCount g ≤ 8 ∧ cachedCount g + fetchCount g ≤ announced g := by
  unfold fetchCount at h ⊢
  dsimp only at h ⊢
  omega

/-- A read starts at the same place of the ring whether its index has wrapped or not. -/
theorem fetchFirst_mod {g : Ring} (hk : g.k ≤ 15) (n : Nat) :
    (g.cons + BitVec.ofNat 16 n).toNat % 2 ^ g.k = (g.cons.toNat + n) % 2 ^ g.k := by
  rw [BitVec.toNat_add, BitVec.toNat_ofNat, Nat.add_mod_mod, Nat.mod_mod_of_dvd _ (Nat.pow_dvd_pow 2 (by omega))]

/-- A read ends within the ring: it stays in an aligned group of four descriptors, and the ring is whole groups. -/
theorem fetch_in_ring {g : Ring} (h2 : 2 ≤ g.k) (hk : g.k ≤ 15) :
    (g.cons + BitVec.ofNat 16 (cachedCount g)).toNat % 2 ^ g.k + fetchCount g ≤ 2 ^ g.k := by
  rw [fetchFirst_mod hk]
  have hc : fetchCount g ≤ 4 - (g.cons.toNat + cachedCount g) % 2 ^ g.k % 4 := Nat.min_le_right _ _
  obtain ⟨m, hm⟩ : 4 ∣ 2 ^ g.k := Nat.pow_dvd_pow 2 h2
  have hlt := Nat.mod_lt (g.cons.toNat + cachedCount g) (Nat.two_pow_pos g.k)
  omega

@[simp] theorem ofNat_stallId (n : StallId) : Fin.ofNat 512 n.val = n := Fin.ofNat_val_eq_self n
@[simp] theorem ofNat_ringId (r : RingId) : Fin.ofNat 4 r.val = r := Fin.ofNat_val_eq_self r

/-- Settles O10. -/
theorem descriptorFetchReadsAnnounced : Obligations.DescriptorFetchReadsAnnounced := by
  refine fun s n r => ⟨fun hr hh hf hm hk => updOn_sends hr hh rfl ?_, fetchCount_fits, fun h2 hk => fetch_in_ring h2 hk⟩
  unfold fetchDesc
  dsimp only
  rw [if_neg (by simp only [hf, hm]; simp [hk]), ofNat_stallId, ofNat_ringId]

/-! ## Capture (R58, R60, R542) -/

theorem modRing_congr {n r : Nat} {f g : Ring → Ring} {b : Block} (h : f (b.ring n r) = g (b.ring n r)) :
    modRing n r f b = modRing n r g b :=
  modStall_congr (congrArg (fun t => { b.stall n with rings := t })
    (Tab.mod_congr (show f ((b.stall n).rings.get r) = g ((b.stall n).rings.get r) from h)))

/-- Settles O11. -/
theorem descriptorsAreCaptured : Obligations.DescriptorsAreCaptured := by
  refine fun s n r hr hh => ⟨fun first k buf drop rest hg hb => updOn_gives hr hh (modRing_congr ?capture),
    fun c hc => updOn_sends hr hh rfl ?params⟩
  case capture =>
    have hreturned : (!(buf.full || buf.err)) = false := by rcases hb with hb | hb <;> simp [hb]
    simp only [hg, hreturned, Bool.false_eq_true, if_false]
    cases drop <;> rfl
  case params =>
    unfold readPblk
    rw [hc, ofNat_stallId, ofNat_ringId]
    rfl

/-! ## Dispatch (R355, R364) -/

theorem gives_unique {c : Instr} {s : State} {a b : Block} (ha : Gives c s a) (hb : Gives c s b) : a = b := by
  have h := ha.symm.trans hb
  injection h with h
  injection h

/-- A SHA-256 digest of one byte. -/
def digestHead : Captured := { desc := { opcode := 0x20, variant := 1, srcLen := 1 } }

/-- An ACTIVE stall with an urgent share and full budgets, and that digest at the head of its SQ0. -/
def urgentDigest : State :=
  { blk :=
      { boot := { step := 10, ready := true, sealClear := true }
        stalls := ({ dflt := {} } : Tab Stall).set 0
          { state := .active, pid := some 5, urgentShare := 1, tokens := (1, 1, 1)
            rings := ({ dflt := {} } : Tab Ring).set 0 { prod := 1, captured := [digestHead] } } } }

/-- The estimated cost of the digest is charged to the urgent budget and noted in its entry. -/
theorem urgentDigest_charged :
    ((jobDispatch urgentDigest.blk).job (freeJob (refilled urgentDigest.blk))).map Job.charged = some 65 := by decide +kernel

/-- Refutes O12: a dispatch that charges the urgent budget notes the charge in the entry (R364), which the statement's
entry, the bare `newJob`, leaves 0. A digest of one byte dispatched from SQ0 of a stall with an urgent share is charged 65 ns. -/
theorem not_dispatchConsumesTheHead : ¬ Obligations.DispatchConsumesTheHead := by
  unfold Obligations.DispatchConsumesTheHead
  intro h
  obtain ⟨-, hserve⟩ := h urgentDigest (by decide) (by decide)
  obtain ⟨-, -, -, hplain⟩ := hserve 0 0 0 digestHead (by decide) (by decide)
  obtain ⟨t, ht, hj, -⟩ := hplain (by decide) (by decide) (by decide)
  have hgives : Gives .jobDispatch urgentDigest (jobDispatch urgentDigest.blk) := updOn_gives (by decide) (by decide) rfl
  rw [gives_unique ht hgives] at hj
  have hcharge := urgentDigest_charged.symm.trans (congrArg (Option.map Job.charged) hj)
  exact absurd hcharge (by decide)

end Sys2Proof.Machine
end

section
/-!
SUPPORT. What the checks of stored keys, the room they need and the key bus leave as they are: the jobs, the stalls, the units, the
start-up state (R14, R163, R189, R196, R197).
-/

namespace Sys2Proof.Machine

open Sys2Proof

/-- What `each` keeps, when every run of its body keeps it. -/
theorem each_keeps {α β : Type} {g : Block → β} {f : α → Block → Block} (h : ∀ x b, g (f x b) = g b) (l : List α) (b : Block) :
    g (each l f b) = g b := by
  induction l generalizing b with
  | nil => rfl
  | cons x l ih => rw [each_cons, ih, h]

theorem when_keeps {β : Type} {g : Block → β} {f : Block → Block} (h : ∀ b, g (f b) = g b) (c : Bool) (b : Block) :
    g (when c f b) = g b := by
  cases c
  · rfl
  · exact h b

theorem job_of_jobs {b t : Block} (h : t.jobs = b.jobs) (i : Nat) : t.job i = b.job i := by rw [Block.job, h]; rfl

/-! ## Integrity tags (R189) -/

section sys
variable (i : Nat) (b : Block)

/-- A check of a system slot changes the tack room, the event path and the count of draws, nothing else. -/
theorem sysFailed_frame (stuck : Bool) : ∃ (t : Tack) (l : LeanTo) (d : Nat), sysFailed stuck i b = { b with tack := t, lt := l, draws := d } := by
  unfold sysFailed
  dsimp only
  split
  · exact ⟨_, _, _, rfl⟩
  · split
    · exact ⟨_, _, _, rfl⟩
    · split
      · exact ⟨_, _, _, rfl⟩
      · split
        · split <;> exact ⟨_, _, _, rfl⟩
        · exact ⟨_, _, _, rfl⟩

theorem redrawState_frame : ∃ (t : Tack) (d : Nat), redrawState b = { b with tack := t, draws := d } := by
  unfold redrawState
  split
  · split <;> exact ⟨_, _, rfl⟩
  · exact ⟨_, _, rfl⟩

theorem checkSys_frame : ∃ (t : Tack) (l : LeanTo) (d : Nat), checkSys i b = { b with tack := t, lt := l, draws := d } := by
  obtain ⟨t, d, ht⟩ := redrawState_frame b
  have hb : ∃ (t : Tack) (d : Nat), (if i == 2 then redrawState b else b) = { b with tack := t, draws := d } := by
    split
    · exact ⟨t, d, ht⟩
    · exact ⟨_, _, rfl⟩
  obtain ⟨t1, d1, h1⟩ := hb
  unfold checkSys
  dsimp only
  rw [h1]
  split
  · exact ⟨_, _, _, rfl⟩
  · obtain ⟨t2, l2, d2, h2⟩ := sysFailed_frame i { b with tack := t1, draws := d1 } false
    exact ⟨t2, l2, d2, h2⟩

theorem checkSk_frame : ∃ (t : Tack) (l : LeanTo), checkSk i b = { b with tack := t, lt := l } := by
  have hbad : ∃ (t : Tack) (l : LeanTo), skMarkBad i b = { b with tack := t, lt := l } := by
    unfold skMarkBad
    cases (!anyHold b)
    · exact ⟨_, _, rfl⟩
    · exact ⟨_, _, rfl⟩
  unfold checkSk
  cases ((b.sk i).state == 1 && !skTagOk b i)
  · exact ⟨_, _, rfl⟩
  · exact hbad

theorem useSys_frame : ∃ (t : Tack) (l : LeanTo) (d : Nat), useSys i b = { b with tack := t, lt := l, draws := d } := by
  obtain ⟨t1, l1, d1, h1⟩ := checkSys_frame 0 b
  obtain ⟨t2, l2, d2, h2⟩ := checkSys_frame i { b with tack := t1, lt := l1, draws := d1 }
  exact ⟨t2, l2, d2, by rw [useSys, h1, h2]⟩

theorem useSk_frame : ∃ (t : Tack) (l : LeanTo) (d : Nat), useSk i b = { b with tack := t, lt := l, draws := d } := by
  obtain ⟨t1, l1, d1, h1⟩ := checkSys_frame 0 b
  obtain ⟨t2, l2, h2⟩ := checkSk_frame i { b with tack := t1, lt := l1, draws := d1 }
  exact ⟨t2, l2, d1, by rw [useSk, h1, h2]⟩

theorem useNamedKey_frame (n : Nat) (source : Bool) (x : BlobRead) :
    ∃ (t : Tack) (l : LeanTo) (d : Nat), useNamedKey n source x b = { b with tack := t, lt := l, draws := d } := by
  obtain ⟨t1, l1, d1, h1⟩ := checkSys_frame 0 b
  unfold useNamedKey
  dsimp only
  rw [h1]
  cases (blobHeadOk { b with tack := t1, lt := l1, draws := d1 } x.head.bytes
      && blobStallOk { b with tack := t1, lt := l1, draws := d1 } n source (field x.head.bytes 6 2))
  · exact ⟨_, _, _, rfl⟩
  · obtain ⟨t2, l2, h2⟩ := checkSk_frame (field x.head.bytes 6 2) { b with tack := t1, lt := l1, draws := d1 }
    exact ⟨t2, l2, d1, h2⟩

@[simp] theorem checkSys_jobs : (checkSys i b).jobs = b.jobs := by obtain ⟨t, l, d, h⟩ := checkSys_frame i b; rw [h]
@[simp] theorem checkSys_stalls : (checkSys i b).stalls = b.stalls := by obtain ⟨t, l, d, h⟩ := checkSys_frame i b; rw [h]
@[simp] theorem checkSys_boot : (checkSys i b).boot = b.boot := by obtain ⟨t, l, d, h⟩ := checkSys_frame i b; rw [h]
@[simp] theorem checkSys_holds : (checkSys i b).holds = b.holds := by obtain ⟨t, l, d, h⟩ := checkSys_frame i b; rw [h]
@[simp] theorem useSys_jobs : (useSys i b).jobs = b.jobs := by obtain ⟨t, l, d, h⟩ := useSys_frame i b; rw [h]
@[simp] theorem useSk_jobs : (useSk i b).jobs = b.jobs := by obtain ⟨t, l, d, h⟩ := useSk_frame i b; rw [h]

end sys

/-! ## Slots given up and taken (R191, R196, R197) -/

@[simp] theorem dropKey_jobs (i : Nat) (b : Block) : (dropKey i b).jobs = b.jobs :=
  each_keeps (g := Block.jobs) (f := fun k b => genRose k (modSlot k clearedSlot b)) (fun _ _ => rfl) _ b
@[simp] theorem touch_jobs (i : Nat) (b : Block) : (touch i b).jobs = b.jobs := rfl

@[simp] theorem touchKey_jobs (k : KeyCopy) (b : Block) : (touchKey k b).jobs = b.jobs := by
  unfold touchKey; split <;> rfl

/-- What giving up a key keeps, making room keeps. -/
theorem makeRoom_keeps {β : Type} {g : Block → β} (h : ∀ i b, g (dropKey i b) = g b) {who : Option Nat} {k : Nat} {pinned : Bool} {n : Nat}
    {b c : Block} (hc : makeRoom who k pinned n b = some c) : g c = g b := by
  induction n generalizing b with
  | zero =>
    simp only [makeRoom, Option.ite_none_right_eq_some, Option.some.injEq] at hc
    rw [hc.2]
  | succ n ih =>
    unfold makeRoom at hc
    split at hc
    · rw [Option.some.inj hc]
    · split at hc
      · cases hc
      · rw [ih hc, h]

theorem takeSlots_keeps {β : Type} {g : Block → β} (h : ∀ i b, g (dropKey i b) = g b) {who : Option Nat} {k : Nat} {pinned : Bool}
    {first : Option Nat} {b c : Block} {l : List Nat} (hc : takeSlots who k pinned first b = some (l, c)) : g c = g b := by
  unfold takeSlots at hc
  split at hc
  · cases hc
  · rename_i b1 hb1
    dsimp only at hc
    rw [Option.ite_none_right_eq_some] at hc
    obtain ⟨-, hc⟩ := hc
    rw [← (Prod.mk.inj (Option.some.inj hc)).2]
    exact makeRoom_keeps h hb1

theorem takeSlots_jobs {who : Option Nat} {k : Nat} {pinned : Bool} {first : Option Nat} {b c : Block} {l : List Nat}
    (hc : takeSlots who k pinned first b = some (l, c)) : c.jobs = b.jobs := takeSlots_keeps (g := Block.jobs) dropKey_jobs hc

/-! ## Shares (R14, R219) -/

theorem length_xorBytes (x y : Bytes) : (xorBytes x y).length = min x.length y.length := List.length_zipWith

/-- The mask of a sharing cancels. -/
theorem xorBytes_cancel {x m : Bytes} (h : x.length = m.length) : xorBytes (xorBytes x m) m = x := by
  induction x generalizing m with
  | nil => simp [xorBytes]
  | cons a x ih =>
    cases m with
    | nil => simp at h
    | cons c m =>
      have := ih (m := m) (by simpa using h)
      simp only [xorBytes, List.zipWith_cons_cons, BitVec.xor_assoc, BitVec.xor_self, BitVec.xor_zero] at this ⊢
      rw [this]

theorem xorBytes_right_comm (x y z : Bytes) : xorBytes (xorBytes x y) z = xorBytes (xorBytes x z) y := by
  induction x generalizing y z with
  | nil => simp [xorBytes]
  | cons a x ih =>
    cases y with
    | nil => cases z <;> simp [xorBytes]
    | cons c y =>
      cases z with
      | nil => simp [xorBytes]
      | cons d z =>
        have := ih y z
        simp only [xorBytes, List.zipWith_cons_cons] at this ⊢
        rw [this, BitVec.xor_assoc, BitVec.xor_comm c d, ← BitVec.xor_assoc]

@[simp] theorem length_drbgNow (b : Block) (n : Nat) : (drbgNow b n).length = n := length_fit _ _
@[simp] theorem length_freeNow (b : Block) (n : Nat) : (freeNow b n).length = n := length_fit _ _

theorem unshare_share2 (b : Block) (x : Bytes) : unshare (share2 b x) = x := xorBytes_cancel (by simp)

/-- A third share leaves the value. -/
theorem unshare_share3 (b : Block) {x m : Bytes} (h : m.length = x.length) : unshare (share3 b [x, m]) = xorBytes x m := by
  have hg : (xorBytes x m).length = (freeNow b x.length).length := by simp [length_xorBytes, h]
  show xorBytes (xorBytes (xorBytes x (freeNow b x.length)) m) (freeNow b x.length) = xorBytes x m
  rw [xorBytes_right_comm x, xorBytes_cancel hg]

theorem sendKey_material (cipher : Bool) (k : KeyCopy) (b : Block) : (sendKey cipher k b).1.material = k.material := by
  cases cipher
  · exact unshare_share2 b k.material
  · refine (unshare_share3 (drew b) ?_).trans (unshare_share2 b k.material)
    simp [length_xorBytes]

theorem sendKey_shares_length (cipher : Bool) (k : KeyCopy) (b : Block) :
    (sendKey cipher k b).1.shares.length = if cipher then 3 else 2 := by cases cipher <;> rfl

@[simp] theorem sendKey_jobs (cipher : Bool) (k : KeyCopy) (b : Block) : (sendKey cipher k b).2.jobs = b.jobs := by
  cases cipher <;> rfl

@[simp] theorem sendKeys_jobs (cipher : Bool) (l : List KeyCopy) (b : Block) : (sendKeys cipher l b).2.jobs = b.jobs := by
  induction l generalizing b with
  | nil => rfl
  | cons k l ih => rw [sendKeys]; exact (ih _).trans (sendKey_jobs _ _ _)

/-! ## A job whose preparation goes on -/

/-- A job that is not prepared settles nothing. -/
theorem settle_unprepared {i : Nat} {j : Job} {b : Block} (hj : b.job i = some j) (h : prepared j = false) : settle i b = b := by
  unfold settle
  rw [hj]
  dsimp only
  split
  · rfl
  · split
    · simp [h]
    · simp [mayStart, h]

end Sys2Proof.Machine
end

section
/-!
SUPPORT. The key decision: what it refuses, what it releases, and what a repeated one does (R14, R15, R24, R25, R165, R170, R197, R246).
-/

namespace Sys2Proof.Machine

open Sys2Proof

/-! ## Conditions a decision finds -/

theorem mem_cond {c : Bool} {x y : Status} : y ∈ cond c x ↔ c = true ∧ y = x := by cases c <;> simp [cond]

section sealed
variable (b : Block) (j : Job) (second again : Bool)

theorem keysSealed_notMem_recConds (s : Slot) : Status.keysSealed ∉ recConds b j second again s := by simp [recConds, mem_cond]

theorem keysSealed_notMem_slotConds (i : Nat) : Status.keysSealed ∉ slotConds b j second again i := by
  unfold slotConds
  dsimp only
  split
  · simp
  · exact keysSealed_notMem_recConds _ _ _ _ _

theorem keysSealed_notMem_skConds (m : Nat) : Status.keysSealed ∉ skConds b j second m := by
  unfold skConds
  split <;> simp [mem_cond]

theorem keysSealed_notMem_unreadConds (x : BlobRead) : Status.keysSealed ∉ unreadConds b j x := by
  unfold unreadConds
  dsimp only
  split
  · split
    · simp
    · split
      · exact keysSealed_notMem_recConds _ _ _ _ _
      · simp
  · simp [mem_cond]

theorem keysSealed_notMem_keyConds : Status.keysSealed ∉ keyConds b j second again := by
  unfold keyConds
  split
  · split
    · simp [keysSealed_notMem_unreadConds]
    · split
      · split <;> simp
      · split
        · exact keysSealed_notMem_slotConds _ _ _ _ _
        · simp
  · split
    · exact keysSealed_notMem_slotConds _ _ _ _ _
    · exact keysSealed_notMem_skConds _ _ _ _
    · simp

theorem keysSealed_notMem_subjectConds : Status.keysSealed ∉ subjectConds b j := by
  unfold subjectConds
  split
  · simp
  · split <;> simp [mem_cond]
  · dsimp only
    split <;> simp [mem_cond]

/-- Only a seal decides with KEYS_SEALED (R165). -/
theorem keysSealed_notMem_decision (h : sealDecides b j = false) : Status.keysSealed ∉ decision b j again := by
  unfold decision
  rw [h, if_neg Bool.false_ne_true]
  split
  · simp
  · refine List.not_mem_append (List.not_mem_append (keysSealed_notMem_keyConds b j false again) ?_) ?_
    · split
      · simp [mem_cond, keysSealed_notMem_keyConds]
      · simp
    · split
      · exact keysSealed_notMem_subjectConds b j
      · simp

end sealed

/-! ## The steps of a first decision -/

section first
variable {b : Block} {i : Nat} {j : Job}

/-- The job after a decision that adds conditions. -/
abbrev refusedWith (sts : List Status) (subject : Option Nat) (x : Job) : Job :=
  { x with keyDone := true, found := x.found ++ sts, subject }

theorem decided_sealed (hj : b.job i = some j) : decided i [.keysSealed] b = modJob i (refusedWith [.keysSealed] none) b := by
  simp [decided, hj]

theorem decided_conditions (hj : b.job i = some j) {sts : List Status} (hne : sts ≠ []) (hs : Status.keysSealed ∉ sts) :
    decided i sts b = modJob i (refusedWith sts (subjectLen b j)) b := by
  simp [decided, hj, hne, hs]

theorem decided_none (hj : b.job i = some j) : decided i [] b = giveKeys i j (each (released b j) touchKey
    (modJob i (fun x => { x with keyDone := true, passed4a := true, subject := subjectLen b j }) b)) := by
  simp [decided, hj]

theorem checkAttr_done (hj : b.job i = some j) (h : j.attrDone = true) : checkAttr i b = b := by simp [checkAttr, hj, h]

theorem unwrapSlots_other (hj : b.job i = some j) (h : ¬ (j.desc.op = 0x30 ∧ j.desc.variant = 0 ∧ j.found = [] ∧ j.target = [])) :
    unwrapSlots i b = b := by
  unfold unwrapSlots
  rw [hj]
  dsimp only
  rw [if_neg (by simpa [and_assoc] using h)]

theorem keepSlots_held (hj : b.job i = some j) {k : Nat} (h : anyHold b = true) (hr : roomFor b (some j.stall.val) k true = false)
    (first : Option Nat) (nk : Option NewKey) : keepSlots i k first nk b = b := by simp [keepSlots, hj, h, hr]

theorem keepSlots_full (hj : b.job i = some j) {k : Nat} {first : Option Nat}
    (h : takeSlots (some j.stall.val) k true first b = none) (nk : Option NewKey) : keepSlots i k first nk b = b := by
  simp only [keepSlots, hj, h]
  split <;> rfl

theorem keepSlots_taken (hj : b.job i = some j) {k : Nat} {first : Option Nat} {l : List Nat} {c : Block}
    (hr : anyHold b = false ∨ roomFor b (some j.stall.val) k true = true)
    (h : takeSlots (some j.stall.val) k true first b = some (l, c)) (nk : Option NewKey) :
    keepSlots i k first nk b = modJob i (fun j => { j with newKey := nk, target := l, attrDone := true }) c := by
  have hc : (anyHold b && !roomFor b (some j.stall.val) k true) = false := by rcases hr with hr | hr <;> simp [hr]
  simp [keepSlots, hj, h, hc]

/-- Slots a KEY_UNWRAP asks for. -/
abbrev unwrapLen (j : Job) : Nat := max 1 (ceilDiv (j.desc.sLen - 80) 64)

theorem unwrapSlots_eq (hj : b.job i = some j) (h1 : j.desc.op = 0x30) (h2 : j.desc.variant = 0) (h3 : j.found = []) (h4 : j.target = []) :
    unwrapSlots i b = match ((keepSlots i (unwrapLen j) none none b).job i).map fun x => x.target with
      | some [] => modJob i (fun j => { j with keyDone := false }) (keepSlots i (unwrapLen j) none none b)
      | _ => keepSlots i (unwrapLen j) none none b := by
  simp only [unwrapSlots, hj]
  rw [if_pos (by simp [h1, h2, h3, h4])]
  rfl

/-- Without room, or while slots may not be written, the decision is taken again. -/
theorem unwrapSlots_waits (hj : b.job i = some j) (h1 : j.desc.op = 0x30) (h2 : j.desc.variant = 0) (h3 : j.found = []) (h4 : j.target = [])
    (h : (anyHold b = true ∧ roomFor b (some j.stall.val) (unwrapLen j) true = false)
      ∨ takeSlots (some j.stall.val) (unwrapLen j) true none b = none) :
    unwrapSlots i b = modJob i (fun j => { j with keyDone := false }) b := by
  have hk : keepSlots i (unwrapLen j) none none b = b := by
    rcases h with ⟨ha, hr⟩ | h
    · exact keepSlots_held hj ha hr _ _
    · exact keepSlots_full hj h _
  rw [unwrapSlots_eq hj h1 h2 h3 h4, hk, hj]
  simp only [Option.map_some, h4]

theorem unwrapSlots_taken (hj : b.job i = some j) (h1 : j.desc.op = 0x30) (h2 : j.desc.variant = 0) (h3 : j.found = []) (h4 : j.target = [])
    {l : List Nat} {c : Block} (hr : anyHold b = false ∨ roomFor b (some j.stall.val) (unwrapLen j) true = true)
    (h : takeSlots (some j.stall.val) (unwrapLen j) true none b = some (l, c)) (hl : l ≠ []) :
    unwrapSlots i b = modJob i (fun j => { j with newKey := none, target := l, attrDone := true }) c := by
  have hc : c.job i = some j := (job_of_jobs (takeSlots_jobs h) i).trans hj
  rw [unwrapSlots_eq hj h1 h2 h3 h4, keepSlots_taken hj hr h, modJob_job hc]
  cases l with
  | nil => exact absurd rfl hl
  | cons x l => rfl

/-- The block a first decision judges: the tag of the stall key it names has been looked at (R189). -/
abbrev judged (j : Job) (b : Block) : Block := when (usesOwnSk j) (useSk j.stall.val) b

theorem judged_job (hj : b.job i = some j) : (judged j b).job i = some j :=
  (job_of_jobs (when_keeps (g := Block.jobs) (useSk_jobs _) _ _) i).trans hj

/-- A first decision whose engine is named and whose inputs are there (R15, R165). -/
theorem keyDecision_first (hj : b.job i = some j) (hst : j.started = false) (hw : j.stage = .waiting) (hm : mayProceed b j = true)
    (hk : j.keyDone = false) (he : j.engine.isSome = true) (ha : j.attrDone = true) (hb : blobsReady b j = true) (t : Take) :
    keyDecision i t b = settle i (unwrapSlots i (checkAttr i (firstDecision i j t b))) := by
  have hn : j.engine.isNone = false := by cases h : j.engine <;> simp_all
  have hr : attrReady j = true := by simp [attrReady, ha]
  simp [keyDecision, hj, hst, hw, hm, hk, hn, hr, hb]

/-- The report both checks make together when the decision found something (R25): nothing more is done to the job. -/
theorem report_refused (hj : b.job i = some j) (ha : j.attrDone = true) (hf : j.found ≠ []) :
    settle i (unwrapSlots i (checkAttr i b)) = settle i b := by
  rw [checkAttr_done hj ha, unwrapSlots_other hj (fun h => hf h.2.2.1)]

theorem firstDecision_sealed (ht : takesKey j.desc = true) (hk : j.keyDone = false) (t : Take)
    (h : sealDecides (judged j b) j = true ∨ (b.boot.entropyStopped = true ∨ t = .cut)) :
    firstDecision i j t b = decided i [.keysSealed] (judged j b) := by
  unfold firstDecision
  dsimp only
  rw [if_neg (by simp [ht, hk])]
  rcases h with h | h | h
  · rw [if_pos h]
  · rw [if_pos h, ite_self]
  · subst h
    split
    · rfl
    · split
      · rfl
      · rfl

theorem firstDecision_split (ht : takesKey j.desc = true) (hk : j.keyDone = false) (hs : sealDecides (judged j b) j = false)
    (he : b.boot.entropyStopped = false) :
    firstDecision i j .split b = raise evDecisionSplit [] (decided i [.keysSealed] (judged j b)) := by
  unfold firstDecision
  dsimp only
  rw [if_neg (by simp [ht, hk]), if_neg (by simp [hs]), if_neg (by simp [he]), if_pos rfl]

theorem firstDecision_agree (ht : takesKey j.desc = true) (hk : j.keyDone = false) (hs : sealDecides (judged j b) j = false)
    (he : b.boot.entropyStopped = false) :
    firstDecision i j .agree b = decided i (decision (judged j b) j false) (judged j b) := by
  unfold firstDecision
  dsimp only
  rw [if_neg (by simp [ht, hk]), if_neg (by simp [hs]), if_neg (by simp [he]), if_neg (by simp), if_neg (by simp)]

/-- The job that has its keys: everything but its key fields is as it was. -/
theorem giveKeys_job (hj : b.job i = some j) (j0 : Job) :
    (giveKeys i j0 b).job i = some { j with keys := (sendKeys (opClass j0.desc.op == some .cipher) (released b j0) b).1 } := by
  unfold giveKeys
  exact modJob_job ((job_of_jobs (sendKeys_jobs _ _ _) i).trans hj) _

/-- The block of attributes of a job is read once (R171). -/
theorem keyDecision_asks (hj : b.job i = some j) (hst : j.started = false) (hw : j.stage = .waiting) (hm : mayProceed b j = true)
    (ha : j.attrDone = false) (hblk : j.attrBlk = {}) {a : Addr} (hadr : attrAddr j.desc = some a) (t : Take) :
    keyDecision i t b = offer .rp (readReqs (.attr i) (stallIdent b j.stall.val) 2 (4 * j.stall.val + j.ring.val) (pieces a 0 32))
      (modJob i (fun j => { j with attrBlk := { want := 32 } }) b) := by
  simp [keyDecision, hj, hst, hw, hm, ha, attrReady, hblk, askAttr, hadr]

end first

/-! ## A repeated decision (R24, R246) -/

section again
variable {b : Block} {i : Nat} {j : Job}

/-- How a job whose repeated decision failed ends; a zero-fill goes on. -/
abbrev repeatEnds (i : Nat) (j : Job) (st : Status) (b : Block) : Block := if j.zeroFill then resume i b else runError i st b

theorem repeatDecision_refused {t : Take} (h : b.boot.entropyStopped = true ∨ (sealDecides b j = false ∧ t = .cut)) :
    repeatDecision i j t b = repeatEnds i j .keysSealed (modJob i (fun x => { x with keyDone := true }) b) := by
  rcases h with h | ⟨hs, rfl⟩
  · simp [repeatDecision, h]
  · simp [repeatDecision, hs]

theorem repeatDecision_split (he : b.boot.entropyStopped = false) (hs : sealDecides b j = false) : repeatDecision i j .split b
    = repeatEnds i j .keysSealed (raise evDecisionSplit [] (modJob i (fun x => { x with keyDone := true }) b)) := by
  simp [repeatDecision, he, hs]

theorem repeatDecision_judged {t : Take} (he : b.boot.entropyStopped = false) (h : sealDecides b j = true ∨ t = .agree) :
    repeatDecision i j t b = match lowest (decision b j true) with
      | some st => repeatEnds i j st (modJob i (fun x => { x with keyDone := true }) b)
      | none => resume i (giveKeys i j (modJob i (fun x => { x with keyDone := true }) b)) := by
  rcases h with hs | rfl
  · simp [repeatDecision, he, hs] <;> rfl
  · simp [repeatDecision, he] <;> rfl

theorem keyDecision_repeated (hj : b.job i = some j) (hst : j.started = true) (hk : j.keyDone = false) (hr : resumable j = true) (t : Take) :
    keyDecision i t b = repeatDecision i j t b := by
  simp [keyDecision, hj, hst, hk, hr]

end again

/-- Settles O14. -/
theorem keyDecisionReleasesOrRefuses : Obligations.KeyDecisionReleasesOrRefuses := by
  refine ⟨fun s i t j => ?first, fun s i t j => ?again, fun cipher k b =>
    ⟨sendKey_material cipher k b, fun _ => sendKey_shares_length cipher k b⟩⟩
  case first =>
    intro b b1 hr hh hp hj hst hw hm ht hk refuse
    have gives : ∀ {x : Block}, keyDecision i.val t b = x → Gives (.keyDecision i t) s x := fun h =>
      updOn_gives hr hh (by rw [show s.blk.boot.entropyPaused = false from hp]; exact h)
    have hj1 : b1.job i.val = some j := judged_job hj
    refine ⟨fun he ha => gives ?noEngine, fun he ha hb => ?decide, fun a ha hblk hadr => ?asks⟩
    case noEngine => simp [keyDecision, hj, hst, hw, hm, hk, ha, ht, he]
    case asks =>
      have ho := keyDecision_asks hj hst hw hm ha hblk hadr t
      exact ⟨_, gives ho, offer_still _ _ _, fun _ h => offer_offered h⟩
    case decide =>
      have start : ∀ {x : Block}, settle i.val (unwrapSlots i.val (checkAttr i.val (firstDecision i.val j t b))) = x →
          Gives (.keyDecision i t) s x := fun h => gives ((keyDecision_first hj hst hw hm hk he ha hb t).trans h)
      have refused : (refuse b1).job i.val = some (refusedWith [.keysSealed] none j) := modJob_job hj1 _
      have sealing : sealDecides b1 j = true ∨ (b.boot.entropyStopped = true ∨ t = .cut) →
          Gives (.keyDecision i t) s (settle i.val (refuse b1)) := fun h => start (by
        rw [firstDecision_sealed ht hk t h, decided_sealed hj1]
        exact report_refused refused ha (by simp))
      refine ⟨fun hs => sealing (.inl hs), fun _ h => sealing (.inr h), fun hs hsp htake => start ?split,
        fun hs hsp htake hd => start ?conditions, fun hs hsp htake hd => ?release⟩
      case split =>
        subst htake
        rw [firstDecision_split ht hk hs hsp, decided_sealed hj1]
        exact report_refused (b := raise evDecisionSplit [] (refuse b1)) refused ha (by simp)
      case conditions =>
        subst htake
        rw [firstDecision_agree ht hk hs hsp, decided_conditions hj1 hd (keysSealed_notMem_decision _ _ _ hs)]
        exact report_refused (modJob_job hj1 _) ha (by simp [hd])
      case release =>
        subst htake
        intro b2 k
        have hfd : firstDecision i.val j .agree b = b2 := by
          rw [firstDecision_agree ht hk hs hsp, hd, decided_none hj1]
        obtain ⟨keys, hj2⟩ : ∃ keys, b2.job i.val = some { j with keyDone := true, passed4a := true, subject := subjectLen b1 j, keys } :=
          ⟨_, giveKeys_job ((job_of_jobs (each_keeps (g := Block.jobs) touchKey_jobs _ _) _).trans (modJob_job hj1 _)) j⟩
        refine ⟨fun hn => start ?plain, fun h1 h2 h3 h4 => ⟨fun l c hroom hl hne => start ?taken, fun hroom => start ?waits⟩⟩
        case plain => rw [hfd, checkAttr_done hj2 ha, unwrapSlots_other hj2 hn]
        case taken => rw [hfd, checkAttr_done hj2 ha, unwrapSlots_taken hj2 h1 h2 h3 h4 hroom hl hne]
        case waits => rw [hfd, checkAttr_done hj2 ha, unwrapSlots_waits hj2 h1 h2 h3 h4 hroom]
  case again =>
    intro b b1 ends hr hh hp hj hst hk hres
    have gives : ∀ {x : Block}, repeatDecision i.val j t b = x → Gives (.keyDecision i t) s x := fun h =>
      updOn_gives hr hh (by
        rw [show s.blk.boot.entropyPaused = false from hp]
        exact (keyDecision_repeated hj hst hk hres t).trans h)
    refine ⟨fun h => gives (repeatDecision_refused h), fun he hs htake => gives ?split,
      fun he h => ⟨fun st hl => gives ?fails, fun hl => gives ?passes⟩⟩
    case split => subst htake; exact repeatDecision_split he hs
    case fails => rw [repeatDecision_judged he h, hl]
    case passes => rw [repeatDecision_judged he h, hl]

end Sys2Proof.Machine
end

section
/-!
SUPPORT. The steps of a job's blobs, and what a job that has gone left on the unwrap units (R159, R176 to R178, R189, R199, R257, R258, R360).
-/

namespace Sys2Proof.Machine

open Sys2Proof

/-! ## One step of the first unfinished blob -/

section step
variable {b : Block} {i k : Nat} {j : Job} {x : BlobRead}

/-- The first blob of a job that may take a step. -/
structure BlobTurn (b : Block) (i k : Nat) (j : Job) (x : BlobRead) : Prop where
  job : b.job i = some j
  waiting : j.stage = .waiting
  proceeds : mayProceed b j = true
  first : firstBlob j = some k
  blob : j.blobs.getD k {} = x

theorem BlobTurn.blobUnwrap_eq (h : BlobTurn b i k j x) :
    blobUnwrap i b = if sealDecides b j && x.phase != 5 then b else blobStep i k j x b := by
  obtain ⟨hj, hw, hm, hf, hx⟩ := h
  simp only [blobUnwrap, hj, hf, hx, hw, hm]
  rfl

theorem BlobTurn.blobUnwrap_sealed (h : BlobTurn b i k j x) (hs : sealDecides b j = true) (hp : x.phase ≠ 5) : blobUnwrap i b = b := by
  rw [h.blobUnwrap_eq, if_pos (by simp [hs, hp])]

theorem BlobTurn.blobUnwrap_step (h : BlobTurn b i k j x) (hs : sealDecides b j = false ∨ x.phase = 5) :
    blobUnwrap i b = blobStep i k j x b := by
  rw [h.blobUnwrap_eq, if_neg (by rcases hs with hs | hs <;> simp [hs])]

/-- What a step marks on its blob: it fails, for want of a grant alone or for another reason; its read failed. -/
abbrev blobErr (i k : Nat) (b : Block) : Block := modBlob i k (fun x => { x with err := true, phase := 4 }) b

theorem blobStep_table_outside (hp : x.phase = 0) {e : Nat} (hb : x.bat = some e) (he : 2 ^ b.tack.batK ≤ e) :
    blobStep i k j x b = blobFails i k false b := by
  simp [blobStep, hp, hb, he]

theorem blobStep_table_asked (hp : x.phase = 0) {e : Nat} (hb : x.bat = some e) (he : e < 2 ^ b.tack.batK) :
    blobStep i k j x b = blobAsk j (.bat i x.second) (b.tack.batBase + BitVec.ofNat 64 (16 * e)) 16
      (modBlob i k (fun x => { x with head := { want := 16 }, phase := 1 }) b) := by
  simp [blobStep, hp, hb, Nat.not_le.2 he]

theorem blobStep_head_asked (hp : x.phase = 0) (hb : x.bat = none) :
    blobStep i k j x b = blobAsk j (.blobHead i x.second) x.addr 64 (modBlob i k (fun x => { x with head := { want := 64 }, phase := 2 }) b) := by
  simp [blobStep, hp, hb]

theorem blobStep_read_failed (h : (x.phase = 1 ∨ x.phase = 2) ∧ x.head.err = true ∨ x.phase = 3 ∧ x.rest.err = true) :
    blobStep i k j x b = blobErr i k b := by
  rcases h with ⟨hp | hp, he⟩ | ⟨hp, he⟩ <;> simp [blobStep, hp, he]

/-- A table entry is VALID with an aligned address. -/
def entryGood (h : Bytes) : Bool := decide (field h 12 2 / 2 ^ 15 = 1 ∧ field h 0 8 % 16 = 0)

theorem entryGood_eq (h : Bytes) : entryGood h = (field h 12 2 / 2 ^ 15 == 1 && field h 0 8 % 16 == 0) := Bool.decide_and ..

theorem blobStep_entry_refused (hp : x.phase = 1) (he : x.head.err = false) (hf : x.head.full = true)
    (h : (entryGood x.head.bytes && blobStallOk b j.stall.val (j.desc.op == 0x18 && !x.second) (field x.head.bytes 12 2 % 512)) = false) :
    blobStep i k j x b
      = blobFails i k (entryGood x.head.bytes && grantGone b j x (field x.head.bytes 12 2 % 512)) b := by
  rw [entryGood_eq, Bool.and_right_comm] at h
  rw [entryGood_eq]
  simp only [blobStep, hp, he, hf, h]
  rfl

theorem blobStep_entry_taken (hp : x.phase = 1) (he : x.head.err = false) (hf : x.head.full = true)
    (h : (entryGood x.head.bytes && blobStallOk b j.stall.val (j.desc.op == 0x18 && !x.second) (field x.head.bytes 12 2 % 512)) = true) :
    blobStep i k j x b = blobAsk j (.blobHead i x.second) (BitVec.ofNat 64 (field x.head.bytes 0 8)) 64
      (modBlob i k (fun y => { y with addr := BitVec.ofNat 64 (field x.head.bytes 0 8), batLen := some (field x.head.bytes 8 4)
                                      head := { want := 64 }, phase := 2 }) b) := by
  rw [entryGood_eq, Bool.and_right_comm] at h
  simp only [blobStep, hp, he, hf, h]
  rfl

theorem blobStep_head_refused (hp : x.phase = 2) (he : x.head.err = false) (hf : x.head.full = true)
    (h : matLenOk b x.head.bytes x.batLen = false) : blobStep i k j x b = blobFails i k false b := by
  simp [blobStep, hp, he, hf, h]

theorem blobStep_rest_asked (hp : x.phase = 2) (he : x.head.err = false) (hf : x.head.full = true)
    (h : matLenOk b x.head.bytes x.batLen = true) : blobStep i k j x b
      = blobAsk j (.blobRest i x.second) (x.addr + 64) (16 + blobPad x.head.bytes)
        (modBlob i k (fun y => { y with rest := { want := 16 + blobPad x.head.bytes }, phase := 3 }) b) := by
  simp [blobStep, hp, he, hf, h]

theorem blobStep_granted (hp : x.phase = 3) (he : x.rest.err = false) (hf : x.rest.full = true) :
    blobStep i k j x b = grantBlob i k j x b := by
  simp [blobStep, hp, he, hf]

theorem blobStep_unwrapped (hp : x.phase = 5) : blobStep i k j x b = unwrapBlob i k j x b := by
  simp [blobStep, hp]

/-! ## A blob whose bytes have arrived -/

/-- A stall key that fails its tag as a blob names it becomes BAD, outside a hold, and raises SLOT_BAD. -/
theorem useBlobKey_bad (hh : blobHeadOk (checkSys 0 b) x.head.bytes = true)
    (ho : blobStallOk (checkSys 0 b) j.stall.val (j.desc.op == 0x18 && !x.second) (field x.head.bytes 6 2) = true)
    (hs : ((checkSys 0 b).sk (field x.head.bytes 6 2)).state = 1) (ht : skTagOk (checkSys 0 b) (field x.head.bytes 6 2) = false) :
    useBlobKey j x b = skMarkBad (field x.head.bytes 6 2) (checkSys 0 b) := by
  simp [useBlobKey, useNamedKey, hh, ho, checkSk, hs, ht]

theorem skMarkBad_eq (m : Nat) (b : Block) : skMarkBad m b = withEvent evSlotBad (toLe 1 1 ++ toLe 2 m)
    (if anyHold b then b else modSk m (fun k => { k with state := 2 }) b) := by
  unfold skMarkBad
  cases anyHold b <;> rfl

/-- A key found bad serves no blob. -/
theorem skUsable_skMarkBad {m : Nat} {b : Block} (ht : skTagOk b m = false) : skUsable (skMarkBad m b) m = false := by
  rw [skMarkBad_eq]
  cases anyHold b with
  | true => exact Bool.and_eq_false_iff.2 (.inr ht)
  | false =>
    have hs : ((withEvent evSlotBad (toLe 1 1 ++ toLe 2 m) (modSk m (fun k => { k with state := 2 }) b)).sk m).state = 2 :=
      congrArg StallKey.state (modSk_sk_self m (fun k => { k with state := 2 }) b)
    exact Bool.and_eq_false_iff.2 (.inl (beq_eq_false_iff_ne.2 (by rw [if_neg Bool.false_ne_true, hs]; decide)))

theorem blobStallOk_of_stalls {b t : Block} (h : t.stalls = b.stalls) (n : Nat) (source : Bool) (m : Nat) :
    blobStallOk t n source m = blobStallOk b n source m := by
  simp only [blobStallOk, Block.stall, h]

theorem skMarkBad_stalls (m : Nat) (b : Block) : (skMarkBad m b).stalls = b.stalls := by
  obtain ⟨t, l, h⟩ : ∃ t l, skMarkBad m b = { b with tack := t, lt := l } := by
    unfold skMarkBad
    cases (!anyHold b)
    · exact ⟨_, _, rfl⟩
    · exact ⟨_, _, rfl⟩
  rw [h]

/-- A grant that stands is not gone. -/
theorem grantGone_of_stallOk {m : Nat} (h : blobStallOk b j.stall.val (j.desc.op == 0x18 && !x.second) m = true) :
    grantGone b j x m = false := by
  unfold grantGone
  cases hs : j.desc.op == 0x18 && !x.second with
  | false => simp
  | true => rw [hs] at h; simp [h]

theorem grantBlob_gone (hg : grantGone (useBlobKey j x b) j x (field x.head.bytes 6 2) = true)
    (hh : blobHeadOk (useBlobKey j x b) x.head.bytes = true) :
    grantBlob i k j x b = lapseIn 3 j (blobFails i k true (useBlobKey j x b)) := by
  simp [grantBlob, hg, hh]

theorem grantBlob_refused
    (hg : (grantGone (useBlobKey j x b) j x (field x.head.bytes 6 2) && blobHeadOk (useBlobKey j x b) x.head.bytes) = false)
    (hn : blobNamesKey (useBlobKey j x b) j.stall.val (j.desc.op == 0x18 && !x.second) x.head.bytes = false) :
    grantBlob i k j x b = lapseIn 3 j (blobFails i k false (useBlobKey j x b)) := by
  unfold grantBlob
  dsimp only
  rw [hg, if_neg Bool.false_ne_true, hn]
  rfl

section named
variable (hg : grantGone (useBlobKey j x b) j x (field x.head.bytes 6 2) = false)
  (hn : blobNamesKey (useBlobKey j x b) j.stall.val (j.desc.op == 0x18 && !x.second) x.head.bytes = true)
include hg hn

theorem grantBlob_hit {n : Nat} (hc : blobHit (useBlobKey j x b) j x = some n) :
    grantBlob i k j x b = lapseIn 3 j (touch n (modBlob i k (fun y => { y with slot := some n, gen := ((useBlobKey j x b).slot n).gen, phase := 4 })
      (useBlobKey j x b))) := by
  simp only [grantBlob, hg, hn, hc, Bool.false_and, Bool.not_true, Bool.false_eq_true, if_false]

theorem grantBlob_waits (hc : blobHit (useBlobKey j x b) j x = none) (hw : anyHold (useBlobKey j x b) = true
      ∨ noEntropy (useBlobKey j x b) = true ∨ (unwrapChoice (useBlobKey j x b)).map Prod.fst ≠ some i) :
    grantBlob i k j x b = useBlobKey j x b := by
  simp only [grantBlob, hg, hn, hc, Bool.false_and, Bool.not_true, Bool.false_eq_true, if_false]
  rw [if_pos]
  rcases hw with h | h | h <;> simp [h]

theorem grantBlob_unit (hc : blobHit (useBlobKey j x b) j x = none) (ha : anyHold (useBlobKey j x b) = false)
    (he : noEntropy (useBlobKey j x b) = false) (ht : (unwrapChoice (useBlobKey j x b)).map Prod.fst = some i) {u : Nat} {l : List Nat} {b1 : Block}
    (hu : freeUnit (useBlobKey j x b) = some u) (hl : takeSlots (some (field x.head.bytes 6 2)) (ceilDiv (blobMatLen x.head.bytes) 64) false none
      (unwrapCharge i j 600 (useBlobKey j x b)) = some (l, b1)) :
    grantBlob i k j x b = modBlob i k (fun x => { x with phase := 5, unit := some u, room := l })
      { b1 with unwrapJobs := b1.unwrapJobs.set u (some i) } := by
  simp only [grantBlob, hg, hn, hc, Bool.false_and, Bool.not_true, Bool.false_eq_true, if_false, hu, hl]
  rw [if_neg (by simp [ha, he, ht])]

end named

/-! ## A blob on its unit -/

theorem unwrapBlob_waits (h : anyHold b = true ∨ noEntropy b = true) : unwrapBlob i k j x b = b := by
  unfold unwrapBlob
  dsimp only
  rw [if_pos (by rcases h with h | h <;> simp [h])]

theorem unwrapBlob_closed (ha : anyHold b = false) (he : noEntropy b = false)
    (ho : blobOpen (useBlobKey j x b) j.stall.val (j.desc.op == 0x18 && !x.second) x.head.bytes x.rest.bytes = none) : unwrapBlob i k j x b
      = blobFails i k (grantGone (useBlobKey j x b) j x (field x.head.bytes 6 2)) (unitDone i k j x (useBlobKey j x b)) := by
  unfold unwrapBlob
  dsimp only
  rw [if_neg (by simp [ha, he]), ho]

theorem unwrapBlob_halves (ha : anyHold b = false) (he : noEntropy b = false) {mat : Bytes}
    (ho : blobOpen (useBlobKey j x b) j.stall.val (j.desc.op == 0x18 && !x.second) x.head.bytes x.rest.bytes = some mat)
    (hx : xtsHalvesEqual (field x.head.bytes 16 2) mat = true) :
    unwrapBlob i k j x b = blobFails i k false (unitDone i k j x (useBlobKey j x b)) := by
  unfold unwrapBlob
  dsimp only
  rw [if_neg (by simp [ha, he]), ho]
  exact if_pos hx

theorem unwrapBlob_written (ha : anyHold b = false) (he : noEntropy b = false) {mat : Bytes}
    (ho : blobOpen (useBlobKey j x b) j.stall.val (j.desc.op == 0x18 && !x.second) x.head.bytes x.rest.bytes = some mat)
    (hx : xtsHalvesEqual (field x.head.bytes 16 2) mat = false) : unwrapBlob i k j x b
      = modBlob i k (fun y => { y with slot := x.room.head?, gen := ((useBlobKey j x b).slot (x.room.headD 0)).gen, phase := 4 })
        (writeCopy j.stall.val x mat (useBlobKey j x b) (unitDone i k j x (useBlobKey j x b))) := by
  unfold unwrapBlob
  dsimp only
  rw [if_neg (by simp [ha, he]), ho]
  exact if_neg (by simp [hx])

end step

/-! ## What a job that has gone left on its units (R199, R360) -/

/-- The step of `finishLeft` for one unit. -/
def leftStep (i u : Nat) (b : Block) : Block :=
  match b.unwrapLeft.get u with
  | some l => when (l.job == i && !anyHold b && !noEntropy b) (unwrapLeftBlob u l) b
  | none => b

theorem finishLeft_eq (i : Nat) (b : Block) : finishLeft i b = leftStep i 1 (leftStep i 0 b) := rfl

theorem leftStep_none {i u : Nat} {b : Block} (h : b.unwrapLeft.get u = none) : leftStep i u b = b := by simp [leftStep, h]

theorem leftStep_waits {i u : Nat} {b : Block}
    (h : ∀ l, b.unwrapLeft.get u = some l → l.job ≠ i ∨ anyHold b = true ∨ noEntropy b = true) : leftStep i u b = b := by
  cases hl : b.unwrapLeft.get u with
  | none => exact leftStep_none hl
  | some l =>
    have hc : (l.job == i && !anyHold b && !noEntropy b) = false := by
      rcases h l hl with h | h | h <;> simp [h]
    simp [leftStep, hl, hc]

theorem leftStep_some {u : Nat} {l : LeftBlob} {b : Block} (hl : b.unwrapLeft.get u = some l) (ha : anyHold b = false)
    (he : noEntropy b = false) : leftStep l.job u b = unwrapLeftBlob u l b := by
  simp [leftStep, hl, ha, he]

theorem writeCopy_unwrapLeft (n : Nat) (x : BlobRead) (mat : Bytes) (b0 b : Block) : (writeCopy n x mat b0 b).unwrapLeft = b.unwrapLeft := by
  unfold writeCopy writeKey
  refine each_keeps (g := Block.unwrapLeft) ?_ _ _
  exact fun _ _ => rfl

theorem useNamedKey_unwrapLeft (n : Nat) (source : Bool) (x : BlobRead) (b : Block) :
    (useNamedKey n source x b).unwrapLeft = b.unwrapLeft := by
  obtain ⟨t, l, d, h⟩ := useNamedKey_frame b n source x
  rw [h]

/-- The block the left blob's key is used in, and the one with its unit free again. -/
abbrev leftKeyed (l : LeftBlob) (b : Block) : Block := useNamedKey l.stall l.source l.blob b
abbrev leftFreed (u : Nat) (l : LeftBlob) (c : Block) : Block :=
  unitFree (some u) l.eff l.stall { c with unwrapLeft := c.unwrapLeft.set u none }

theorem unwrapLeftBlob_written {u : Nat} {l : LeftBlob} {b : Block} {mat : Bytes}
    (ho : blobOpen (leftKeyed l b) l.stall l.source l.blob.head.bytes l.blob.rest.bytes = some mat)
    (hx : xtsHalvesEqual (field l.blob.head.bytes 16 2) mat = false) :
    unwrapLeftBlob u l b = writeCopy l.stall l.blob mat (leftKeyed l b) (leftFreed u l (leftKeyed l b)) := by
  unfold unwrapLeftBlob
  dsimp only
  rw [ho]
  exact if_neg (by simp [hx])

theorem unwrapLeftBlob_dropped {u : Nat} {l : LeftBlob} {b : Block}
    (h : ∀ mat, blobOpen (leftKeyed l b) l.stall l.source l.blob.head.bytes l.blob.rest.bytes = some mat →
      xtsHalvesEqual (field l.blob.head.bytes 16 2) mat = true) : unwrapLeftBlob u l b = leftFreed u l (leftKeyed l b) := by
  unfold unwrapLeftBlob
  dsimp only
  cases ho : blobOpen (leftKeyed l b) l.stall l.source l.blob.head.bytes l.blob.rest.bytes with
  | none => rfl
  | some mat => exact if_pos (h mat ho)

/-- Finishing a blob frees its unit alone. -/
theorem unwrapLeftBlob_unwrapLeft (u : Nat) (l : LeftBlob) (b : Block) : (unwrapLeftBlob u l b).unwrapLeft = b.unwrapLeft.set u none := by
  have hfree : (leftFreed u l (leftKeyed l b)).unwrapLeft = b.unwrapLeft.set u none := by
    show (leftKeyed l b).unwrapLeft.set u none = _
    rw [useNamedKey_unwrapLeft]
  unfold unwrapLeftBlob
  dsimp only
  split
  · split
    · exact hfree
    · exact (writeCopy_unwrapLeft ..).trans hfree
  · exact hfree

/-- One blob left on a unit, the other unit empty: finishing both is finishing that one. -/
theorem finishLeft_one {b : Block} {u : Nat} {l : LeftBlob} (hu : u < 2) (hl : b.unwrapLeft.get u = some l) (ha : anyHold b = false)
    (he : noEntropy b = false) (hv : ∀ v, v < 2 → v ≠ u → b.unwrapLeft.get v = none) : finishLeft l.job b = unwrapLeftBlob u l b := by
  rw [finishLeft_eq]
  obtain rfl | rfl : u = 0 ∨ u = 1 := by omega
  · rw [leftStep_some hl ha he, leftStep_none]
    rw [unwrapLeftBlob_unwrapLeft, Tab.get_set_ne _ _ (by decide)]
    exact hv 1 (by decide) (by decide)
  · rw [leftStep_none (hv 0 (by decide) (by decide)), leftStep_some hl ha he]

/-- A command of the tack room that asks for reads on `rp_`. -/
theorem blobAsk_sends {c : Instr} {s : State} {f : Block → Block} {j : Job} {owner : Owner} {addr : Addr} {len : Nat} {d : Block}
    (hr : s.blk.boot.ready = true) (hh : holding s.blk 19 = false) (hc : exec c s = updOn s 19 f) (hf : f s.blk = blobAsk j owner addr len d) :
    Sends c s d .rp (readReqs owner (stallIdent d j.stall.val) 2 (4 * j.stall.val + j.ring.val) (pieces addr 0 len)) :=
  updOn_sends hr hh hc hf

/-- Settles O15. -/
theorem blobsUnwrapIntoSlots : Obligations.BlobsUnwrapIntoSlots := by
  refine ⟨fun s i j x k => ?steps, fun _ _ _ _ _ => rfl, fun i b h => ?waits, fun b u l hu hl ha he hv =>
    ⟨fun mat ho hx => (finishLeft_one hu hl ha he hv).trans (unwrapLeftBlob_written ho hx),
     fun h => (finishLeft_one hu hl ha he hv).trans (unwrapLeftBlob_dropped h)⟩⟩
  case waits =>
    rw [finishLeft_eq, leftStep_waits (h 0 (by decide)), leftStep_waits (h 1 (by decide))]
  case steps =>
    intro c b c0 b0 h m src asks fails errs hr hh hj hw hm hf hx
    have turn : BlobTurn b i.val k j x := ⟨hj, hw, hm, hf, hx⟩
    have gives : ∀ {y : Block}, (sealDecides b j = false ∨ x.phase = 5) → blobStep i.val k j x b = y → Gives c s y := fun hs hy =>
      updOn_gives hr hh ((turn.blobUnwrap_step hs).trans hy)
    have sends : ∀ {o : Owner} {a : Addr} {n : Nat} {f : BlobRead → BlobRead}, sealDecides b j = false →
        blobStep i.val k j x b = blobAsk j o a n (modBlob i.val k f b) → Sends c s (modBlob i.val k f b) .rp (asks o a n) := fun hs hy =>
      blobAsk_sends hr hh rfl ((turn.blobUnwrap_step (.inl hs)).trans hy)
    refine ⟨fun hs hp => updOn_gives hr hh (turn.blobUnwrap_sealed hs hp), fun hs hp => ⟨fun hb => sends hs (blobStep_head_asked hp hb),
        fun e hb => ⟨fun he => gives (.inl hs) (blobStep_table_outside hp hb he), fun he => sends hs (blobStep_table_asked hp hb he)⟩⟩,
      fun hs hp => ⟨fun he => gives (.inl hs) (blobStep_read_failed (.inl ⟨.inl hp, he⟩)),
        fun he hfull hg => gives (.inl hs) (blobStep_entry_refused hp he hfull hg),
        fun he hfull hg => sends hs (blobStep_entry_taken hp he hfull hg)⟩,
      fun hs hp => ⟨fun he => gives (.inl hs) (blobStep_read_failed (.inl ⟨.inr hp, he⟩)),
        fun he hfull hl => gives (.inl hs) (blobStep_head_refused hp he hfull hl),
        fun he hfull hl => sends hs (blobStep_rest_asked hp he hfull hl)⟩,
      fun hs hp he => gives (.inl hs) (blobStep_read_failed (.inr ⟨hp, he⟩)), fun hs hp he hfull => ?arrived, fun hp => ?unit⟩
    case arrived =>
      have granted : ∀ {y : Block}, grantBlob i.val k j x b = y → Gives c s y := fun hy =>
        gives (.inl hs) ((blobStep_granted hp he hfull).trans hy)
      refine ⟨fun h1 h2 h3 h4 => granted ?bad, fun h1 h2 => granted (grantBlob_gone h2 h1), fun h1 h2 => granted (grantBlob_refused h1 h2),
        fun n h1 h2 h3 => granted (grantBlob_hit h3 h1 h2), fun h1 h2 h3 => ⟨fun hwait => granted (grantBlob_waits h3 h1 h2 hwait),
          fun u l b1 ha hn ht hu hl => granted (grantBlob_unit h3 h1 h2 ha hn ht hu hl)⟩⟩
      have hb0 : useBlobKey j x b = skMarkBad m c0 := useBlobKey_bad h1 h2 h3 h4
      have hgrant : grantGone (useBlobKey j x b) j x m = false := by
        refine grantGone_of_stallOk ?_
        rw [hb0, blobStallOk_of_stalls (skMarkBad_stalls m c0)]
        exact h2
      have hname : blobNamesKey (useBlobKey j x b) j.stall.val src h = false := by
        have hu : skUsable (useBlobKey j x b) m = false := hb0 ▸ skUsable_skMarkBad h4
        show (_ && _ && skUsable (useBlobKey j x b) m && _) = false
        rw [hu]; simp
      rw [grantBlob_refused (by rw [hgrant, Bool.false_and]) hname, hb0, skMarkBad_eq]
      rfl
    case unit =>
      have unit : ∀ {y : Block}, unwrapBlob i.val k j x b = y → Gives c s y := fun hy => gives (.inr hp) ((blobStep_unwrapped hp).trans hy)
      exact ⟨fun h => unit (unwrapBlob_waits h), fun ha he => ⟨fun ho => unit (unwrapBlob_closed ha he ho),
        fun mat ho hx => unit (unwrapBlob_halves ha he ho hx), fun mat ho hx => unit (unwrapBlob_written ha he ho hx)⟩⟩

end Sys2Proof.Machine
end

section
/-!
SUPPORT. Fragment tables as they are walked, what an accepted chain covers, and the state blob of a continued digest (R83 to R87, R174,
R270, R281 to R283, R488).
-/

namespace Sys2Proof.Machine

open Sys2Proof

/-! ## The step of a chain (R84, R87) -/

/-- The walk of a chain, and a job with another one. -/
def chainWalk (dst : Bool) (j : Job) : Walk := if dst then j.dstWalk else j.srcWalk
def setWalk (dst : Bool) (v : Walk) (l : List Status) (j : Job) : Job :=
  if dst then { j with dstWalk := v, found := j.found ++ l } else { j with srcWalk := v, found := j.found ++ l }

@[simp] theorem chainWalk_setWalk (dst : Bool) (v : Walk) (l : List Status) (j : Job) : chainWalk dst (setWalk dst v l j) = v := by
  cases dst <;> rfl

theorem chainWalk_setWalk_other (dst : Bool) (v : Walk) (l : List Status) (j : Job) :
    chainWalk (!dst) (setWalk dst v l j) = chainWalk (!dst) j := by
  cases dst <;> rfl

section walk
variable {b : Block} {i : Nat} {j : Job} {dst : Bool}

/-- A change of a walk is a change of its job. -/
theorem modWalk_eq (hj : b.job i = some j) (f : Walk → Walk) :
    modWalk i dst f b = modJob i (setWalk dst (f (chainWalk dst j)) []) b := by
  refine modJob_congr hj ?_
  cases dst <;> simp [setWalk, chainWalk]

theorem modWalk_modJob (hj : b.job i = some j) (v : Walk) (l : List Status) (f : Walk → Walk) :
    modWalk i dst f (modJob i (setWalk dst v l) b) = modJob i (setWalk dst (f v) l) b := by
  rw [modWalk, modJob_modJob]
  refine modJob_congr hj ?_
  cases dst <;> simp [setWalk]

/-- The walk as a step asks for its next piece: a destination's then knows the length it sums up to (R86, R174). -/
def wantedWalk (dst : Bool) (b : Block) (j : Job) : Walk :=
  if dst then { chainWalk dst j with want := wantedLen b j, noSum := outLenUnknown j } else chainWalk dst j

/-- Bytes of the next piece of a table. -/
def tablePieceLen (w : Walk) : Nat := min (256 - w.next.toNat % 256) (16 * (4096 - w.index))

/-- The read of the next piece. -/
def pieceReq (dst : Bool) (i : Nat) (j : Job) (b : Block) : Req :=
  { addr := (chainWalk dst j).next, len := tablePieceLen (chainWalk dst j), ident := stallIdent b j.stall.val, owner := .table i dst
    prio := 2, turn := 4 * j.stall.val + j.ring.val }

/-- One step of a chain, by the state of its walk. -/
theorem walkStep_eq (hj : b.job i = some j) : walkStep i dst b =
    if (chainWalk dst j).done then b
    else if !(chainWalk dst j).reading then askTable i dst j (wantedWalk dst b j) (modWalk i dst (fun _ => wantedWalk dst b j) b)
    else if (chainWalk dst j).buf.full || (chainWalk dst j).buf.err then takePiece i dst (chainWalk dst j) b else b := by
  rw [walkStep, hj]
  rfl

theorem walkStep_done (hj : b.job i = some j) (h : (chainWalk dst j).done = true) : walkStep i dst b = b := by
  rw [walkStep_eq hj, if_pos h]

theorem walkStep_asks (hj : b.job i = some j) (hd : (chainWalk dst j).done = false) (hr : (chainWalk dst j).reading = false) :
    walkStep i dst b = offer .rp [pieceReq dst i j b] (modJob i (setWalk dst
      { wantedWalk dst b j with reading := true, buf := { want := tablePieceLen (chainWalk dst j) } } []) b) := by
  have hlen : tablePieceLen (wantedWalk dst b j) = tablePieceLen (chainWalk dst j) := by cases dst <;> rfl
  have hnext : (wantedWalk dst b j).next = (chainWalk dst j).next := by cases dst <;> rfl
  rw [walkStep_eq hj, if_neg (by simp [hd]), if_pos (by simp [hr]), modWalk_eq hj, askTable]
  dsimp only
  rw [modWalk_modJob hj, ← tablePieceLen, hlen, hnext]
  rfl

theorem walkStep_failed (hj : b.job i = some j) (hd : (chainWalk dst j).done = false) (hr : (chainWalk dst j).reading = true)
    (he : (chainWalk dst j).buf.err = true) : walkStep i dst b
      = modJob i (setWalk dst { chainWalk dst j with reading := false, done := true } [.portError]) b := by
  rw [walkStep_eq hj, if_neg (by simp [hd]), if_neg (by simp [hr]), if_pos (by simp [he]), takePiece, if_pos he, modWalk_eq hj, modJob_modJob]
  refine modJob_congr hj ?_
  cases dst <;> simp [setWalk]

/-- The walk over a piece that has arrived. -/
def pieceWalk (w : Walk) : Walk × List Status :=
  walkPiece (w.buf.want / 16) { w with reading := false, pieces := w.pieces ++ [(w.next, tablePart (w.buf.want / 16) w.buf.bytes)] } w.buf.bytes

theorem walkStep_takes (hj : b.job i = some j) (hd : (chainWalk dst j).done = false) (hr : (chainWalk dst j).reading = true)
    (hf : (chainWalk dst j).buf.full = true) (he : (chainWalk dst j).buf.err = false) :
    walkStep i dst b = modJob i (setWalk dst (pieceWalk (chainWalk dst j)).1 (pieceWalk (chainWalk dst j)).2) b := by
  rw [walkStep_eq hj, if_neg (by simp [hd]), if_neg (by simp [hr]), if_pos (by simp [hf]), takePiece, if_neg (by simp [he])]
  dsimp only
  rw [modWalk_eq hj, modJob_modJob]
  refine modJob_congr hj ?_
  cases dst <;> simp [setWalk, pieceWalk]

theorem walkStep_waits (hj : b.job i = some j) (hd : (chainWalk dst j).done = false) (hr : (chainWalk dst j).reading = true)
    (hf : (chainWalk dst j).buf.full = false) (he : (chainWalk dst j).buf.err = false) : walkStep i dst b = b := by
  rw [walkStep_eq hj, if_neg (by simp [hd]), if_neg (by simp [hr]), if_neg (by simp [hf, he])]

/-- A step of one chain leaves the other. -/
theorem walkStep_job (hj : b.job i = some j) :
    ∃ j1, (walkStep i dst b).job i = some j1 ∧ chainWalk (!dst) j1 = chainWalk (!dst) j := by
  by_cases hd : (chainWalk dst j).done = true
  · exact ⟨j, by rw [walkStep_done hj hd]; exact hj, rfl⟩
  · rw [Bool.not_eq_true] at hd
    cases hr : (chainWalk dst j).reading with
    | false =>
      rw [walkStep_asks hj hd hr]
      exact ⟨_, (job_of_jobs (offer_jobs _ _ _) i).trans (modJob_job hj _), chainWalk_setWalk_other ..⟩
    | true =>
      cases he : (chainWalk dst j).buf.err with
      | true =>
        rw [walkStep_failed hj hd hr he]
        exact ⟨_, modJob_job hj _, chainWalk_setWalk_other ..⟩
      | false =>
        cases hf : (chainWalk dst j).buf.full with
        | true =>
          rw [walkStep_takes hj hd hr hf he]
          exact ⟨_, modJob_job hj _, chainWalk_setWalk_other ..⟩
        | false => exact ⟨j, by rw [walkStep_waits hj hd hr hf he]; exact hj, rfl⟩

/-- With the other chain done, or waiting for a KEY_WRAP's subject, the command is the step of this one (R86, R174). -/
theorem fragmentWalk_chain (hj : b.job i = some j) (hw : j.stage = .waiting) (hm : mayProceed b j = true)
    (ho : if dst then outLenKnown j = true ∧ j.srcWalk.done = true else j.dstWalk.done = true ∨ outLenKnown j = false) :
    fragmentWalk i b = settle i (walkStep i dst b) := by
  have hstart : fragmentWalk i b = settle i (when (outLenKnown j) (walkStep i true) (walkStep i false b)) := by
    simp [fragmentWalk, hj, hw, hm]
  rw [hstart]
  cases dst with
  | true =>
    rw [walkStep_done (dst := false) hj ho.2, ho.1]
    rfl
  | false =>
    rcases ho with hd | hk
    · obtain ⟨j1, h1, h2⟩ := walkStep_job (dst := false) hj
      have hdone : (chainWalk true j1).done = true := (congrArg Walk.done h2).trans hd
      cases outLenKnown j with
      | true => rw [when_true, walkStep_done h1 hdone]
      | false => rfl
    · rw [hk, when_false]

end walk

theorem prepared_of_walking {dst : Bool} {j : Job} (h : (chainWalk dst j).done = false) : prepared j = false := by
  cases dst <;> simp [chainWalk] at h <;> simp [prepared, h]

/-- Settles O16. -/
theorem fragmentTablesAreWalked : Obligations.FragmentTablesAreWalked := by
  intro s i j dst b w other put hr hh hj hw hm hd ho
  have hput : ∀ v l, put v l = modJob i.val (setWalk dst v l) := fun v l => rfl
  have hchain : fragmentWalk i.val b = settle i.val (walkStep i.val dst b) :=
    fragmentWalk_chain hj hw hm (by cases dst <;> exact ho)
  have gives : ∀ {y : Block}, walkStep i.val dst b = y → Gives (.fragmentTableWalk i) s (settle i.val y) := fun hy =>
    updOn_gives hr hh (hchain.trans (by rw [hy]))
  refine ⟨fun hread => ?asks, fun hread hf he => gives (walkStep_takes hj hd hread hf he),
    fun hread he => gives (walkStep_failed hj hd hread he), fun hread hf he => gives (walkStep_waits hj hd hread hf he)⟩
  case asks =>
    intro n v
    have hjob : (walkStep i.val dst b).job i.val = some (setWalk dst { v with reading := true, buf := { want := n } } [] j) := by
      rw [walkStep_asks hj hd hread]
      exact (job_of_jobs (offer_jobs _ _ _) _).trans (modJob_job hj _)
    have hwalking : prepared (setWalk dst { v with reading := true, buf := { want := n } } [] j) = false :=
      prepared_of_walking (dst := dst) (by rw [chainWalk_setWalk]; cases dst <;> exact hd)
    refine updOn_sends hr hh rfl ?_
    show fragmentWalk i.val b = _
    rw [hchain, settle_unprepared hjob hwalking, walkStep_asks hj hd hread]
    rfl

/-! ## What an accepted chain covers (R83 to R86) -/

/-- A fragment as R84 and R85 want it, the length of the last one apart. -/
abbrev FragPlaced (f : Frag) : Prop := f.len ≠ 0 ∧ f.addr.toNat % 16 = 0

/-- A walk's sum is what its fragments hold, and it sums up to a length. -/
structure Summing (w : Walk) : Prop where
  sum : w.sum = (w.frags.map Frag.len).sum
  bound : w.noSum = false

/-- Every fragment so far is placed and whole blocks long. -/
def Whole (w : Walk) : Prop := ∀ f ∈ w.frags, FragPlaced f ∧ f.len % 16 = 0

/-- What a part of a walk from `w` keeps, whatever it finds. -/
structure Walked (w v : Walk) : Prop where
  summing : Summing v
  want : v.want = w.want
  grows : w.frags <+: v.frags

/-- A walk that has found nothing: it goes on with whole fragments, or has ended on its length. -/
structure Clean (v : Walk) : Prop where
  placed : ∀ f ∈ v.frags, FragPlaced f
  whole : ∀ f ∈ v.frags.dropLast, f.len % 16 = 0
  going : v.done = false → Whole v
  ended : v.done = true → (v.frags.map Frag.len).sum = v.want

theorem Whole.clean {v : Walk} (h : Whole v) (hd : v.done = false) : Clean v :=
  ⟨fun f hf => (h f hf).1, fun f hf => (h f (List.dropLast_subset _ hf)).2, fun _ => h, fun h' => absurd h' (by simp [hd])⟩

theorem cond_eq_nil {c : Bool} {x : Status} : cond c x = [] ↔ c = false := by cases c <;> simp [cond]

/-- An entry that stops the walk is a breach. -/
theorem fragBad_of_stops {w : Walk} {e : Bytes} (h : fragStops w e = true) : fragBad w e = true := by
  simp only [fragStops, fragBad, Bool.or_eq_true, Bool.and_eq_true] at h ⊢
  rcases h with (⟨h1, h2⟩ | ⟨h1, h2⟩) | ⟨h1, h2⟩
  · exact .inl (.inl (.inr ⟨h1, h2⟩))
  · exact .inl (.inr ⟨h1, .inr h2⟩)
  · exact .inr ⟨h1, h2⟩

theorem walkEntry_walked {w : Walk} (hs : Summing w) (e : Bytes) : Walked w (walkEntry w e).1 := by
  obtain ⟨h1, h2⟩ := hs
  unfold walkEntry
  dsimp only
  split
  · exact ⟨⟨h1, h2⟩, rfl, List.prefix_rfl⟩
  · split
    · split <;> exact ⟨⟨h1, h2⟩, rfl, List.prefix_rfl⟩
    · exact ⟨⟨by simp [h1], h2⟩, rfl, List.prefix_append _ _⟩

/-- An entry with no breach at which the walk goes on. -/
theorem fragment_placed {w : Walk} {e : Bytes} (hm : fragMis e = false) (hs : fragStops w e = false) (hl : fragLink e = false) :
    FragPlaced { addr := fragAddr e, len := fragLen e } ∧ (fragLast e = false → fragLen e % 16 = 0) := by
  simp only [fragMis, fragStops, alignedTo, hl, Bool.or_eq_false_iff, Bool.not_eq_false', beq_iff_eq] at hm hs
  obtain ⟨ha, hlen⟩ := hm
  exact ⟨⟨by simpa using hs.2, ha⟩, fun h => by simpa [h] using hlen⟩

/-- An entry with no breach: a link, or a fragment, which ends the chain only on its length. -/
theorem walkEntry_clean {w : Walk} (hs : Summing w) (hw : Whole w) (hd : w.done = false) {e : Bytes} (he : (walkEntry w e).2 = []) :
    Clean (walkEntry w e).1 := by
  obtain ⟨h1, h2⟩ := hs
  unfold walkEntry at he ⊢
  dsimp only at he ⊢
  split at he
  · rename_i hstop
    simp [cond_eq_nil, fragBad_of_stops hstop] at he
  · rename_i hgo
    rw [if_neg hgo]
    split at he
    · rename_i hlink
      rw [if_pos hlink]
      split at he
      · rename_i hmis
        simp [cond_eq_nil, hmis] at he
      · rename_i hmis
        rw [if_neg hmis]
        exact Whole.clean (v := { w with next := fragAddr e, index := 0 }) hw hd
    · rename_i hlink
      rw [if_neg hlink]
      simp only [List.append_eq_nil_iff, cond_eq_nil] at he
      obtain ⟨⟨⟨hmis, -⟩, hlen⟩, hfull⟩ := he
      obtain ⟨hplaced, hwhole⟩ := fragment_placed hmis (by simpa using hgo) (by simpa using hlink)
      have hall : ∀ f ∈ w.frags ++ [{ addr := fragAddr e, len := fragLen e }], FragPlaced f := by
        intro f hf
        rcases List.mem_append.1 hf with hf | hf
        · exact (hw f hf).1
        · rw [List.mem_singleton.1 hf]; exact hplaced
      rw [hlen, hfull]
      refine ⟨hall, fun f hf => (hw f (by simpa using hf)).2, fun hgoing f hf => ⟨hall f hf, ?_⟩, fun hend => ?_⟩
      · rcases List.mem_append.1 hf with hf | hf
        · exact (hw f hf).2
        · rw [List.mem_singleton.1 hf]; exact hwhole (by simpa using hgoing)
      · have hlast : fragLast e = true := by simpa using hend
        simp [h2, hlast] at hlen
        simp only [List.map_append, List.sum_append, ← h1, List.map_cons, List.map_nil, List.sum_cons, List.sum_nil]
        omega

theorem walkPiece_walked (n : Nat) {w : Walk} (hs : Summing w) (l : Bytes) : Walked w (walkPiece n w l).1 := by
  induction n generalizing w l with
  | zero => exact ⟨hs, rfl, List.prefix_rfl⟩
  | succ n ih =>
    unfold walkPiece
    split
    · exact ⟨hs, rfl, List.prefix_rfl⟩
    · have h1 := walkEntry_walked hs (l.take 16)
      dsimp only
      split
      · exact h1
      · have h2 := ih h1.summing (l.drop 16)
        exact ⟨h2.summing, h2.want.trans h1.want, h1.grows.trans h2.grows⟩

/-- A walk that is done reads no more. -/
theorem walkPiece_of_done {w : Walk} (h : w.done = true) (n : Nat) (l : Bytes) : walkPiece n w l = (w, []) := by
  cases n with
  | zero => rfl
  | succ n => rw [walkPiece, if_pos (by simp [h])]

theorem walkPiece_clean (n : Nat) {w : Walk} (hs : Summing w) (hw : Whole w) (hd : w.done = false) (l : Bytes)
    (hr : (walkPiece n w l).2 = []) : Clean (walkPiece n w l).1 := by
  induction n generalizing w l with
  | zero => exact hw.clean hd
  | succ n ih =>
    unfold walkPiece at hr ⊢
    split at hr
    · rename_i hstop
      rw [if_pos hstop]
      exact hw.clean hd
    · rename_i hgo
      rw [if_neg hgo]
      dsimp only at hr ⊢
      have h1 := walkEntry_walked hs (l.take 16)
      split at hr
      · rename_i hlink
        rw [if_pos hlink]
        exact walkEntry_clean hs hw hd hr
      · rename_i hnext
        rw [if_neg hnext]
        obtain ⟨he, hp⟩ := List.append_eq_nil_iff.1 hr
        have hc := walkEntry_clean hs hw hd he
        cases hd1 : (walkEntry w (l.take 16)).1.done with
        | true => rw [walkPiece_of_done hd1]; exact hc
        | false => exact ih h1.summing (hc.going hd1) hd1 _ hp

/-- Settles O17, by induction on the entries of the piece. -/
theorem acceptedChainsCoverTheirLength : Obligations.AcceptedChainsCoverTheirLength := by
  intro n w l hd hn hsum hf r
  have hs : Summing w := ⟨hsum, hn⟩
  have hw := walkPiece_walked n hs l
  refine ⟨hw.summing.sum, hw.want, hw.grows, fun hr => ?_⟩
  have hc := walkPiece_clean n hs (fun f h => ⟨⟨(hf f h).1, (hf f h).2.1⟩, (hf f h).2.2⟩) hd l hr
  exact ⟨hc.placed, hc.whole, fun hd' f h => (hc.going hd' f h).2, fun hd' => (hc.ended hd').trans hw.want⟩

/-! ## State blobs (R281 to R283, R488) -/

section restore
variable {b : Block} {i : Nat} {j : Job}

theorem stateRestore_asks (hj : b.job i = some j) (hw : j.stage = .waiting) (hd : j.restoreDone = false) (hm : mayProceed b j = true)
    (h0 : j.restore = {}) : stateRestore i b = offer .rp (readReqs (.stateBlob i) (stallIdent b j.stall.val) 2 (4 * j.stall.val + j.ring.val)
        (pieces (BitVec.ofNat 64 (field j.desc.iv 0 8)) 0 280)) (modJob i (fun j => { j with restore := { want := 280 } }) b) := by
  simp [stateRestore, hj, hw, hd, hm, h0]

theorem stateRestore_opens (hj : b.job i = some j) (hw : j.stage = .waiting) (hd : j.restoreDone = false) (hm : mayProceed b j = true)
    (h280 : j.restore.want = 280) (hf : j.restore.full = true) (hk : j.keyDone = true) :
    stateRestore i b = settle i (openState i j b) := by
  simp [stateRestore, hj, hw, hd, hm, h280, hf, hk]

theorem openState_opened (hj : b.job i = some j) (he : j.restore.err = false) (hk : takesKey j.desc = true → HasEntropy b) :
    openState i j b = modJob i (fun x => { x with
        found := x.found ++ (restoreConds (useSys 2 b) j j.restore.bytes).1
        restored := if takesKey j.desc then share2 (useSys 2 b) (restoreConds (useSys 2 b) j j.restore.bytes).2
          else [(restoreConds (useSys 2 b) j j.restore.bytes).2]
        absorbed := field j.restore.bytes 16 8, restoreDone := true })
      (if takesKey j.desc then drew (useSys 2 b) else useSys 2 b) := by
  have hu : (useSys 2 b).job i = some j := (job_of_jobs (useSys_jobs 2 b) i).trans hj
  cases ht : takesKey j.desc with
  | false =>
    simp only [openState, he, ht, Bool.false_eq_true, if_false, Bool.false_and]
    exact modJob_congr hu rfl
  | true =>
    obtain ⟨hs, hp⟩ := hk ht
    simp only [openState, he, ht, hs, hp, Bool.false_eq_true, if_false, if_true, Bool.and_false]
    exact modJob_congr (b := drew (useSys 2 b)) hu rfl

theorem openState_refused (he : j.restore.err = false) (ht : takesKey j.desc = true) (hs : b.boot.entropyStopped = true) :
    openState i j b = modJob i (fun x => { x with found := x.found ++ [.islandReset], restoreDone := true }) b := by
  simp [openState, he, ht, hs]

theorem openState_waits (he : j.restore.err = false) (ht : takesKey j.desc = true) (hs : b.boot.entropyStopped = false)
    (hp : b.boot.entropyPaused = true) : openState i j b = b := by
  simp [openState, he, ht, hs, hp]

end restore

/-- Settles O18. -/
theorem stateBlobsAreOpened : Obligations.StateBlobsAreOpened := by
  intro s i j b hr hh hj hw hd hm
  refine ⟨fun h0 => updOn_sends hr hh rfl (stateRestore_asks hj hw hd hm h0), fun h280 hf he hk hent => updOn_gives hr hh ?opened,
    fun h280 hf he hk ht => ⟨fun hs => updOn_gives hr hh ?refused, fun hs hp => updOn_gives hr hh ?waits⟩⟩
  case opened => exact (stateRestore_opens hj hw hd hm h280 hf hk).trans (by rw [openState_opened hj he hent])
  case refused => exact (stateRestore_opens hj hw hd hm h280 hf hk).trans (by rw [openState_refused he ht hs])
  case waits =>
    refine (stateRestore_opens hj hw hd hm h280 hf hk).trans ?_
    rw [openState_waits he ht hs hp]
    exact settle_unprepared hj (by simp [prepared, hd])

end Sys2Proof.Machine
end


section
/-!
SUPPORT. Engine grants and hitches (R233 to R240, R285, R359 to R363).
-/

namespace Sys2Proof.Machine

open Sys2Proof

/-! ## The highest waiting class -/

@[simp] theorem topClass_nil : topClass [] = none := by
  simp [topClass]

/-- A class below 4 that some waiting job has, and below which none has any, is the one served. -/
theorem topClass_of_least {l : List (Nat × Job)} {c : Nat} (hc : c < 4) (hle : ∀ x ∈ l, c ≤ x.2.eff)
    (hex : ∃ x ∈ l, x.2.eff = c) : topClass l = some c := by
  obtain ⟨x, hx, he⟩ := hex
  refine List.find?_range_eq_some.2 ⟨?_, ?_, ?_⟩
  · exact List.any_eq_true.2 ⟨x, hx, by simp [he]⟩
  · exact List.mem_range.2 hc
  · intro k hk
    simp only [Bool.not_eq_true', List.any_eq_false, beq_iff_eq]
    intro y hy he'
    exact absurd (hle y hy) (by omega)

/-- The class served is below 4, and no waiting job is of a lower one. -/
theorem topClass_le {l : List (Nat × Job)} {c : Nat} (h : topClass l = some c) : ∀ x ∈ l, c ≤ x.2.eff := by
  obtain ⟨-, hmem, hlow⟩ := List.find?_range_eq_some.1 h
  rw [List.mem_range] at hmem
  intro x hx
  by_contra hlt
  push Not at hlt
  have := hlow x.2.eff hlt
  simp only [Bool.not_eq_true', List.any_eq_false, beq_iff_eq] at this
  exact this x hx rfl

/-- The job the unwrap units serve next is of the highest class of their queue. -/
theorem unwrapChoice_le {b : Block} {i : Nat} {j : Job} (h : unwrapChoice b = some (i, j)) :
    ∀ x ∈ unwrapQueue b, j.eff ≤ x.2.eff := by
  simp only [unwrapChoice, Option.bind_eq_some_iff] at h
  obtain ⟨c, hc, n, -, hfind⟩ := h
  have hmem := List.mem_of_find?_eq_some hfind
  simp only [List.mem_filter, beq_iff_eq] at hmem
  obtain ⟨⟨-, heff⟩, -⟩ := hmem
  exact fun x hx => heff ▸ topClass_le hc x hx

/-! ## What a grant does -/

theorem grantUnwrap_gives {b : Block} {i : Nat} {j : Job} {g : Engine} (hc : unwrapChoice b = some (i, j))
    (hw : blobWaits b j = false) (hg : engineFor b i j .unwrap = some g) :
    grantUnwrap b = giveEngine i j g (modJob i (fun x => { x with estCost := estCost b j.desc j.pblk (costKeys b j) })
      (unwrapCharge i j (estCost b j.desc j.pblk (costKeys b j)) b)) := by
  simp only [grantUnwrap, hc, hw, hg, Bool.false_eq_true, if_false]

theorem grantClass_none {e : EngClass} {b : Block} (h : servable b e = []) : grantClass e b = b := by
  simp [grantClass, h]

section
variable {e : EngClass} {b : Block} {c i : Nat} {j : Job} (ht : topClass (servable b e) = some c)
include ht

theorem grantClass_hitched (hf : firstHitched ((servable b e).filter fun x => x.2.eff == c) = some (i, j)) :
    (∀ g, engineFor b i j e = some g → grantClass e b = lapseIn (classNum e) j (giveEngine i j g b))
    ∧ (engineFor b i j e = none → grantClass e b = reservePair i b) := by
  constructor
  · intro g hg
    simp only [grantClass, ht, hf, hg]
  · intro hg
    simp only [grantClass, ht, hf, hg]

theorem grantClass_fresh (hf : firstHitched ((servable b e).filter fun x => x.2.eff == c) = none) :
    grantClass e b = grantFresh e c ((servable b e).filter fun x => x.2.eff == c) b := by
  simp only [grantClass, ht, hf]

end

theorem grantFresh_served {e : EngClass} {c : Nat} {m : List (Nat × Job)} {b : Block} {n i : Nat} {j : Job}
    (hn : drrChoose b (classNum e) c (m.map fun x => x.2.stall.val).dedup = some n) (hs : stallHead m n = some (i, j)) :
    (∀ g, engineFor b i j e = some g → grantFresh e c m b =
      giveEngine i j g (modJob i (fun x => { x with estCost := estCost b j.desc j.pblk j.keys })
        (drrGrant (classNum e) c i n (estCost b j.desc j.pblk j.keys) (m.map fun x => x.2.stall.val).dedup b)))
    ∧ (engineFor b i j e = none → grantFresh e c m b = reservePair i b) := by
  constructor
  · intro g hg
    simp only [grantFresh, hn, hs, hg]
  · intro hg
    simp only [grantFresh, hn, hs, hg]

theorem engineGrant_stopped {b : Block} (h : b.boot.entropyStopped = true) : engineGrant .entropy b = endEntropyJobs b := by
  simp [engineGrant, h]

theorem engineGrant_unwrap (b : Block) : engineGrant .unwrap b = grantUnwrap b := by
  simp [engineGrant]

theorem engineGrant_retry {b : Block} (h : retryServable (moveAllKept b) = true) :
    engineGrant .cipher b = laneRetry (moveAllKept b) := by
  simp [engineGrant, h]

/-- Where no retry goes first, the entropy island serves and the units are not asked, a grant serves one class. -/
theorem engineGrant_class {e : EngClass} {b b0 : Block} (hb : b0 = if e = .cipher then moveAllKept b else b) (hu : e ≠ .unwrap)
    (hs : ¬ (e = .entropy ∧ b0.boot.entropyStopped = true)) (hr : ¬ (e = .cipher ∧ retryServable b0 = true)) :
    engineGrant e b = grantClass e (if e = .cipher then each (retries b0) reserveRetry b0 else b0) := by
  subst hb
  cases e
  case unwrap => exact absurd rfl hu
  case cipher => simp_all [engineGrant]
  case entropy => simp_all [engineGrant]
  all_goals simp [engineGrant]

/-- Settles O19: the class served is the least with a waiting job, and in it the branches are those of the grant. -/
theorem grantsServeTheHighestClass : Obligations.GrantsServeTheHighestClass := by
  intro s e hr hh b0 b l
  have hgives : ∀ {t : Block}, engineGrant e s.blk = t → Gives (.engineGrant e) s t := by
    rintro t rfl
    exact updOn_gives hr hh rfl
  refine ⟨?_, ?_, ?_, ?_⟩
  · rintro rfl hs
    exact hgives (engineGrant_stopped hs)
  · rintro rfl hs
    exact hgives (engineGrant_retry hs)
  · rintro rfl
    have hg : ∀ {t : Block}, grantUnwrap b0 = t → Gives (.engineGrant .unwrap) s t :=
      fun h => hgives ((engineGrant_unwrap _).trans h)
    refine ⟨fun hn => hg (by simp only [grantUnwrap, hn]), fun i j hc => ⟨unwrapChoice_le hc, ?_, ?_⟩⟩
    · exact fun hw => hg (by simp only [grantUnwrap, hc, hw, if_true])
    · exact fun g hw hf => hg (grantUnwrap_gives hc hw hf)
  · intro hu hs hr
    have hclass : ∀ {t : Block}, grantClass e b = t → Gives (.engineGrant e) s t :=
      fun h => hgives ((engineGrant_class rfl hu hs hr).trans h)
    refine ⟨fun hl => hclass (grantClass_none hl), ?_⟩
    intro c hc hle hex
    dsimp only
    have ht : topClass (servable b e) = some c := topClass_of_least hc hle hex
    refine ⟨fun i j hf => ?_, fun n i j hf hn hs => ?_⟩
    · obtain ⟨hgive, hres⟩ := grantClass_hitched ht hf
      exact ⟨fun g hg => hclass (hgive g hg), fun hg => hclass (hres hg)⟩
    · obtain ⟨hgive, hres⟩ := grantFresh_served hn hs
      exact ⟨fun g hg => hclass ((grantClass_fresh ht hf).trans (hgive g hg)),
        fun hg => hclass ((grantClass_fresh ht hf).trans (hres hg))⟩

/-! ## Hitches -/

/-- An operation on an island that holds, or one that leaves the block as it is, changes nothing. -/
theorem updOn_same {s : State} {i : Nat} {f : Block → Block} (hr : s.blk.boot.ready = true)
    (h : holding s.blk i = true ∨ f s.blk = s.blk) : updOn s i f = .next { s with blk := s.blk } := by
  refine updReady_gives hr ?_
  cases hh : holding s.blk i
  · simpa [hh] using h
  · rfl

/-- A zero-fill may leave anywhere. -/
theorem leavesAt_zeroFill {j : Job} (h : j.zeroFill = true) (k : Nat) : leavesAt j k = true := by
  simp [leavesAt, h]

theorem not_leavesAt {j : Job} {k : Nat} (hz : j.zeroFill = false) (hb : boundary j k = false) : leavesAt j k = false := by
  simp [leavesAt, hz, hb]

theorem leavesAt_boundary {j : Job} {k : Nat} (hb : boundary j k = true) (hs : seenLen j ≤ k) (hk : k ≤ haveLen j)
    (hr : (j.restore.full || k == seenLen j) = true) (hc : chuteBehind j k = true)
    (hm : (stagedOut j || mayRelease j (passOut j k)) = true) : leavesAt j k = true := by
  have : reaches j k = true := by
    unfold reaches
    rw [hr, hc, hm, decide_eq_true hk, decide_eq_true hs]
    rfl
  simp [leavesAt, hb, this]

/-- A digest leaves while it absorbs, at a boundary it can have come to. -/
theorem digestLeavesAt_boundary {b : Block} {j : Job} {k : Nat} (hb : boundary j k = true) (hs : j.seen.length ≤ k)
    (hk : k ≤ (haveSrc j).length) (hc : chuteBehind j k = true) : digestLeavesAt b j k = true := by
  simp [digestLeavesAt, hb, hs, hk, hc]

/-- A lane asked for gives up its first leaver at a place it can leave at, and does nothing elsewhere. -/
theorem hitch_lane {b : Block} {l : LaneId} {i : Nat} {j : Job} (hf : firstLeaver b l.val = some (i, j)) (k : Nat) :
    hitch (.lane l) k b =
      when ((laneForced b l.val || (laneAsked b l.val && laneHitchable b l.val)) && leavesAt j k) (laneLeave l.val k i j) b := by
  simp only [hitch, hf]

theorem hitch_digest {b : Block} {l : Fin 16} {i : Nat} {j : Job} (hi : b.digestJobs.get l.val = some i) (hj : b.job i = some j)
    (k : Nat) :
    hitch (.digest l) k b = when (digestAsked b l.val && canLeave b i j && digestLeavesAt b j k) (digestLeave l.val k i) b := by
  simp only [hitch, hi, hj]

/-- Settles O20. -/
theorem hitchesAtBlockBoundaries : Obligations.HitchesAtBlockBoundaries := by
  intro s k hr b
  refine ⟨?_, ?_, ?_⟩
  · intro l i j hh hf
    have hdo : ∀ {t : Block}, hitch (.lane l) k b = t → Gives (.hitch (.lane l) k) s t := by
      rintro t rfl
      exact updOn_gives hr hh rfl
    dsimp only
    refine ⟨fun hg hz => hdo ?_, fun hg hz hb hs hk hre hc hm => hdo ?_, fun hno => hdo ?_⟩
    · rw [hitch_lane hf, hg, leavesAt_zeroFill hz]
      rfl
    · rw [hitch_lane hf, hg, leavesAt_boundary hb hs hk hre hc hm]
      rfl
    · rw [hitch_lane hf]
      rcases hno with hg | ⟨hz, hb⟩
      · rw [hg]
        rfl
      · rw [not_leavesAt hz hb, Bool.and_false]
        rfl
  · exact fun l h => updOn_same hr (h.imp id fun hf => by simp only [hitch, b, hf])
  · intro l i j hh hi hj
    have hdo : ∀ {t : Block}, hitch (.digest l) k b = t → Gives (.hitch (.digest l) k) s t := by
      rintro t rfl
      exact updOn_gives hr hh rfl
    refine ⟨fun ha hl hb hs hk hc => hdo ?_, fun ha hl hat => hdo ?_, fun hno => hdo ?_⟩
    · rw [hitch_digest hi hj, ha, hl, digestLeavesAt_boundary hb hs hk hc]
      rfl
    · rw [hitch_digest hi hj, ha, hl, hat]
      rfl
    · rw [hitch_digest hi hj]
      rcases hno with ha | hat
      · rw [ha]
        rfl
      · rw [hat, Bool.and_false]
        rfl

end Sys2Proof.Machine
end


section
/-!
SUPPORT. The start of a prepared job (R20, R87, R101, R102, R243, R278).
-/

namespace Sys2Proof.Machine

open Sys2Proof

/-- What each step makes of one part of the block depends on that part alone. -/
theorem each_congr {α β : Type} {g : Block → β} {f : α → Block → Block} (h : ∀ x b c, g b = g c → g (f x b) = g (f x c))
    (l : List α) : ∀ {b c : Block}, g b = g c → g (each l f b) = g (each l f c) := by
  induction l with
  | nil => exact fun hb => hb
  | cons x l ih =>
    intro b c hb
    rw [each_cons, each_cons]
    exact ih (h x b c hb)

/-! ## The charge -/

theorem chargeUse_tack_congr (k : KeyCopy) {b c : Block} (h : b.tack = c.tack) : (chargeUse k b).tack = (chargeUse k c).tack := by
  have hslot : ∀ i, b.slot i = c.slot i := fun i => by rw [Block.slot, h, Block.slot]
  have hcount : countedSlot b k = countedSlot c k := by simp only [countedSlot, hslot]
  unfold chargeUse
  rw [hcount]
  split
  · exact h
  · simp [h]

/-- A charge writes no GEN. -/
theorem chargeUse_gen (k : KeyCopy) (b : Block) (n : Nat) : ((chargeUse k b).slot n).gen = (b.slot n).gen := by
  unfold chargeUse
  split
  · rfl
  · simp only [Block.slot, modSlot_tack, Tab.get_mod]
    split
    · rename_i h
      rw [h]
    · rfl

/-- A charge writes only slots. -/
theorem chargeUse_frame (k : KeyCopy) (b : Block) : chargeUse k b = { b with tack := (chargeUse k b).tack } := by
  unfold chargeUse
  split <;> rfl

/-! ## What the digest cache does at a start -/

section
variable (i : Nat) (j : Job) (b : Block)

theorem loadCore_frame : loadCore j b = { b with cores := (loadCore j b).cores } := by
  unfold loadCore
  split <;> rfl

theorem cacheAdd_frame (isl n alg : Nat) (k : KeyCopy) :
    ∃ islands draws, cacheAdd isl n alg k b = { b with islands, draws } := by
  simp only [cacheAdd]
  split
  · exact ⟨_, b.draws, rfl⟩
  · exact ⟨_, _, rfl⟩

/-- The look-up writes the island's cache, a draw, and the two states of its job's key. -/
theorem cacheUse_frame : ∃ islands draws, cacheUse i j b = { b with islands, draws, jobs := (cacheUse i j b).jobs } := by
  unfold cacheUse
  split
  · split
    · dsimp only
      split
      · exact ⟨b.islands, b.draws, rfl⟩
      · split
        · exact ⟨_, b.draws, rfl⟩
        · rename_i l k _ _ _ _ n _ _ _ _
          obtain ⟨islands, draws, h⟩ := cacheAdd_frame b (l.val / 8) n j.desc.alg k
          rw [h]
          exact ⟨islands, draws, rfl⟩
    · exact ⟨b.islands, b.draws, rfl⟩
  · exact ⟨b.islands, b.draws, rfl⟩

/-- Of its job the look-up writes the states alone. -/
theorem cacheUse_job {y : Job} (h : b.job i = some y) : ∃ p, (cacheUse i j b).job i = some { y with padded := p } := by
  have hself : ∃ p, b.job i = some { y with padded := p } := ⟨y.padded, h⟩
  unfold cacheUse
  split
  · split
    · dsimp only
      split
      · exact hself
      · split
        · exact ⟨_, modJob_job (b := modIsland _ _ b) h _⟩
        · rename_i l k _ _ _ _ n _ _ _ _
          obtain ⟨islands, draws, hadd⟩ := cacheAdd_frame b (l.val / 8) n j.desc.alg k
          rw [hadd]
          exact ⟨_, modJob_job (b := { b with islands, draws }) h _⟩
    · exact hself
  · exact hself

/-- The cache a look-up leaves depends on the islands, the draws, the entropy island and the GEN of the slots. -/
theorem cacheUse_islands_congr {b c : Block} (hi : b.islands = c.islands) (hd : b.draws = c.draws) (hb : b.boot = c.boot)
    (hg : ∀ n, (b.slot n).gen = (c.slot n).gen) : (cacheUse i j b).islands = (cacheUse i j c).islands := by
  have hadd : ∀ isl n alg k, (cacheAdd isl n alg k b).islands = (cacheAdd isl n alg k c).islands := by
    intro isl n alg k
    have hask : (noEntropy b || (b.slot n).gen != k.attrs.gen) = (noEntropy c || (c.slot n).gen != k.attrs.gen) := by
      rw [noEntropy, noEntropy, hb, hg]
    simp only [cacheAdd]
    rw [hask]
    split
    · rw [modIsland_islands, modIsland_islands, hi]
    · simp only [modIsland_islands, drew_islands, drbgNow, hi, hd]
  unfold cacheUse
  split
  · split
    · dsimp only
      split
      · exact hi
      · rw [hi]
        split
        · simp [hi]
        · simp [hadd]
    · exact hi
  · exact hi

end

/-! ## Reads and the running state -/

/-- Issuing the reads of a job changes the job's inputs and its port alone. -/
theorem issueReads_eq {i : Nat} {y : Job} {b : Block} (h : b.job i = some y) (skip : Nat) : ∃ f : Job → Job,
    issueReads i skip b = offer y.port (auxReads i y b 0 ++ readAt (.exp i) y b (tapRead y) ++ srcReads (.src i) y b skip) (modJob i f b)
    ∧ ∀ x, (f x).stage = x.stage ∧ (f x).started = x.started ∧ (f x).desc = x.desc ∧ (f x).keys = x.keys ∧ (f x).engine = x.engine := by
  simp only [issueReads, h]
  exact ⟨_, rfl, fun x => ⟨rfl, rfl, rfl, rfl, rfl⟩⟩

/-- Sharing the running state writes jobs and a free value. -/
theorem shareRunning_frame (i : Nat) (b : Block) :
    shareRunning i b = { b with jobs := (shareRunning i b).jobs, free := (shareRunning i b).free } := by
  unfold shareRunning
  split
  · rfl
  · rename_i j hj
    cases keyedDigest j && j.stage == .running <;> rfl

/-- Of its job it writes the shares of the state alone. -/
theorem shareRunning_job {i : Nat} {y : Job} {b : Block} (h : b.job i = some y) :
    ∃ r, (shareRunning i b).job i = some { y with running := r } := by
  simp only [shareRunning, h]
  cases keyedDigest y && y.stage == .running
  · exact ⟨y.running, h⟩
  · exact ⟨_, modJob_job h _⟩

theorem feed_memory {i : Nat} {y : Job} {b : Block} (h : b.job i = some y) (hc : inChute y.desc = none) : feed i b = b := by
  simp only [feed, h, hc]

/-! ## The start -/

@[simp] theorem cacheUse_stalls (i : Nat) (j : Job) (b : Block) : (cacheUse i j b).stalls = b.stalls := by
  obtain ⟨islands, draws, h⟩ := cacheUse_frame i j b
  rw [h]

@[simp] theorem cacheUse_tack (i : Nat) (j : Job) (b : Block) : (cacheUse i j b).tack = b.tack := by
  obtain ⟨islands, draws, h⟩ := cacheUse_frame i j b
  rw [h]

/-- A job at the start of its run: charged, its core loaded, the cache looked up. -/
def readied (i : Nat) (j : Job) (b : Block) : Block :=
  cacheUse i j (loadCore j (each (chargedKeys j) chargeUse (modJob i (fun y => { y with stage := .running, started := true }) b)))

section
variable {i : Nat} {j : Job} {b : Block}

/-- The charge and the core's region leave what is neither slot nor core. -/
theorem loadCore_charged {β : Type} {g : Block → β} (hg : ∀ c tack cores, g { c with tack, cores } = g c) (l : List KeyCopy) (c : Block) :
    g (loadCore j (each l chargeUse c)) = g c := by
  have hload : g (loadCore j (each l chargeUse c)) = g (each l chargeUse c) := by
    rw [loadCore_frame]
    exact hg _ (each l chargeUse c).tack _
  refine hload.trans (each_keeps (g := g) (fun k d => ?_) l c)
  rw [chargeUse_frame]
  exact hg d _ d.cores

theorem readied_job (hj : b.job i = some j) :
    ∃ p, (readied i j b).job i = some { j with stage := .running, started := true, padded := p } :=
  cacheUse_job i j _ ((loadCore_charged (g := fun c => c.job i) (fun _ _ _ => rfl) _ _).trans (modJob_job hj _))

theorem readied_stalls : (readied i j b).stalls = b.stalls :=
  (cacheUse_stalls i j _).trans (loadCore_charged (g := Block.stalls) (fun _ _ _ => rfl) _ _)

theorem readied_tack : (readied i j b).tack = (each (chargedKeys j) chargeUse b).tack := by
  refine (cacheUse_tack i j _).trans ?_
  rw [loadCore_frame]
  exact each_congr (g := Block.tack) (fun k _ _ => chargeUse_tack_congr k) _ rfl

theorem readied_islands : (readied i j b).islands = (cacheUse i j b).islands := by
  refine cacheUse_islands_congr i j ?_ ?_ ?_ fun n => ?_
  · exact loadCore_charged (g := Block.islands) (fun _ _ _ => rfl) _ _
  · exact loadCore_charged (g := Block.draws) (fun _ _ _ => rfl) _ _
  · exact loadCore_charged (g := Block.boot) (fun _ _ _ => rfl) _ _
  · rw [loadCore_frame]
    exact each_keeps (g := fun c => (c.slot n).gen) (fun k c => chargeUse_gen k c n) _ _

/-- The first reads of a job depend on its descriptor, its walks and its stall. -/
theorem reads_congr {x y : Job} {c : Block} {p : List Bytes} (hy : y = { x with padded := p }) (hs : c.stalls = b.stalls) :
    auxReads i y c 0 = auxReads i x b 0 ∧ readAt (.exp i) y c (tapRead y) = readAt (.exp i) x b (tapRead x)
      ∧ srcReads (.src i) y c 0 = srcReads (.src i) x b 0 := by
  have hid : ∀ n, stallIdent c n = stallIdent b n := fun n => by simp only [stallIdent, Block.stall, hs]
  subst hy
  refine ⟨?_, ?_, ?_⟩
  · simp only [auxReads, readAt, hid]
    rfl
  · simp only [readAt, hid]
    rfl
  · simp only [srcReads, hid]
    rfl

/-- A job that starts and does not read a chute offers its reads and shares its running state. -/
theorem startJob_memory (hj : b.job i = some j) (hc : inChute j.desc = none) :
    startJob i b = shareRunning i (offer .rp (tableReads i j b) (issueReads i 0 (readied i j b))) := by
  obtain ⟨p, hy⟩ := readied_job hj
  obtain ⟨f, h4, hf⟩ := issueReads_eq hy 0
  obtain ⟨-, -, hdesc, -, -⟩ := hf { j with stage := .running, started := true, padded := p }
  have hjob : (issueReads i 0 (readied i j b)).job i = some (f { j with stage := .running, started := true, padded := p }) := by
    rw [h4]
    exact (job_of_jobs (offer_jobs _ _ _) i).trans (modJob_job hy f)
  simp only [startJob, hj]
  refine congrArg (shareRunning i) (feed_memory (y := f { j with stage := .running, started := true, padded := p }) ?_ (by rw [hdesc]; exact hc))
  exact (job_of_jobs (offer_jobs _ _ _) i).trans hjob

/-- A started job that does not read a chute runs; its keys have been charged, the cache looked up and its reads offered. -/
theorem startJob_starts (hj : b.job i = some j) (hc : inChute j.desc = none) :
    let t := startJob i b
    let x : Job := { j with stage := .running, started := true }
    (∃ y, t.job i = some y ∧ y.stage = .running ∧ y.started = true ∧ y.desc = j.desc ∧ y.keys = j.keys ∧ y.engine = j.engine)
      ∧ t.tack = (each (chargedKeys j) chargeUse b).tack ∧ t.islands = (cacheUse i j b).islands
      ∧ (∀ r ∈ srcReads (.src i) x b 0 ++ auxReads i x b 0 ++ readAt (.exp i) x b (tapRead x), Offered t j.port r)
      ∧ (∀ r ∈ tableReads i x b, Offered t .rp r) := by
  dsimp only
  obtain ⟨p, hy⟩ := readied_job hj
  obtain ⟨f, h4, hf⟩ := issueReads_eq hy 0
  obtain ⟨fstage, fstarted, fdesc, fkeys, fengine⟩ := hf { j with stage := .running, started := true, padded := p }
  obtain ⟨haux, hexp, hsrc⟩ := reads_congr (i := i) (b := b) (x := { j with stage := .running, started := true }) (p := p) rfl
    (readied_stalls (i := i) (j := j) (b := b))
  rw [haux, hexp, hsrc] at h4
  have ht := startJob_memory hj hc
  rw [h4] at ht
  have hframe := shareRunning_frame i (offer .rp (tableReads i j b) (issueReads i 0 (readied i j b)))
  rw [h4, ← ht] at hframe
  have hport : ∀ q r, Offered (offer .rp (tableReads i j b) (issueReads i 0 (readied i j b))) q r → Offered (startJob i b) q r := by
    intro q r h
    rw [h4] at h
    exact offered_of_port (by rw [hframe]; cases q <;> rfl) h
  refine ⟨?_, ?_, ?_, ?_, ?_⟩
  · obtain ⟨r, hr⟩ := shareRunning_job (i := i) ((job_of_jobs (offer_jobs _ .rp (tableReads i j b)) i).trans
      ((job_of_jobs (offer_jobs _ j.port _) i).trans (modJob_job hy f)))
    rw [ht]
    exact ⟨_, hr, fstage, fstarted, fdesc, fkeys, fengine⟩
  · rw [hframe]
    simp only [offer_tack, modJob_tack, readied_tack]
  · rw [hframe]
    simp only [offer_islands, modJob_islands, readied_islands]
  · intro r hr
    refine hport _ _ (offer_keeps ?_)
    rw [h4]
    refine offer_offered ?_
    simp only [List.mem_append] at hr ⊢
    tauto
  · exact fun r hr => hport _ _ (offer_offered hr)

/-! ## When a prepared job starts -/

section
variable (hj : b.job i = some j) (hh : holding b 0 = false)
include hj hh

theorem settle_ends {st : Status} (hw : j.stage = .waiting) (hp : prepared j = true) (hl : lowest j.found = some st) :
    settle i b = endJob i st b := by
  simp [settle, hh, hj, hl, hw, hp]

/-- Where every condition of a start holds, the job starts, but for the mask its lane has to draw. -/
theorem settle_mayStart (hm : mayStart b j = true) :
    settle i b = if cacheMiss b j && b.boot.entropyStopped then endJob i .islandReset b
      else when (!(cacheMiss b j && b.boot.entropyPaused)) (startJob i) b := by
  have hfound : lowest j.found = none := by
    simp only [mayStart, Bool.and_eq_true, beq_iff_eq] at hm
    obtain ⟨⟨⟨⟨⟨⟨⟨-, -⟩, -⟩, hf⟩, -⟩, -⟩, -⟩, -⟩ := hm
    rw [hf]
    rfl
  simp only [settle, hh, hj, hfound, hm, when_true, Bool.false_eq_true, if_false]
  split <;> rfl

end

/-- Settles O21: the conditions of a start decide, and the start itself is `startJob_starts`. -/
theorem preparedJobsStartOrEnd : Obligations.PreparedJobsStartOrEnd := by
  intro b i j hj hw hp
  refine ⟨fun hh => by simp [settle, hh], fun hh => ⟨?_, ?_, ?_⟩⟩
  · exact fun st hl => settle_ends hj hh hw hp hl
  · intro hm hmiss
    refine ⟨fun hs => ?_, fun hs hpause => ?_⟩
    · rw [settle_mayStart hj hh hm, hmiss, hs]
      rfl
    · rw [settle_mayStart hj hh hm, hmiss, hs, hpause]
      rfl
  · intro hf he hpr hc hheld hcharge hent
    have hm : mayStart b j = true := by
      simp [mayStart, hw, he, hp, hf, hpr, inputThere, hc, hheld, hcharge]
    have hs : settle i b = startJob i b := by
      rw [settle_mayStart hj hh hm]
      cases hmiss : cacheMiss b j
      · rfl
      · obtain ⟨hstop, hpause⟩ := hent hmiss
        rw [hstop, hpause]
        rfl
    rw [hs]
    exact startJob_starts hj hc

end

end Sys2Proof.Machine
end


section
/-!
SUPPORT. Finished work: output, further areas, and the drain (R15, R22, R27, R201, R243).
-/

namespace Sys2Proof.Machine

open Sys2Proof

/-! ## Output -/

theorem stalls_of_still {b c : Block} (h : c.still = b.still) : c.stalls = b.stalls := by
  rw [← still_stalls, h, still_stalls]

theorem jobs_of_still {b c : Block} (h : c.still = b.still) : c.jobs = b.jobs := by
  rw [← still_jobs, h, still_jobs]

section
variable {i : Nat} {j : Job} {b : Block}

theorem writeAt_eq (h : b.job i = some j) (a : Addr) (data : Bytes) :
    writeAt i a data b = offer j.port (jobWrites b i j 0 data (pieces a 0 data.length)) b := by
  simp only [writeAt, h]

theorem writeOut_memory (h : b.job i = some j) (hc : outChute j.desc = none) (off : Nat) (more : Bool) (data : Bytes) :
    writeOut i off more data b = offer j.port (jobWrites b i j off data (dstPieces j off data.length)) b := by
  simp [writeOut, h, hc]

@[simp] theorem writeAt_still (i : Nat) (a : Addr) (data : Bytes) (b : Block) : (writeAt i a data b).still = b.still := by
  unfold writeAt
  split
  · rfl
  · exact offer_still _ _ _

/-- A write at one address keeps what is offered. -/
theorem writeAt_keeps {p : Port} {q : Req} (a : Addr) (data : Bytes) (h : Offered b p q) : Offered (writeAt i a data b) p q := by
  unfold writeAt
  split
  · exact h
  · exact offer_keeps h

/-- The writes of several areas keep what is offered, and offer each area's own. -/
theorem writesAt_offered (more : List (Addr × Bytes)) : ∀ {c : Block}, c.still = b.still → b.job i = some j →
    (∀ p q, Offered c p q → Offered (each more (fun p => writeAt i p.1 p.2) c) p q)
      ∧ ∀ p ∈ more, ∀ q ∈ jobWrites b i j 0 p.2 (pieces p.1 0 p.2.length), Offered (each more (fun p => writeAt i p.1 p.2) c) j.port q := by
  induction more with
  | nil => exact fun _ _ => ⟨fun _ _ h => h, by simp⟩
  | cons a l ih =>
    intro c hc hj
    obtain ⟨hkeep, hoff⟩ := ih (c := writeAt i a.1 a.2 c) ((writeAt_still _ _ _ _).trans hc) hj
    have hcj : c.job i = some j := (job_of_jobs (jobs_of_still hc) i).trans hj
    have hreqs : jobWrites c i j 0 a.2 (pieces a.1 0 a.2.length) = jobWrites b i j 0 a.2 (pieces a.1 0 a.2.length) := by
      simp only [jobWrites, stallIdent, Block.stall, stalls_of_still hc]
    refine ⟨fun p q h => hkeep p q (writeAt_keeps _ _ h), ?_⟩
    rintro p hp q hq
    rcases List.mem_cons.1 hp with rfl | hp
    · refine hkeep _ _ ?_
      rw [writeAt_eq hcj, hreqs]
      exact offer_offered hq
    · exact hoff p hp q hq

end

/-! ## The drain -/

section
variable {i : Nat} {j : Job} {b : Block}

theorem drain_eq (i : Nat) (r : RunResult) (b : Block) :
    drain i r b = laneDone i (modJob i (fun x => { x with stage := .draining, result := r }) b) := rfl

/-- On another engine than a lane nothing is let go before the end. -/
theorem laneDone_other (h : b.job i = some j) (he : ∀ l, j.engine ≠ some (.lane l)) : laneDone i b = b := by
  unfold laneDone
  rw [h]
  dsimp only
  split
  · rename_i l hl
    exact absurd hl (he l)
  · rfl

theorem laneDone_lane (h : b.job i = some j) {l : LaneId} (he : j.engine = some (.lane l)) :
    laneDone i b = when (laneEmpty b i j && !engineHeld b j) (fun b => modJob i (fun x => { x with keys := [] }) (freeEngine i b)) b := by
  unfold laneDone
  simp only [h, he]

/-- A lane that is not leaving stays as it is when its job has left. -/
theorem leave_staying {l : Nat} (h : (b.lane l).leaving = false) : leave l b = b := by
  simp [leave, h]

theorem each_leave_staying (h : ∀ l, (b.lane l).leaving = false) (ls : List Nat) : each ls leave b = b := by
  induction ls with
  | nil => rfl
  | cons l ls ih => rw [each_cons, leave_staying (h l), ih]

/-- The lanes without job `i`. -/
def lanesWithout (i : Nat) (b : Block) : Tab Lane := lanes8.foldl (fun t l => t.mod l fun x => { x with jobs := x.jobs.erase i }) b.lanes

theorem lanesWithout_get (i : Nat) (b : Block) (l : Nat) : (lanesWithout i b).get l =
    if l < 8 then { b.lane l with jobs := (b.lane l).jobs.erase i } else b.lane l :=
  get_foldl_mod_range (fun x : Lane => { x with jobs := x.jobs.erase i }) 8 b.lanes l

theorem freeEngine_lane (h : b.job i = some j) {l : LaneId} (he : j.engine = some (.lane l)) (hl : ∀ l, (b.lane l).leaving = false) :
    freeEngine i b = { b with lanes := lanesWithout i b } := by
  unfold freeEngine
  simp only [h, Option.bind_some, he]
  refine each_leave_staying (b := { b with lanes := lanesWithout i b }) (fun m => ?_) _
  show ((lanesWithout i b).get m).leaving = false
  rw [lanesWithout_get]
  split <;> exact hl m

theorem notMem_lanesWithout (hn : ∀ l, (b.lane l).jobs.Nodup) (k : LaneId) : i ∉ ((lanesWithout i b).get k.val).jobs := by
  rw [lanesWithout_get, if_pos k.isLt]
  exact (hn k.val).not_mem_erase

/-- What a job's finished work leaves but for the drain: its writes. -/
theorem written_still (h : b.job i = some j) (hc : outChute j.desc = none) (out : Bytes) (more : List (Addr × Bytes)) :
    (each more (fun p => writeAt i p.1 p.2) (writeOut i j.dstDone false (out.drop j.dstDone) b)).still = b.still := by
  refine (each_keeps (g := Block.still) (fun p c => writeAt_still _ _ _ c) _ _).trans ?_
  rw [writeOut_memory h hc]
  exact offer_still _ _ _

theorem finish_eq (h : b.job i = some j) (out : Bytes) (more : List (Addr × Bytes)) (r : RunResult) :
    finish i out more r b = drain i r (each more (fun p => writeAt i p.1 p.2) (writeOut i j.dstDone false (out.drop j.dstDone) b)) := by
  simp only [finish, h]

/-- On another engine than a lane a drained job keeps its place. -/
theorem drain_other (h : b.job i = some j) (he : ∀ l, j.engine ≠ some (.lane l)) (r : RunResult) :
    drain i r b = modJob i (fun _ => { j with stage := .draining, result := r }) b := by
  rw [drain_eq, laneDone_other (modJob_job h _) he]
  exact modJob_congr h rfl

/-- A lane lets a drained job go when it has handed over its last block, and otherwise keeps it. -/
theorem drain_lane (h : b.job i = some j) {l : LaneId} (he : j.engine = some (.lane l)) (hl : ∀ l, (b.lane l).leaving = false) (r : RunResult) :
    (j.outRest = [] ∧ waitingWrites b i = [] ∧ engineHeld b j = false →
      drain i r b = modJob i (fun _ => { j with stage := .draining, result := r, keys := [] }) { b with lanes := lanesWithout i b })
    ∧ (¬ (j.outRest = [] ∧ waitingWrites b i = [] ∧ engineHeld b j = false) →
      drain i r b = modJob i (fun _ => { j with stage := .draining, result := r }) b) := by
  have hmod : modJob i (fun x => { x with stage := .draining, result := r }) b = modJob i (fun _ => { j with stage := .draining, result := r }) b :=
    modJob_congr h rfl
  have hcond : (laneEmpty (modJob i (fun _ => { j with stage := .draining, result := r }) b) i { j with stage := .draining, result := r }
      && !engineHeld (modJob i (fun _ => { j with stage := .draining, result := r }) b) { j with stage := .draining, result := r }) =
      decide (j.outRest = [] ∧ waitingWrites b i = [] ∧ engineHeld b j = false) := by
    have hw : waitingWrites (modJob i (fun _ => { j with stage := .draining, result := r }) b) i = waitingWrites b i := rfl
    have hh : engineHeld (modJob i (fun _ => { j with stage := .draining, result := r }) b) { j with stage := .draining, result := r }
      = engineHeld b j := rfl
    simp only [laneEmpty, hw, hh]
    rw [Bool.eq_iff_iff]
    simp [and_assoc]
  rw [drain_eq, hmod, laneDone_lane (modJob_job h _) he, hcond]
  refine ⟨fun hdone => ?_, fun hnot => ?_⟩
  · rw [decide_eq_true hdone, when_true, freeEngine_lane (modJob_job h _) he hl]
    exact modJob_modJob i _ _ { b with lanes := lanesWithout i b }
  · rw [decide_eq_false hnot]
    rfl

/-- A drain touches no port where the lanes stay. -/
theorem drain_port (h : b.job i = some j) (hl : ∀ l, (b.lane l).leaving = false) (r : RunResult) (p : Port) :
    (drain i r b).port p = b.port p := by
  by_cases he : ∃ l, j.engine = some (.lane l)
  · obtain ⟨l, he⟩ := he
    obtain ⟨hgo, hstay⟩ := drain_lane h he hl r
    by_cases hdone : j.outRest = [] ∧ waitingWrites b i = [] ∧ engineHeld b j = false
    · rw [hgo hdone]
      cases p <;> rfl
    · rw [hstay hdone]
      cases p <;> rfl
  · rw [drain_other h fun l hl => he ⟨l, hl⟩]
    cases p <;> rfl

end

/-- Settles O22: the writes leave the rest of the block, and the drain is `drain_lane` or leaves the job where it is. -/
theorem finishedWorkIsWritten : Obligations.FinishedWorkIsWritten := by
  intro b i j out more r hj hc hlanes
  dsimp only
  have hstill := written_still hj hc out more
  generalize hw : each more (fun p => writeAt i p.1 p.2) (writeOut i j.dstDone false (out.drop j.dstDone) b) = w at hstill
  have ht : finish i out more r b = drain i r w := (finish_eq hj out more r).trans (congrArg _ hw)
  have hwj : w.job i = some j := (job_of_jobs (jobs_of_still hstill) i).trans hj
  have hwl : w.lanes = b.lanes := by rw [← still_lanes, hstill, still_lanes]
  have hleave : ∀ l, (w.lane l).leaving = false := fun l => by
    rw [Block.lane, hwl]
    exact (hlanes l).2
  have hnodup : ∀ l, (w.lane l).jobs.Nodup := fun l => by
    rw [Block.lane, hwl]
    exact (hlanes l).1
  have hheld : engineHeld b j = engineHeld w j := by
    have : w.holds = b.holds := by rw [← still_holds, hstill, still_holds]
    simp only [engineHeld, holding, this]
  have hmod : ∀ y : Job, (modJob i (fun _ => y) w).still = (modJob i (fun _ => y) b).still := fun y =>
    congrArg (modJob i fun _ => y) hstill
  have hport : ∀ p, (drain i r w).port p = w.port p := drain_port hwj hleave r
  have hwait : waitingWrites (drain i r w) i = waitingWrites w i := by
    rw [waitingWrites, show (drain i r w).dp0 = w.dp0 from hport .dp0, show (drain i r w).dp1 = w.dp1 from hport .dp1]
    rfl
  rw [ht]
  refine ⟨?_, ?_, ?_, ?_⟩
  · intro he
    rw [drain_other hwj he]
    exact hmod _
  · intro l he
    rw [hwait, hheld]
    obtain ⟨hgo, hstay⟩ := drain_lane hwj he hleave r
    refine ⟨fun hdone => ?_, fun hnot => ?_⟩
    · rw [hgo hdone]
      refine ⟨?_, fun k => notMem_lanesWithout hnodup k⟩
      rw [← hwl]
      exact hmod _
    · rw [hstay hnot]
      exact hmod _
  · intro q hq
    refine offered_of_port (hport _) ?_
    rw [← hw]
    refine (writesAt_offered (b := b) more (by rw [writeOut_memory hj hc]; exact offer_still _ _ _) hj).1 _ _ ?_
    rw [writeOut_memory hj hc]
    exact offer_offered hq
  · intro p hp q hq
    refine offered_of_port (hport _) ?_
    rw [← hw]
    exact (writesAt_offered (b := b) more (by rw [writeOut_memory hj hc]; exact offer_still _ _ _) hj).2 p hp q hq

end Sys2Proof.Machine
end


section
/-!
SUPPORT. The cipher lanes' and the digest lanes' opcodes (R91, R96, R97, R201 to R209, R218, R222 to R226, R251 to R266, R271 to R284).
-/

namespace Sys2Proof.Machine

open Sys2Proof

/-! ## A job whose inputs are there -/

section
variable {s : State} {i op : Nat} {j : Job} {b t : Block} {f : Nat → Job → Block → Block}

/-- An opcode's work on a job whose inputs are there. -/
theorem works_gives (hr : s.blk.boot.ready = true) (hb : feedAndCheck i s.blk = b) (hw : Works b op i j) (hf : f i j b = t) :
    updReady s (fun b => onReady op i (f i) (feedAndCheck i b)) = .next { s with blk := t } := by
  obtain ⟨hj, hop, hin⟩ := hw
  refine updReady_gives hr ?_
  rw [hb]
  unfold onReady
  simp only [hj, hop, hin, BEq.rfl, Bool.and_self, when_true, hf]

/-- A check that waits for its delay changes nothing. -/
theorem onCheck_waits {g : Block → Block} (hp : b.boot.entropyPaused = true) (hs : b.boot.entropyStopped = false) : onCheck g b = b := by
  simp [onCheck, hp, hs]

theorem onCheck_runs {g : Block → Block} (h : ¬ (b.boot.entropyPaused = true ∧ b.boot.entropyStopped = false)) : onCheck g b = g b := by
  refine if_neg ?_
  simpa using h

theorem withRandom_draws (h : HasEntropy b) (g : Block → Block) : withRandom i g b = g b := by
  obtain ⟨hs, hp⟩ := h
  simp [withRandom, hs, hp]

theorem passes_iff (b : Block) (v : Verdict) (eq : Bool) :
    passes b v eq = true ↔ v = .sound ∧ b.boot.entropyStopped = false ∧ eq = true := by
  simp only [passes, Bool.and_eq_true, Bool.not_eq_true', beq_iff_eq]
  tauto

theorem verdictEvent_eq (v : Verdict) (b : Block) : verdictEvent v b =
    if v = .split then withEvent evDecisionSplit [] b else if v = .invalid then withEvent evVerdictInvalid [] b else b := by
  cases v <;> rfl

end

/-! ## ENCRYPT, DECRYPT, MAC_GEN and SEAL -/

/-- A SEAL in one pass. -/
theorem runSeal_one {i : Nat} {j : Job} {b : Block} (h : j.desc.mode ≠ 6 ∨ j.desc.payload = 0) :
    runSeal i j b =
      let r := sealText j.desc.mode j.desc.param (keyAt j 0) (jobIv j) ((haveSrc j).take j.desc.aLen) ((haveSrc j).drop j.desc.aLen)
      finish i (fit j.desc.payload r.1) [(j.desc.aux, r.2)] { bytesWritten := j.desc.payload } b := by
  have htwo : (j.desc.mode == 6 && j.desc.payload != 0) = false := by
    rcases h with h | h <;> simp [h]
  simp only [runSeal, htwo, Bool.false_and, Bool.false_eq_true, if_false, doneWith]

section
variable {i : Nat} {j : Job} {b : Block} (hm : j.desc.mode = 6) (hp : j.desc.payload ≠ 0)
include hm hp

theorem runSeal_first (h2 : j.pass2 = false) : runSeal i j b = secondPass i j b := by
  simp [runSeal, hm, hp, h2]

theorem runSeal_waits (h2 : j.pass2 = true) (ha : j.again.full = false) : runSeal i j b = b := by
  simp [runSeal, hm, hp, h2, ha]

theorem runSeal_second (h2 : j.pass2 = true) (ha : j.again.full = true) :
    runSeal i j b =
      let d := j.desc
      let aad := (haveSrc j).take d.aLen
      let pt := (haveSrc j).drop d.aLen
      finish i (fit d.payload (aeadStream 6 (keyAt j 0) (jobIv j) (fullTag 6 (keyAt j 0) (jobIv j) aad pt) (payload2 j)))
        [(d.aux, (sealText d.mode d.param (keyAt j 0) (jobIv j) aad pt).2)] { bytesWritten := d.payload } b := by
  simp [runSeal, hm, hp, h2, ha, doneWith]

end

/-- A second pass offers the reads of the payload from where it stands. -/
theorem secondPass_sends {s : State} {c : Instr} {i : Nat} {j : Job} {b : Block} (h : exec c s = .next { s with blk := secondPass i j b }) :
    let skip := j.desc.aLen + j.seen2.length
    Sends c s (modJob i (fun x => { x with
        pass2 := true, again := { want := j.desc.sLen - skip, parts := if j.desc.srcChute then [(skip, j.chuteIn.drop skip)] else [] } }) b)
      j.port (srcReads (.srcAgain i) j b skip) :=
  ⟨_, h, offer_still _ _ _, fun _ hr => offer_offered hr⟩

/-- Settles O23: each opcode's work, and the two passes of a GCM-SIV seal. -/
theorem ciphersAndTags : Obligations.CiphersAndTags := by
  intro s i j b hr hb
  dsimp only
  refine ⟨fun hw => ?_, fun hw => ?_, fun hw => ?_, fun hw => ⟨fun hone => ?_, fun hm hp => ⟨fun h2 => ?_, fun h2 ha => ?_, fun h2 ha => ?_⟩⟩⟩
  · exact works_gives (f := runPlainCipher false) hr hb hw rfl
  · exact works_gives (f := runPlainCipher true) hr hb hw rfl
  · exact works_gives (f := runMacGen) hr hb hw rfl
  · exact works_gives (f := runSeal) hr hb hw (runSeal_one hone)
  · exact secondPass_sends (works_gives (f := runSeal) hr hb hw (runSeal_first hm hp h2))
  · exact works_gives (f := runSeal) hr hb hw (runSeal_second hm hp h2 ha)
  · exact works_gives (f := runSeal) hr hb hw (runSeal_waits hm hp h2 ha)

/-! ## OPEN and the check opcodes -/

/-- A check on the comparison of two values: the match pair when it passes, else the mismatch pair with the events of the verdict. -/
theorem checkDrain_eq (i : Nat) (v : Verdict) (x y : Bytes) (b : Block) :
    (v = .sound ∧ b.boot.entropyStopped = false ∧ x = y →
      drain i (checked (passes b v (x == y)) .authFailed 0) (verdictEvent v b) = drain i { verdict := matchWord, verdictInv := matchInv } b)
    ∧ (¬ (v = .sound ∧ b.boot.entropyStopped = false ∧ x = y) →
      drain i (checked (passes b v (x == y)) .authFailed 0) (verdictEvent v b) =
        drain i { status := .authFailed, verdict := missWord, verdictInv := missInv }
          (if v = .split then withEvent evDecisionSplit [] b else if v = .invalid then withEvent evVerdictInvalid [] b else b)) := by
  refine ⟨fun h => ?_, fun h => ?_⟩
  · obtain ⟨rfl, hs, rfl⟩ := h
    rw [(passes_iff b .sound (x == x)).2 ⟨rfl, hs, beq_self_eq_true x⟩]
    rfl
  · have hp : passes b v (x == y) = false := by
      rw [← Bool.not_eq_true, passes_iff, beq_iff_eq]
      exact h
    rw [hp, verdictEvent_eq]
    rfl

section
variable {i : Nat} {j : Job} {b : Block} {v : Verdict}

theorem runMacCheck_eq (h : ¬ (b.boot.entropyPaused = true ∧ b.boot.entropyStopped = false)) : runMacCheck v i j b =
    drain i (checked (passes b v (macTagOf j == j.aux.bytes)) .authFailed 0) (verdictEvent v b) := onCheck_runs h

theorem runDigestCheck_eq (h : ¬ (b.boot.entropyPaused = true ∧ b.boot.entropyStopped = false)) : runDigestCheck v i j b =
    drain i (checked (passes b v (digestOut j j.aux.bytes.length == j.aux.bytes)) .authFailed 0) (verdictEvent v b) := onCheck_runs h

/-- The plaintext an OPEN computes and the tag its text should have. -/
abbrev openedText (j : Job) : Bytes × Bytes :=
  openText j.desc.mode j.desc.param (keyAt j 0) j.desc.iv ((haveSrc j).take j.desc.aLen) (fit 16 j.aux.bytes) ((haveSrc j).drop j.desc.aLen)

section
variable (h : ¬ (b.boot.entropyPaused = true ∧ b.boot.entropyStopped = false))
include h

theorem runOpen_opens (hs : v = .sound ∧ b.boot.entropyStopped = false ∧ (openedText j).2 = j.aux.bytes) :
    runOpen v i j b = finish i (fit j.desc.payload (openedText j).1) []
      { verdict := matchWord, verdictInv := matchInv, bytesWritten := j.desc.payload } b := by
  refine (onCheck_runs h).trans ?_
  obtain ⟨rfl, hs, he⟩ := hs
  have hp : passes b .sound ((openedText j).2 == j.aux.bytes) = true := (passes_iff b _ _).2 ⟨rfl, hs, by rw [he, beq_self_eq_true]⟩
  exact (if_pos hp).trans rfl

theorem runOpen_fails (hs : ¬ (v = .sound ∧ b.boot.entropyStopped = false ∧ (openedText j).2 = j.aux.bytes)) :
    runOpen v i j b = drain i { status := .authFailed, verdict := missWord, verdictInv := missInv }
      (failOut i (stagedOut j) (fit j.desc.payload (openedText j).1) j (verdictEvent v b)) := by
  refine (onCheck_runs h).trans ?_
  have hp : ¬ passes b v ((openedText j).2 == j.aux.bytes) = true := by
    rw [passes_iff, beq_iff_eq]
    exact hs
  exact (if_neg hp).trans rfl

end

/-- The destination of a failed check whose job has no tap. -/
theorem failOut_untapped (ht : tapHeld b j j.desc.payload = none) (held : Bool) (out : Bytes) : failOut i held out j b =
    zeroFrom i 0 (modJob i (fun x => { x with fillAt := j.desc.sLen, tapState := none })
      (if held = true then dropWaitingWrites i b else writeOut i j.dstDone false (out.drop j.dstDone) b)) := by
  rw [failOut, ht]

theorem tapHeld_other (h : j.desc.op ≠ 0x18) (b : Block) (n : Nat) : tapHeld b j n = none := by
  simp [tapHeld, h]

end

/-- Settles O24: the four checks turn on one comparison. -/
theorem checksEndWithVerdicts : Obligations.ChecksEndWithVerdicts := by
  intro s i j b v hr hb
  dsimp only
  refine ⟨?_, fun hp => ⟨fun hw => ⟨fun hs => ?_, fun hs => ?_⟩, fun hw => ⟨fun hs => ?_, fun hs => ?_⟩, fun hw => ⟨fun hs => ?_, fun hs => ?_⟩,
    fun hw => ⟨fun hs => ?_, fun hs => ?_⟩⟩⟩
  · rintro ⟨hp, hs⟩ p hp' hw
    simp only [List.mem_cons, List.not_mem_nil, or_false] at hp'
    rcases hp' with rfl | rfl | rfl | rfl
    · exact works_gives (f := runOpen v) hr hb hw (onCheck_waits hp hs)
    · exact works_gives (f := runMacCheck v) hr hb hw (onCheck_waits hp hs)
    · exact works_gives (f := runDigestCheck v) hr hb hw (onCheck_waits hp hs)
    · exact works_gives (f := runDigestCheck v) hr hb hw (onCheck_waits hp hs)
  · exact works_gives (f := runOpen v) hr hb hw (runOpen_opens hp hs)
  · refine works_gives (f := runOpen v) hr hb hw ((runOpen_fails hp hs).trans ?_)
    obtain ⟨-, hop, -⟩ := hw
    rw [failOut_untapped (tapHeld_other (by rw [hop]; decide) _ _), verdictEvent_eq]
  · exact works_gives (f := runMacCheck v) hr hb hw ((runMacCheck_eq hp).trans ((checkDrain_eq _ _ _ _ _).1 hs))
  · exact works_gives (f := runMacCheck v) hr hb hw ((runMacCheck_eq hp).trans ((checkDrain_eq _ _ _ _ _).2 hs))
  · exact works_gives (f := runDigestCheck v) hr hb hw ((runDigestCheck_eq hp).trans ((checkDrain_eq _ _ _ _ _).1 hs))
  · exact works_gives (f := runDigestCheck v) hr hb hw ((runDigestCheck_eq hp).trans ((checkDrain_eq _ _ _ _ _).2 hs))
  · exact works_gives (f := runDigestCheck v) hr hb hw ((runDigestCheck_eq hp).trans ((checkDrain_eq _ _ _ _ _).1 hs))
  · exact works_gives (f := runDigestCheck v) hr hb hw ((runDigestCheck_eq hp).trans ((checkDrain_eq _ _ _ _ _).2 hs))

/-! ## SPLICE -/

section
variable {i : Nat} {j : Job} {b : Block} {tag tap : Verdict}

/-- What a splice opens its source to. -/
abbrev splicedText (j : Job) : Bytes × Bytes := spliceOpen j ((haveSrc j).take j.desc.aLen) ((haveSrc j).drop j.desc.aLen)
/-- Its plaintext. -/
abbrev splicedPt (j : Job) : Bytes := fit j.desc.payload (splicedText j).1

/-- The source of a splice passes its tag, its tap the expected digest. -/
abbrev spliceTagOk (b : Block) (tag : Verdict) (j : Job) : Bool :=
  !aeadMode (spSrc j.desc) || passes b tag ((splicedText j).2 == j.aux.bytes)
abbrev spliceTapOk (b : Block) (tap : Verdict) (j : Job) : Bool :=
  spTapAlg j.pblk == 0 || passes b tap (tapDigest b j (splicedPt j) == j.exp.bytes)

/-- The events of a splice's comparisons. -/
abbrev spliceEvents (tag tap : Verdict) (j : Job) (b : Block) : Block :=
  (if spTapAlg j.pblk == 0 then id else verdictEvent tap) ((if aeadMode (spSrc j.desc) then verdictEvent tag else id) b)

theorem verdictEvent_stalls (v : Verdict) (b : Block) : (verdictEvent v b).stalls = b.stalls := by
  cases v <;> rfl

theorem spliceEvents_stalls (tag tap : Verdict) (j : Job) (b : Block) : (spliceEvents tag tap j b).stalls = b.stalls := by
  unfold spliceEvents
  split <;> split <;> simp [verdictEvent_stalls]

/-- In the first pass the checks come first. -/
theorem runSplice_checked (h2 : j.pass2 = false) (h : ¬ (b.boot.entropyPaused = true ∧ b.boot.entropyStopped = false)) :
    runSplice tag tap i j b =
      if !(spliceTagOk b tag j && spliceTapOk b tap j) then
        spliceFail i j (spliceTagOk b tag j) (fit j.desc.payload (spliceSeal j ((haveSrc j).take j.desc.aLen) (splicedPt j)).1) (spliceEvents tag tap j b)
      else if spliceTwo j.desc && !j.desc.srcChute then secondPass i j (spliceEvents tag tap j b)
      else spliceDone i j ((haveSrc j).take j.desc.aLen) (splicedPt j) (spliceEvents tag tap j b) := by
  unfold runSplice
  rw [h2]
  exact (if_neg (by simp)).trans (onCheck_runs h)

theorem runSplice_waits (h2 : j.pass2 = false) (hp : b.boot.entropyPaused = true) (hs : b.boot.entropyStopped = false) :
    runSplice tag tap i j b = b := by
  unfold runSplice
  rw [h2]
  exact (if_neg (by simp)).trans (onCheck_waits hp hs)

/-- The second pass must give the tag of the first. -/
theorem runSplice_second (h2 : j.pass2 = true) (ha : j.again.full = true) :
    runSplice tag tap i j b =
      let aad := (haveSrc j).take j.desc.aLen
      let pt2 := fit j.desc.payload (spliceOpen j aad (payload2 j)).1
      let siv := fun x => fullTag 6 (keyAt j 1) (spDstIv j.pblk) aad x
      if siv pt2 == siv (splicedPt j) then spliceDone i j aad pt2 b else runError i .doubleFault b := by
  unfold runSplice
  rw [if_pos h2, ha]
  rfl

theorem spliceTagOk_iff : spliceTagOk b tag j = true ↔
    aeadMode (spSrc j.desc) = false ∨ passes b tag ((splicedText j).2 == j.aux.bytes) = true := by
  simp [spliceTagOk]

theorem spliceTapOk_iff : spliceTapOk b tap j = true ↔
    spTapAlg j.pblk = 0 ∨ passes b tap (tapDigest b j (splicedPt j) == j.exp.bytes) = true := by
  simp [spliceTapOk]

/-- Both checks pass: the splice is done, or reads its payload again. -/
theorem runSplice_passes (h2 : j.pass2 = false) (h : ¬ (b.boot.entropyPaused = true ∧ b.boot.entropyStopped = false))
    (htag : spliceTagOk b tag j = true) (htap : spliceTapOk b tap j = true) :
    runSplice tag tap i j b = if spliceTwo j.desc && !j.desc.srcChute then secondPass i j (spliceEvents tag tap j b)
      else spliceDone i j ((haveSrc j).take j.desc.aLen) (splicedPt j) (spliceEvents tag tap j b) := by
  rw [runSplice_checked h2 h, htag, htap]
  rfl

theorem runSplice_fails (h2 : j.pass2 = false) (h : ¬ (b.boot.entropyPaused = true ∧ b.boot.entropyStopped = false))
    (hno : (spliceTagOk b tag j && spliceTapOk b tap j) = false) :
    runSplice tag tap i j b = spliceFail i j (spliceTagOk b tag j)
      (fit j.desc.payload (spliceSeal j ((haveSrc j).take j.desc.aLen) (splicedPt j)).1) (spliceEvents tag tap j b) := by
  rw [runSplice_checked h2 h, hno]
  rfl

end

/-- The block a failed splice leaves before its drain. -/
theorem spliceFail_eq (i : Nat) (j : Job) (ok : Bool) (out : Bytes) (b : Block) : spliceFail i j ok out b =
    drain i { status := if ok then .fixityMismatch else .authFailed, verdict := if spTapAlg j.pblk != 0 then missWord else 0
              verdictInv := if spTapAlg j.pblk != 0 then missInv else 0 }
      (zeroTag i (zeroFrom i 0 (modJob i (fun x => { x with fillAt := j.desc.sLen, tapState := tapHeld b j j.desc.payload })
        (if stagedOut j = true ∨ spDst j.desc = 6 then dropWaitingWrites i b else writeOut i j.dstDone false (out.drop j.dstDone) b)))) := by
  simp only [spliceFail, failOut, Bool.or_eq_true, beq_iff_eq]

/-- Settles O25: the two checks, then the second pass, decide what a splice does. -/
theorem splicesOpenCheckAndSeal : Obligations.SplicesOpenCheckAndSeal := by
  intro s i j b tag tap hr hb
  dsimp only
  intro hw
  have hev : (if spTapAlg j.pblk != 0 then fun b => if tap = .split then withEvent evDecisionSplit [] b
        else if tap = .invalid then withEvent evVerdictInvalid [] b else b else id)
      ((if aeadMode (spSrc j.desc) then fun b => if tag = .split then withEvent evDecisionSplit [] b
        else if tag = .invalid then withEvent evVerdictInvalid [] b else b else id) b) = spliceEvents tag tap j b := by
    have hfun : ∀ v : Verdict, (fun b => if v = .split then withEvent evDecisionSplit [] b
        else if v = .invalid then withEvent evVerdictInvalid [] b else b) = verdictEvent v := fun v => funext fun b => (verdictEvent_eq v b).symm
    rw [hfun, hfun]
    unfold spliceEvents
    cases hz : spTapAlg j.pblk == 0 <;> simp_all
  rw [hev]
  have hgive : ∀ {t : Block}, runSplice tag tap i.val j b = t → Gives (.splice i tag tap) s t := fun h =>
    works_gives (f := runSplice tag tap) hr hb hw h
  refine ⟨fun h2 ha => ⟨fun he => hgive ?_, fun he => hgive ?_⟩, fun h2 hp hs => hgive (runSplice_waits h2 hp hs), fun h2 hrun => ?_⟩
  · rw [runSplice_second h2 ha]
    exact if_pos (beq_iff_eq.2 he)
  · rw [runSplice_second h2 ha]
    exact if_neg fun h => he (beq_iff_eq.1 h)
  · have hnp : ¬ (b.boot.entropyPaused = true ∧ b.boot.entropyStopped = false) := by
      rintro ⟨hp, hs⟩
      rcases hrun with h | h
      · exact Bool.false_ne_true (h.symm.trans hp)
      · exact Bool.false_ne_true (hs.symm.trans h)
    rw [← spliceTagOk_iff, ← spliceTapOk_iff]
    refine ⟨fun ht hp hone => hgive ?_, fun ht hp htwo hc => ?_, fun ht => hgive ?_, fun ht hp => hgive ?_⟩
    · rw [runSplice_passes h2 hnp ht hp]
      refine if_neg ?_
      rcases hone with h | h <;> simp [h]
    · have hrun : runSplice tag tap i.val j b = secondPass i.val j (spliceEvents tag tap j b) := by
        rw [runSplice_passes h2 hnp ht hp, htwo, hc]
        rfl
      have hsend := secondPass_sends (hgive hrun)
      dsimp only at hsend
      have hreads : ∀ n, srcReads (.srcAgain i.val) j (spliceEvents tag tap j b) n = srcReads (.srcAgain i.val) j b n := fun n => by
        simp only [srcReads, stallIdent, Block.stall, spliceEvents_stalls]
      rw [hc, hreads] at hsend
      exact hsend
    · have hf : spliceTagOk b tag j = false := by simpa using ht
      rw [runSplice_fails h2 hnp (by rw [hf]; rfl), spliceFail_eq, hf]
      rfl
    · have hf : spliceTapOk b tap j = false := by simpa using hp
      have htapped : spTapAlg j.pblk ≠ 0 := fun h => hp (spliceTapOk_iff.2 (.inl h))
      rw [runSplice_fails h2 hnp (by rw [hf, Bool.and_false]), spliceFail_eq, ht]
      simp [htapped]

/-! ## DIGEST, HMAC_GEN, KMAC_GEN and XOF -/

section
variable {i : Nat} {j : Job} {b : Block}

theorem runDigest_output (h1 : j.desc.stateMode ≠ 1) (h2 : j.desc.stateMode ≠ 2) :
    runDigest i j b = finish i (digestOut j (outLen b j.desc [] 0)) [] { bytesWritten := outLen b j.desc [] 0 } b := by
  simp [runDigest, h1, h2, doneWith]

theorem runDigest_saves (h : j.desc.stateMode = 1 ∨ j.desc.stateMode = 2) (he : HasEntropy b) :
    runDigest i j b = finish i (fit 280 (stateBlob (useSys 2 b) j)) [] { bytesWritten := 280 } (drew (useSys 2 b)) := by
  have hmode : (j.desc.stateMode == 1 || j.desc.stateMode == 2) = true := by simpa using h
  unfold runDigest
  exact (if_pos hmode).trans (withRandom_draws he _)

end

/-- Settles O26: the four opcodes are one. -/
theorem digestsAndSavedStates : Obligations.DigestsAndSavedStates := by
  intro s i j b p hr hb hp hw
  have hgive : ∀ {t : Block}, runDigest i.val j b = t → Gives (p.2 i) s t := by
    intro t h
    simp only [List.mem_cons, List.not_mem_nil, or_false] at hp
    rcases hp with rfl | rfl | rfl | rfl <;> exact works_gives (f := runDigest) hr hb hw h
  exact ⟨fun h1 h2 => hgive (runDigest_output h1 h2), fun h he => hgive (runDigest_saves h he)⟩

end Sys2Proof.Machine
end


section
/-!
SUPPORT. A key written into a run of slots (R161, R173, R191).
-/

namespace Sys2Proof.Machine

open Sys2Proof

theorem each_append {α : Type} (l m : List α) (f : α → Block → Block) (b : Block) : each (l ++ m) f b = each m f (each l f b) := by
  induction l generalizing b with
  | nil => rfl
  | cons x l ih => exact ih (f x b)

theorem getElem_fit {x : Bytes} {n i : Nat} (h : i < (fit n x).length) : (fit n x)[i] = x.getD i 0 := by
  by_cases hi : i < x.length <;> simp [fit, List.getElem_append, List.getD, hi]

/-- The first bytes and the rest of a string, each brought to its length. -/
theorem fit_append_fit (x : Bytes) (n k : Nat) : fit n (x.take n) ++ fit k (x.drop n) = fit (n + k) x := by
  refine List.ext_getElem (by simp) fun i h _ => ?_
  rw [getElem_fit, List.getElem_append]
  split
  · rename_i hi
    rw [length_fit] at hi
    rw [getElem_fit]
    simp [List.getD, hi]
  · rename_i hi
    rw [length_fit] at hi
    simp only [getElem_fit, length_fit]
    simp [List.getD, List.getElem?_drop, Nat.add_sub_of_le (Nat.le_of_not_lt hi)]

/-! ## The record of each part -/

/-- Slot `q` of `t` holds part `p` of the run `l`, over what stood in `b`. -/
def HoldsPart (a : Slot) (m : Bytes) (l : List Nat) (b t : Block) (p : Nat) : Prop :=
  ∃ mask clock priv, mask.length = 64
    ∧ t.slot (l.getD p 0) = partOf { a with lastUse := clock, len := m.length, priv } m mask l p (b.slot (l.getD p 0))

/-- Part `p` is written to its slot. -/
def writePart (a : Slot) (m : Bytes) (priv : Nat) (l : List Nat) (p : Nat) (b : Block) : Block :=
  modSlot (l.getD p 0) (partOf { a with lastUse := b.tack.clock, len := m.length, priv } m (drbgNow b 64) l p) (drew b)

section
variable (a : Slot) (m : Bytes) (priv : Nat) (l : List Nat) (p : Nat)

theorem writePart_slot_ne {q : Nat} (h : q ≠ l.getD p 0) (b : Block) : (writePart a m priv l p b).slot q = b.slot q := by
  simp only [writePart, Block.slot, modSlot_tack, drew_tack]
  exact Tab.get_mod_ne _ _ h

theorem writePart_holds {b u : Block} (h : u.slot (l.getD p 0) = b.slot (l.getD p 0)) : HoldsPart a m l b (writePart a m priv l p u) p :=
  ⟨drbgNow u 64, u.tack.clock, priv, length_drbgNow _ _, (modSlot_slot_self _ _ _).trans (congrArg _ h)⟩

end

/-- Writing the parts writes their slots alone, each over the slot's own GEN. -/
theorem writeParts (a : Slot) (m : Bytes) (priv : Nat) {l : List Nat} (hl : l.Nodup) (b : Block) {n : Nat} (hn : n ≤ l.length) :
    let t := each (List.range n) (writePart a m priv l) b
    (∀ p < n, HoldsPart a m l b t p) ∧ (∀ q, (∀ p < n, q ≠ l.getD p 0) → t.slot q = b.slot q) ∧ t.curves = b.curves := by
  induction n with
  | zero => exact ⟨by simp, fun _ _ => rfl, rfl⟩
  | succ n ih =>
    obtain ⟨hpart, hrest, hcurves⟩ := ih (by omega)
    simp only [List.range_succ, each_append, each_cons, each_nil]
    have hne : ∀ p < n, l.getD p 0 ≠ l.getD n 0 := by
      intro p hp he
      have hp' : p < l.length := by omega
      have hn' : n < l.length := by omega
      rw [List.getD_eq_getElem _ _ hp', List.getD_eq_getElem _ _ hn'] at he
      exact absurd ((List.Nodup.getElem_inj_iff hl).1 he) (by omega)
    refine ⟨fun p hp => ?_, fun q hq => ?_, hcurves⟩
    · rcases Nat.lt_succ_iff_lt_or_eq.1 hp with hlt | rfl
      · obtain ⟨mask, clock, priv', hmask, hslot⟩ := hpart p hlt
        exact ⟨mask, clock, priv', hmask, (writePart_slot_ne _ _ _ _ _ (hne p hlt) _).trans hslot⟩
      · exact writePart_holds _ _ _ _ _ (hrest _ fun k hk => (hne k hk).symm)
    · exact (writePart_slot_ne _ _ _ _ _ (hq n (by omega)) _).trans (hrest q fun p hp => hq p (by omega))

/-! ## Reading the run back -/

section
variable {a : Slot} {m : Bytes} {l : List Nat} {b t : Block} {p : Nat} (h : HoldsPart a m l b t p)
include h

theorem HoldsPart.slotBytes : slotBytes (t.slot (l.getD p 0)) = fit 64 ((m.drop (64 * p)).take 64) := by
  obtain ⟨mask, clock, priv, hmask, hslot⟩ := h
  have hmat : (t.slot (l.getD p 0)).material = xorBytes (fit 64 (slice m (64 * p) 64)) mask := by
    rw [hslot, partOf]
    split <;> rfl
  have hmsk : (t.slot (l.getD p 0)).mask = mask := by
    rw [hslot, partOf]
    split <;> rfl
  rw [Machine.slotBytes, hmat, hmsk, xorBytes_cancel (by rw [length_fit, hmask])]
  rfl

theorem HoldsPart.runNext : (t.slot (l.getD p 0)).runNext = l.getD (p + 1) 0 := by
  obtain ⟨mask, clock, priv, -, hslot⟩ := h
  rw [hslot, partOf]
  split <;> rfl

theorem HoldsPart.gen : (t.slot (l.getD p 0)).gen = (b.slot (l.getD p 0)).gen := by
  obtain ⟨mask, clock, priv, -, hslot⟩ := h
  rw [hslot, partOf]
  split <;> rfl

end

section
variable {a : Slot} {m : Bytes} {l : List Nat} {b t : Block} (h : ∀ p < l.length, HoldsPart a m l b t p)
include h

/-- The slots of a run hold the material from their place on. -/
theorem runBytes_run (k : Nat) : ∀ {p : Nat}, p + k = l.length → runBytes t k (l.getD p 0) = fit (64 * k) (m.drop (64 * p)) := by
  induction k with
  | zero =>
    intro p _
    simp [runBytes, fit]
  | succ k ih =>
    intro p hp
    rw [runBytes, (h p (by omega)).slotBytes, (h p (by omega)).runNext, ih (p := p + 1) (by omega), Nat.mul_succ, Nat.mul_succ,
      Nat.add_comm (64 * k) 64, ← fit_append_fit, List.drop_drop]

theorem runSlots_run (k : Nat) : ∀ {p : Nat}, p + k = l.length → runSlots t k (l.getD p 0) = l.drop p := by
  induction k with
  | zero =>
    intro p hp
    exact (List.drop_eq_nil_of_le (by omega)).symm
  | succ k ih =>
    intro p hp
    rw [runSlots, (h p (by omega)).runNext, ih (p := p + 1) (by omega), List.getD_eq_getElem _ _ (by omega)]
    exact List.cons_getElem_drop_succ

end

theorem materialLen_congr {b t : Block} (h : t.curves = b.curves) (alg size : Nat) : materialLen t alg size = materialLen b alg size := by
  simp only [materialLen, curveOfTag, h]

/-- A flag set among others is set. -/
theorem has_or_left {w : Nat} (x v y : BitVec w) : has (x ||| v ||| y) v = true := by
  simp only [has, beq_iff_eq]
  ext n hn
  simp only [BitVec.getElem_and, BitVec.getElem_or]
  cases v[n] <;> simp

/-- Settles O27: every slot of the run holds its part, and the run is read part by part. -/
theorem writtenKeysReadBack : Obligations.WrittenKeysReadBack := by
  intro b a m k l hnodup hlen hfits t
  obtain ⟨hparts, hrest, hcurves⟩ := writeParts a m (((curveOfTag b a.size).map curveN).getD 0) hnodup
    (modTack (fun t => { t with clock := t.clock + 1 }) b) (le_refl (k :: l).length)
  have hhead := hparts 0 (by simp)
  have hgen : ∀ q, (t.slot q).gen = (b.slot q).gen := by
    intro q
    by_cases hq : ∃ p < (k :: l).length, q = (k :: l).getD p 0
    · obtain ⟨p, hp, rfl⟩ := hq
      exact (hparts p hp).gen
    · push Not at hq
      exact congrArg Slot.gen (hrest q hq)
  have hmem : ∀ q, q ∉ k :: l → t.slot q = b.slot q := by
    intro q hq
    refine hrest q fun p hp he => hq ?_
    rw [he, List.getD_eq_getElem _ _ hp]
    exact List.getElem_mem hp
  have hbytes : runBytes t (k :: l).length k = fit (64 * (k :: l).length) m := runBytes_run hparts (k :: l).length (p := 0) (by simp)
  have hslots : runSlots t (k :: l).length k = k :: l := runSlots_run hparts (k :: l).length (p := 0) (by simp)
  obtain ⟨mask, clock, priv, -, hslot⟩ := hhead
  replace hslot : t.slot k = partOf { a with lastUse := clock, len := m.length, priv } m mask (k :: l) 0 (b.slot k) := hslot
  have hrun : (t.slot k).runLen = (k :: l).length := by rw [hslot]; rfl
  refine ⟨?_, ?_, ?_, ?_, ?_, ?_, ?_, ?_, ?_, ?_, hgen, hmem⟩
  · have halg : materialLen t (t.slot k).alg (t.slot k).size = some m.length := by
      rw [hslot]
      exact (materialLen_congr hcurves _ _).trans hlen
    rw [keyMaterial, hrun, halg, hbytes, fit, List.take_take]
    simp only [Option.getD_some, List.length_cons]
    rw [Nat.min_eq_left (by omega), List.take_append_of_le_length (le_refl _), List.take_length]
  · rw [hrun]
    exact hslots
  · rw [hslot]
    exact has_or_left _ _ _
  all_goals rw [hslot]; rfl

end Sys2Proof.Machine
end


section
/-!
SUPPORT. The key opcodes and RANDOM (R170 to R177, R205, R485).
-/

namespace Sys2Proof.Machine

open Sys2Proof

section
variable {s : State} {i op isl : Nat} {j : Job} {b t : Block} {f : Job → Block → Block}

/-- An opcode's work on a job whose inputs are there, on an island that does not hold. -/
theorem worksOn_gives (hr : s.blk.boot.ready = true) (hh : holding s.blk isl = false) (hw : Works s.blk op i j) (hf : f j s.blk = t) :
    updOn s isl (fun b => onReady op i f b) = .next { s with blk := t } := by
  obtain ⟨hj, hop, hin⟩ := hw
  refine updOn_gives hr hh ?_
  unfold onReady
  simp only [hj, hop, hin, BEq.rfl, Bool.and_self, when_true, hf]

/-- A slot is written at once when there is randomness and no island holds. -/
theorem slotWrite_writes (he : HasEntropy b) (ha : anyHold b = false) (g : Block → Block) : slotWrite i g b = g b := by
  rw [slotWrite, withRandom_draws he, ha]
  rfl

theorem slotWrite_waits (he : HasEntropy b) (ha : anyHold b = true) (g : Block → Block) : slotWrite i g b = b := by
  rw [slotWrite, withRandom_draws he, ha]
  rfl

/-! ## KEY_UNWRAP -/

theorem runKeyUnwrap_blob_none (hv : j.desc.variant = 0) (h : unwrapSource b j = none) : runKeyUnwrap i j b = runError i .keyNotFound b := by
  simp [runKeyUnwrap, hv, h]

/-- A blob that opens to `m`. -/
theorem runKeyUnwrap_blob (hv : j.desc.variant = 0) {r : Slot} {m : Bytes} (h : unwrapSource b j = some (r, m)) : runKeyUnwrap i j b =
    if xtsHalvesEqual r.alg m then runError i .keyUseDenied b
    else slotWrite i (installAndWrite i { j with target := j.target.take (ceilDiv m.length 64) } r m []) b := by
  simp only [runKeyUnwrap, hv, BEq.rfl, h, if_true]

section
variable (hv : j.desc.variant ≠ 0) {k : NewKey} (hk : j.newKey = some k)
include hv hk

theorem runKeyUnwrap_kw_none (h : kwSource j ((materialLen b k.alg k.size).getD 0) = none) : runKeyUnwrap i j b = runError i .keyNotFound b := by
  unfold runKeyUnwrap
  exact (if_neg (by simpa using hv)).trans (by simp only [hk, h])

/-- A KW or KWP unwrap that gives `m`. -/
theorem runKeyUnwrap_kw {m : Bytes} (h : kwSource j ((materialLen b k.alg k.size).getD 0) = some m) : runKeyUnwrap i j b =
    if xtsHalvesEqual k.alg m then runError i .keyUseDenied b
    else slotWrite i (installAndWrite i j (stallKeyChild b j.stall.val (newRecord k)) m []) b := by
  unfold runKeyUnwrap
  exact (if_neg (by simpa using hv)).trans (by simp only [hk, h])

end

/-- The material of a KW or KWP unwrap is what opens with the length wanted. -/
theorem kwSource_some {m : Bytes} {n : Nat} (h : Config.kwUnwrap (j.desc.variant == 2) (keyAt j 0) (haveSrc j) = some m) (hn : m.length = n) :
    kwSource j n = some m := by
  simp only [kwSource, h]
  exact if_pos (beq_iff_eq.2 hn)

theorem kwSource_none {n : Nat} (h : ∀ m, Config.kwUnwrap (j.desc.variant == 2) (keyAt j 0) (haveSrc j) = some m → m.length ≠ n) :
    kwSource j n = none := by
  unfold kwSource
  split
  · rename_i m hm
    simp [h m hm]
  · rfl

/-! ## KEY_WRAP, KEY_DERIVE and KEY_GENERATE -/

theorem runKeyWrap_blob (hv : j.desc.variant = 0) (he : HasEntropy b) : runKeyWrap i j b =
    finish i (fit (jobOutLen b j) (blobOf b j (j.keys.getD 0 {}) (j.keys.getD 1 {}))) [] { bytesWritten := jobOutLen b j } (drew b) := by
  simp only [runKeyWrap, hv, BEq.rfl, if_true, withRandom_draws he]
  rfl

theorem runKeyWrap_kw (hv : j.desc.variant ≠ 0) : runKeyWrap i j b =
    finish i (fit (jobOutLen b j) (Config.kwWrap (j.desc.variant == 2) (keyAt j 1) (keyAt j 0))) [] { bytesWritten := jobOutLen b j } b := by
  unfold runKeyWrap
  exact (if_neg (by simpa using hv)).trans rfl

section
variable {k : NewKey} (hk : j.newKey = some k)
include hk

theorem runKeyDerive_eq : runKeyDerive i j b =
    let n := (materialLen b k.alg k.size).getD 0
    let m := fit n (kdfOf j.desc.variant.toNat (keyAt j 0) (haveSrc j) n)
    if xtsHalvesEqual k.alg m then runError i .keyUseDenied b else slotWrite i (installAndWrite i j (childOf b j (newRecord k)) m []) b := by
  simp only [runKeyDerive, hk]

theorem runKeyGenerate_eq : runKeyGenerate i j b =
    let m := drbgNow b ((materialLen b k.alg k.size).getD 0)
    if xtsHalvesEqual k.alg m then drew b else installAndWrite i j (childOf b j (newRecord k)) m [] (drew b) := by
  simp only [runKeyGenerate, hk]

end

end

/-- Settles O28, opcode by opcode: equal XTS halves first, then the slot write. -/
theorem keyOpcodesUnwrapWrapAndDerive : Obligations.KeyOpcodesUnwrapWrapAndDerive := by
  intro s i j b hr hh
  dsimp only
  have hlen : ∀ {k}, j.newKey = some k → (materialLen b (j.newKey.getD {}).alg (j.newKey.getD {}).size).getD 0
      = (materialLen b k.alg k.size).getD 0 := fun h => by rw [h]; rfl
  refine ⟨fun hw hv => ?_, fun hw hv k hk => ?_, fun hw => ⟨fun hv he => ?_, fun hv => ?_⟩, fun hw k hk => ?_, fun hw he => ?_, fun hw he hh => ?_⟩
  · have hgive : ∀ {t : Block}, runKeyUnwrap i.val j b = t → Gives (.keyUnwrap i) s t := fun h => worksOn_gives hr hh hw h
    refine ⟨fun hn => hgive (runKeyUnwrap_blob_none hv hn), fun r m hm => ⟨fun hx => hgive ?_, fun hx he ha => hgive ?_⟩⟩
    · rw [runKeyUnwrap_blob hv hm, hx]
      rfl
    · rw [runKeyUnwrap_blob hv hm, hx]
      exact slotWrite_writes he ha _
  · have hgive : ∀ {t : Block}, runKeyUnwrap i.val j b = t → Gives (.keyUnwrap i) s t := fun h => worksOn_gives hr hh hw h
    rw [hlen hk]
    refine ⟨fun m hm hl hx he ha => hgive ?_, fun m hm hl hx => hgive ?_, fun hn => hgive (runKeyUnwrap_kw_none hv hk (kwSource_none hn))⟩
    · rw [runKeyUnwrap_kw hv hk (kwSource_some hm hl), hx]
      exact slotWrite_writes he ha _
    · rw [runKeyUnwrap_kw hv hk (kwSource_some hm hl), hx]
      rfl
  · exact worksOn_gives hr hh hw (runKeyWrap_blob hv he)
  · exact worksOn_gives hr hh hw (runKeyWrap_kw hv)
  · rw [hlen hk]
    refine ⟨fun hx he ha => worksOn_gives hr hh hw ?_, fun hx => worksOn_gives hr hh hw ?_⟩
    · refine (runKeyDerive_eq hk).trans ?_
      dsimp only
      rw [hx]
      exact slotWrite_writes he ha _
    · refine (runKeyDerive_eq hk).trans ?_
      dsimp only
      rw [hx]
      rfl
  · refine ⟨fun ha => worksOn_gives hr hh hw (slotWrite_waits he ha _), fun ha k hk => ?_⟩
    rw [hlen hk]
    refine ⟨fun hx => worksOn_gives hr hh hw ((slotWrite_writes he ha _).trans ?_), fun hx => worksOn_gives hr hh hw ((slotWrite_writes he ha _).trans ?_)⟩
    · refine (runKeyGenerate_eq hk).trans ?_
      dsimp only
      rw [hx]
      rfl
    · refine (runKeyGenerate_eq hk).trans ?_
      dsimp only
      rw [hx]
      rfl
  · exact worksOn_gives hr hh hw (withRandom_draws he _)

end Sys2Proof.Machine
end


section
/-!
SUPPORT. Public-key operations whose inputs are there (R96, R97, R294 to R297, R307, R312 to R322, R339 to R344, R488).
-/

namespace Sys2Proof.Machine

open Sys2Proof

section
variable {s : State} {i op : Nat} {j : Job} {b t : Block} {f : Job → Block → Block}

/-! ## Core opcodes -/

/-- A core whose inputs are all there reads no further piece. -/
theorem nextPieces_full (h : CoreWorks b op i j) : nextPieces i b = b := by
  obtain ⟨⟨hj, -, hin⟩, hsrc⟩ := h
  have haux : j.aux.full = true := by
    simp only [inputsReady, Bool.and_eq_true] at hin
    obtain ⟨⟨⟨⟨⟨⟨-, ha⟩, -⟩, -⟩, -⟩, -⟩, -⟩ := hin
    exact ha
  simp [nextPieces, hj, hsrc, haux]

theorem onCore_runs (h : CoreWorks b op i j) : onCore op i f b = f j b := by
  rw [onCore, nextPieces_full h]
  obtain ⟨⟨hj, hop, hin⟩, -⟩ := h
  simp only [onReady, hj, hop, hin, BEq.rfl, Bool.and_self, when_true]

/-- An operation on public values alone. -/
theorem core_gives (hr : s.blk.boot.ready = true) (h : CoreWorks s.blk op i j) (hf : f j s.blk = t) :
    updReady s (onCore op i f) = .next { s with blk := t } :=
  updReady_gives hr ((onCore_runs h).trans hf)

/-- An operation with a secret, once there is randomness. -/
theorem secret_gives (hr : s.blk.boot.ready = true) (he : HasEntropy s.blk) (h : CoreWorks s.blk op i j) (hf : f j s.blk = t) :
    updReady s (pkReady op i f) = .next { s with blk := t } :=
  core_gives (f := fun j => withRandom i (f j)) hr h ((withRandom_draws he _).trans hf)

/-- Without randomness it waits, or ends once the entropy island has stopped. -/
theorem secret_starved (hr : s.blk.boot.ready = true) (h : CoreWorks s.blk op i j) :
    (s.blk.boot.entropyStopped = true → updReady s (pkReady op i f) = .next { s with blk := runError i .islandReset s.blk })
    ∧ (s.blk.boot.entropyStopped = false → s.blk.boot.entropyPaused = true → updReady s (pkReady op i f) = .next { s with blk := s.blk }) := by
  refine ⟨fun hs => ?_, fun hs hp => ?_⟩
  · exact core_gives (f := fun j => withRandom i (f j)) hr h (if_pos hs)
  · exact core_gives (f := fun j => withRandom i (f j)) hr h ((if_neg (by simp [hs])).trans (if_pos hp))

/-- The lowest edge condition ends the job. -/
theorem pkGuard_rejects {st : Status} (h : lowest (pkConds b j) = some st) (g : Block → Block) : pkGuard i j g b = pkReject i j st 0 b := by
  simp only [pkGuard, h]

theorem pkGuard_passes (h : lowest (pkConds b j) = none) (g : Block → Block) : pkGuard i j g b = g b := by
  simp only [pkGuard, h]

/-- A verification of inputs without an edge condition. -/
theorem runVerify_eq (h : lowest (pkConds b j) = none) (pairSound : Bool) : runVerify pairSound i j b =
    drain i (checked (pairSound && pkAccepts b j) .signatureInvalid 0) (verdictEvent (if pairSound then .sound else .invalid) (coreTake j b)) :=
  pkGuard_passes h _

end

/-- Settles O29: every operation named runs behind `pkGuard`, those with a secret behind `withRandom`. -/
theorem publicKeyChecksComeFirst : Obligations.PublicKeyChecksComeFirst := by
  intro s i j p pairSound
  dsimp only
  intro hr hw
  refine ⟨fun hp st hl => ?_, fun hp => ?_, fun hp hl => ?_⟩
  · simp only [List.mem_cons, List.not_mem_nil, or_false, List.cons_append, List.nil_append] at hp
    rcases hp with rfl | rfl | rfl | rfl | rfl | rfl | rfl | rfl | rfl <;> exact core_gives hr hw (pkGuard_rejects hl _)
  · simp only [List.mem_cons, List.not_mem_nil, or_false] at hp
    refine ⟨fun st he hl => ?_, ?_⟩
    · rcases hp with rfl | rfl | rfl | rfl | rfl | rfl <;> exact secret_gives hr he hw (pkGuard_rejects hl _)
    · rcases hp with rfl | rfl | rfl | rfl | rfl | rfl <;> exact secret_starved hr hw
  · have hgive : ∀ {t : Block}, runVerify pairSound i.val j s.blk = t → Gives (p.2 i) s t := by
      intro t ht
      simp only [List.mem_cons, List.not_mem_nil, or_false] at hp
      rcases hp with rfl | rfl | rfl | rfl | rfl | rfl <;> exact core_gives hr hw ht
    refine ⟨fun hs ha => hgive ?_, fun hs ha => hgive ?_, fun hs => hgive ?_⟩
    · rw [runVerify_eq hl, hs, ha]
      rfl
    · rw [runVerify_eq hl, hs, ha]
      rfl
    · rw [runVerify_eq hl, hs]
      rfl

/-! ## Signatures -/

section
variable {i : Nat} {j : Job} {b : Block} {pass : Bool} {t : Take}

/-- A check pass lets go what none was asked for, or what holds in both computations without a fault. -/
theorem checkHolds_iff (ok : Bool) : checkHolds j ok pass t = true ↔ j.desc.checkPass = false ∨ (ok = true ∧ pass = true ∧ t = .agree) := by
  simp [checkHolds, and_assoc]

theorem runSign_eq (h : lowest (pkConds b j) = none) : runSign pass t i j b =
    let b1 := blinded (when (j.desc.op == 0x41) drew b)
    if !halvesSet j (signatureOf b j) then pkReject i j .inputZero 0 b1
    else if !checkHolds j (signatureChecks b j (signatureOf b j)) pass t then pkCheckFail i j t b1
    else pkWrite i j (signatureOf b j) b1 := pkGuard_passes h _

theorem runSign_writes (h : lowest (pkConds b j) = none) (hc : checkHolds j (signatureChecks b j (signatureOf b j)) pass t = true) :
    runSign pass t i j b = if halvesSet j (signatureOf b j) = true then pkWrite i j (signatureOf b j) (blinded (when (j.desc.op == 0x41) drew b))
      else pkReject i j .inputZero 0 (blinded (when (j.desc.op == 0x41) drew b)) := by
  rw [runSign_eq h, hc]
  cases halvesSet j (signatureOf b j) <;> rfl

theorem runSign_fails (h : lowest (pkConds b j) = none) (hc : ¬ checkHolds j (signatureChecks b j (signatureOf b j)) pass t = true) :
    runSign pass t i j b = if halvesSet j (signatureOf b j) = true then pkCheckFail i j t (blinded (when (j.desc.op == 0x41) drew b))
      else pkReject i j .inputZero 0 (blinded (when (j.desc.op == 0x41) drew b)) := by
  rw [runSign_eq h, Bool.not_eq_true _ |>.mp hc]
  cases halvesSet j (signatureOf b j) <;> rfl

theorem halvesSet_other (h : j.desc.op ≠ 0x41) (sig : Bytes) : halvesSet j sig = true := by
  simp [halvesSet, h]

end

/-- Settles O30: the check pass decides, and only ECDSA has a second way to end. -/
theorem signaturesAreCheckedBeforeRelease : Obligations.SignaturesAreCheckedBeforeRelease := by
  intro s i j pass t
  dsimp only
  intro hr he hl
  refine ⟨fun hw => ?_, fun hw => ?_, fun hw => ⟨?_, fun hv => ?_, fun hv => ?_, ?_⟩, fun hw => ?_⟩
  · have hop : j.desc.op = 0x41 := hw.1.2.1
    have hdrew : when (j.desc.op == 0x41) drew s.blk = drew s.blk := by rw [hop]; rfl
    have hgive : ∀ {u : Block}, runSign pass t i.val j s.blk = u → Gives (.ecdsaSign i pass t) s u := fun h => secret_gives hr he hw h
    refine ⟨?_, fun hc => hgive ?_, fun hc hg => hgive ?_, fun hc hg => hgive ?_⟩
    · unfold signatureOf
      exact if_neg (by rw [hop]; decide)
    · exact hdrew ▸ runSign_writes hl ((checkHolds_iff _).2 (.inl hc))
    · exact hdrew ▸ runSign_writes hl ((checkHolds_iff _).2 (.inr hg))
    · refine hdrew ▸ runSign_fails hl fun h => ?_
      rcases (checkHolds_iff _).1 h with h | h
      · exact Bool.false_ne_true (h.symm.trans hc)
      · exact hg h
  · have hop : j.desc.op = 0x44 := hw.1.2.1
    have hdrew : when (j.desc.op == 0x41) drew s.blk = s.blk := by rw [hop]; rfl
    have hhalves : halvesSet j (signatureOf s.blk j) = true := halvesSet_other (by rw [hop]; decide) _
    have hgive : ∀ {u : Block}, runSign pass t i.val j s.blk = u → Gives (.eddsaSign i pass t) s u := fun h => secret_gives hr he hw h
    refine ⟨?_, fun hc => hgive ?_, fun hc hg => hgive ?_⟩
    · unfold signatureOf
      exact if_pos (by rw [hop]; decide)
    · rw [runSign_writes hl ((checkHolds_iff _).2 hc), if_pos hhalves, hdrew]
    · rw [runSign_fails hl, if_pos hhalves, hdrew]
      intro h
      rcases (checkHolds_iff _).1 h with h | h
      · exact Bool.false_ne_true (h.symm.trans hc)
      · exact hg h
  · exact le_max_left _ _
  · exact if_pos hv
  · exact if_neg (by omega)
  · exact secret_gives (f := runMldsaSign i.val) hr he hw rfl
  · exact secret_gives (f := runSlhSign i.val) hr he hw rfl

/-! ## Modular arithmetic -/

/-- Square and multiply. -/
theorem powMod_eq (n : Nat) (k : Nat) : ∀ {x e : Nat}, e < 2 ^ k → powMod n k x e = x ^ e % n := by
  induction k with
  | zero =>
    intro x e he
    obtain rfl : e = 0 := by simpa using he
    simp [powMod]
  | succ k ih =>
    intro x e he
    have hhalf : e / 2 < 2 ^ k := by
      rw [pow_succ] at he
      omega
    have hsq : (x * x % n) ^ (e / 2) % n = x ^ (2 * (e / 2)) % n := by
      rw [← Nat.pow_mod, pow_mul, sq]
    rw [powMod, ih hhalf, hsq]
    rcases Nat.mod_two_eq_zero_or_one e with h | h
    · have he2 : e = 2 * (e / 2) := by omega
      rw [h, if_neg (by decide), one_mul, Nat.mod_mod, ← he2]
    · have he2 : e = 2 * (e / 2) + 1 := by omega
      rw [h, if_pos (by decide), ← Nat.mul_mod]
      conv_rhs => rw [he2, pow_succ, Nat.mul_comm]

@[simp] theorem modExp_eq (x e n : Nat) : modExp x e n = x ^ e % n := powMod_eq n _ Nat.lt_log2_self

theorem runModexp_eq {i : Nat} {j : Job} {b : Block} (h : lowest (pkConds b j) = none) : runModexp i j b =
    let k := 8 * j.desc.variant.toNat
    let x := haveSrc j
    pkWrite i j (toBe k (beNat (slice x k k) ^ beNat (x.drop (2 * k)) % beNat (x.take k))) b := by
  simp only [runModexp, pkGuard_passes h, modExp_eq]

/-- Garner's combination of two residues. -/
theorem crt_residues {p q r m1 m2 : Nat} (hp : 0 < p) (hr : q * r % p = 1 % p) (h1 : m1 < p) (h2 : m2 < q) :
    (m2 + q * (r * ((m1 + p - m2 % p) % p) % p)) % p = m1 ∧ (m2 + q * (r * ((m1 + p - m2 % p) % p) % p)) % q = m2 := by
  refine ⟨?_, by rw [Nat.add_mul_mod_self_left, Nat.mod_eq_of_lt h2]⟩
  have hm : m2 % p < p := Nat.mod_lt _ hp
  have hinv : q * r ≡ 1 [MOD p] := hr
  have hstep : q * (r * ((m1 + p - m2 % p) % p) % p) ≡ m1 + p - m2 % p [MOD p] := by
    calc q * (r * ((m1 + p - m2 % p) % p) % p)
        ≡ q * (r * (m1 + p - m2 % p)) [MOD p] := Nat.ModEq.mul_left q ((Nat.mod_modEq _ p).trans (Nat.ModEq.mul_left r (Nat.mod_modEq _ p)))
      _ = q * r * (m1 + p - m2 % p) := (Nat.mul_assoc _ _ _).symm
      _ ≡ 1 * (m1 + p - m2 % p) [MOD p] := Nat.ModEq.mul_right _ hinv
      _ = m1 + p - m2 % p := Nat.one_mul _
  have hsum : m2 + q * (r * ((m1 + p - m2 % p) % p) % p) ≡ m1 [MOD p] := by
    calc m2 + q * (r * ((m1 + p - m2 % p) % p) % p)
        ≡ m2 % p + (m1 + p - m2 % p) [MOD p] := Nat.ModEq.add (Nat.mod_modEq m2 p).symm hstep
      _ = m1 + p := by omega
      _ ≡ m1 [MOD p] := Nat.add_mod_right m1 p
  rw [hsum, Nat.mod_eq_of_lt h1]

/-- Settles O31: `modExp_eq` for the powers, `crt_residues` for the residues of RSA_PRIVATE. -/
theorem modularResultsAreExact : Obligations.ModularResultsAreExact := by
  refine ⟨?_, ?_⟩
  · intro s i j
    dsimp only
    intro hr hl
    refine ⟨fun hw => ?_, fun hw => ?_, fun hw => ?_, fun pass t he hw => ?_⟩
    · exact core_gives (f := runModexp i.val) hr hw (runModexp_eq hl)
    · exact core_gives (f := runModexp i.val) hr hw (runModexp_eq hl)
    · exact core_gives (f := runModmul i.val) hr hw (pkGuard_passes hl _)
    · have hgive : ∀ {u : Block}, runRsaPrivate pass t i.val j s.blk = u → Gives (.rsaPrivate i pass t) s u :=
        fun h => secret_gives hr he hw h
      have hgood : checkHolds j (rsaChecks (keyAt j 0) (haveSrc j) (8 * j.desc.variant.toNat)) pass t = true ↔ _ := checkHolds_iff _
      rw [rsaChecks, modExp_eq, beq_iff_eq] at hgood
      refine ⟨fun hc => hgive ?_, fun hc hg => hgive ?_⟩
      · refine (pkGuard_passes hl _).trans (if_neg ?_)
        rw [rsaChecks, modExp_eq, hgood.2 hc]
        decide
      · refine (pkGuard_passes hl _).trans (if_pos ?_)
        rw [rsaChecks, modExp_eq, Bool.not_eq_true', ← Bool.not_eq_true, hgood]
        rintro (h | h)
        · exact Bool.false_ne_true (h.symm.trans hc)
        · exact hg h
  · intro key x k
    dsimp only
    intro hp hq hinv
    simp only [rsaPrivate, modExp_eq]
    exact crt_residues hp hinv (Nat.mod_lt _ hp) (Nat.mod_lt _ hq)

end Sys2Proof.Machine
end


section
/-!
SUPPORT. Keys and secrets that the cores make (R312, R318, R320, R333, R337, R338).
-/

namespace Sys2Proof.Machine

open Sys2Proof

theorem lowest_mem {l : List Status} {st : Status} (h : lowest l = some st) : st ∈ l := by
  induction l with
  | nil => cases h
  | cons x l ih =>
    unfold lowest at h
    split at h
    · obtain rfl : x = st := Option.some.inj h
      exact List.mem_cons_self
    · rename_i y hy
      split at h
      · obtain rfl : x = st := Option.some.inj h
        exact List.mem_cons_self
      · obtain rfl : y = st := Option.some.inj h
        exact List.mem_cons_of_mem _ (ih hy)

theorem lowest_eq_none {l : List Status} (h : lowest l = none) : l = [] := by
  cases l with
  | nil => rfl
  | cons x l =>
    unfold lowest at h
    split at h <;> cases h

/-- A condition below every other one found is the lowest. -/
theorem lowest_of_least {l : List Status} {st : Status} (hmem : st ∈ l) (hle : ∀ x ∈ l, x = st ∨ st.code < x.code) :
    lowest l = some st := by
  induction l with
  | nil => cases hmem
  | cons x l ih =>
    have hl : ∀ y ∈ l, y = st ∨ st.code < y.code := fun y hy => hle y (List.mem_cons_of_mem _ hy)
    unfold lowest
    split
    · rename_i hn
      rw [lowest_eq_none hn, List.mem_singleton] at hmem
      rw [hmem]
    · rename_i y hy
      by_cases hx : x = st
      · have hcode : st.code ≤ y.code := by
          rcases hl y (lowest_mem hy) with h | h
          · rw [h]
          · exact h.le
        rw [hx, if_pos hcode]
      · have hmem' : st ∈ l := (List.mem_cons.1 hmem).resolve_left fun h => hx h.symm
        obtain rfl : st = y := Option.some.inj ((ih hmem' hl).symm.trans hy)
        have hlt : st.code < x.code := (hle x List.mem_cons_self).resolve_left hx
        rw [if_neg (by omega)]

section
variable {i : Nat} {j : Job} {b d : Block} {k : NewKey} {z pre : Bytes}

/-- A key pair is made once no island holds. -/
theorem runKeygen_eq (hk : j.newKey = some k) : runKeygen i j b =
    let m := wholeMaterial b k.alg k.size (genMaterial b k.alg k.size)
    when (!anyHold b) (fun b => installWith (coreKeep j) i j (insideKey b j (newRecord k)) m
      (m.drop ((privateLen b k.alg k.size).getD 0)) (blinded (drew b))) b := by
  simp only [runKeygen, hk]

theorem runSecret_writes (hn : j.newKey = none) : runSecret i j z pre d b = pkWrite i j (pre ++ z) d := by
  simp only [runSecret, hn]

/-- A secret of an agreement or a decapsulation becomes a child of the job's key. -/
theorem runSecret_child (hk : j.newKey = some k) (ha : anyHold b = false) (hop : j.desc.op ≠ 0x51) :
    runSecret i j z pre d b = installWith (coreKeep j) i j (childOf d j (newRecord k)) z pre d := by
  simp [runSecret, hk, ha, hop]

theorem runSecret_inside (hk : j.newKey = some k) (ha : anyHold b = false) (hop : j.desc.op = 0x51) :
    runSecret i j z pre d b = installWith (coreKeep j) i j (insideKey d j (newRecord k)) z pre d := by
  simp [runSecret, hk, ha, hop]

theorem agreed_ecdh (hop : j.desc.op = 0x43) : agreed b j = toBe (curveLens b j.desc.variant.toNat).1
    (pointX (sharedPoint b j.desc.variant.toNat (keyAt j 0) (haveSrc j))) := by
  unfold agreed
  exact if_neg (by rw [hop]; decide)

theorem agreed_xdh (hop : j.desc.op = 0x46) : agreed b j =
    xdh j.desc.variant.toNat ((keyAt j 0).take (xdhLen j.desc.variant.toNat)) (haveSrc j) := by
  unfold agreed
  exact if_pos (by rw [hop]; decide)

/-- An all-zero XDH secret is an edge condition, and no other has a lower code. -/
theorem xdh_zero (hop : j.desc.op = 0x46)
    (hz : allZero (xdh j.desc.variant.toNat ((keyAt j 0).take (xdhLen j.desc.variant.toNat)) (haveSrc j)) = true) :
    lowest (pkConds b j) = some .inputZero := by
  refine lowest_of_least ?_ ?_
  · simp [pkConds, hop, hz, cond]
  · intro x hx
    simp only [pkConds, hop, List.mem_append, mem_cond] at hx
    rcases hx with ((⟨-, rfl⟩ | ⟨-, rfl⟩) | ⟨-, rfl⟩) | ⟨-, rfl⟩
    · exact .inl rfl
    · exact .inl rfl
    · exact .inr (by decide)
    · exact .inl rfl

end

/-- Settles O32. -/
theorem coresMakeKeysAndSecrets : Obligations.CoresMakeKeysAndSecrets := by
  intro s i j
  dsimp only
  intro hr he
  refine ⟨fun p hp hw k hk => ?_, fun hl hw => ?_, fun hw => ?_, fun hl hw => ?_, fun hw => ?_⟩
  · have hgive : ∀ {u : Block}, runKeygen i.val j s.blk = u → Gives (p.2 i) s u := by
      intro u hu
      simp only [List.mem_cons, List.not_mem_nil, or_false] at hp
      rcases hp with rfl | rfl | rfl <;> exact secret_gives hr he hw hu
    refine ⟨fun ha => hgive ?_, fun ha => hgive ?_⟩
    · rw [runKeygen_eq hk]
      dsimp only
      rw [ha]
      rfl
    · rw [runKeygen_eq hk]
      dsimp only
      rw [ha]
      rfl
  · have hop : j.desc.op = 0x43 := hw.1.2.1
    have hgive : ∀ {u : Block}, runSecret i.val j (agreed s.blk j) [] (blinded s.blk) s.blk = u → Gives (.ecdh i) s u :=
      fun h => secret_gives (f := runAgree i.val) hr he hw ((pkGuard_passes hl _).trans h)
    rw [agreed_ecdh hop] at hgive
    exact ⟨fun hn => hgive (runSecret_writes hn), fun k hk ha => hgive (runSecret_child hk ha (by rw [hop]; decide))⟩
  · have hop : j.desc.op = 0x46 := hw.1.2.1
    have hgive : ∀ {u : Block}, lowest (pkConds s.blk j) = none → runSecret i.val j (agreed s.blk j) [] (blinded s.blk) s.blk = u →
        Gives (.xdh i) s u := fun hl h => secret_gives (f := runAgree i.val) hr he hw ((pkGuard_passes hl _).trans h)
    rw [agreed_xdh hop] at hgive
    exact ⟨fun hz => secret_gives (f := runAgree i.val) hr he hw (pkGuard_rejects (xdh_zero hop hz) _),
      fun hl _ hn => hgive hl (runSecret_writes hn), fun k hl _ hk ha => hgive hl (runSecret_child hk ha (by rw [hop]; decide))⟩
  · have hop : j.desc.op = 0x51 := hw.1.2.1
    have hgive : ∀ {u : Block}, _ = u → Gives (.mlkemEncaps i) s u :=
      fun h => secret_gives (f := runEncaps i.val) hr he hw ((pkGuard_passes hl _).trans h)
    exact ⟨fun hn => hgive (runSecret_writes hn), fun k hk ha => hgive (runSecret_inside hk ha hop)⟩
  · have hop : j.desc.op = 0x52 := hw.1.2.1
    have hgive : ∀ {u : Block}, runDecaps i.val j s.blk = u → Gives (.mlkemDecaps i) s u := fun h => secret_gives hr he hw h
    exact ⟨fun hn => hgive (runSecret_writes hn), fun k hk ha => hgive (runSecret_child hk ha (by rw [hop]; decide))⟩

/-! ## LMS and HSS (R345 to R351) -/

section
variable {i : Nat} {j : Job} {b : Block} {t : Take}

theorem runLmsKeygen_lower (hv : j.desc.variant = 0x04) : runLmsKeygen i j b =
    pkWrite i j (lowerRegion (useSys 0 b) (keyAt j 0) (field j.desc.iv 0 8)) (useSys 0 b) := by
  unfold runLmsKeygen
  exact if_pos (beq_iff_eq.2 hv)

theorem runLmsKeygen_new (hv : j.desc.variant ≠ 0x04) : runLmsKeygen i j b = runLmsNew i j (useSys 0 b) := by
  unfold runLmsKeygen
  exact if_neg fun h => hv (beq_iff_eq.1 h)

/-- A new key first closes its cell's batch and asks for the cell's value. -/
theorem runLmsNew_asks (hf : j.leafFail = false) (hl : j.leaf = none) (hw : j.leafWait = false) :
    runLmsNew i j b = askLeaf i j.desc.aLen 0 0 (closeBatch j.desc.aLen b) := by
  simp [runLmsNew, hf, hl, hw]

theorem runLmsNew_makes (hf : j.leafFail = false) {base : Nat} (hl : j.leaf = some base) {k : NewKey} (hk : j.newKey = some k)
    {r : Nat} {l : List Nat} (ht : j.target = r :: l) (ha : anyHold b = false) : runLmsNew i j b =
      let m := lmsMaterial b j.desc base
      let b1 := installKey i j (insideKey b j (newRecord k)) m (drew (drew b))
      let out := treeCache b1 j.desc.variant.toNat m (resultRecord b1 r)
      finish i (fit (jobOutLen b j) out) [] { bytesWritten := jobOutLen b j } (coreKeep j out b1) := by
  simp only [runLmsNew, hf, hl, hk, ht, ha, Bool.false_eq_true, if_false]
  rfl

section
variable (hf : j.leafFail = false)
include hf

theorem runLmsSign_noCache (hc : cacheHeadOk (useSys 0 b) j.desc.variant.toNat (keyAt j 0) j.aux.bytes = false) :
    runLmsSign t i j b = pkReject i j .stateExhausted 0 (useSys 0 b) := by
  simp only [runLmsSign, hf, hc, Bool.false_eq_true, if_false, Bool.not_false, if_true]

theorem runLmsSign_step (hc : cacheHeadOk (useSys 0 b) j.desc.variant.toNat (keyAt j 0) j.aux.bytes = true) :
    runLmsSign t i j b = leafStep t i j (joinQueue (lmsCell (keyAt j 0)) j (useSys 0 b)) := by
  simp only [runLmsSign, hf, hc, Bool.false_eq_true, if_false, Bool.not_true]

end

/-! ### The leaf step -/

/-- The cell of a job's key. -/
abbrev leafCell (b : Block) (j : Job) : LeafCell := b.tack.cells.get (lmsCell (keyAt j 0))
/-- The value the job may take, and its leaf. -/
abbrev leafValue (b : Block) (j : Job) : Nat := if (leafCell b j).next < (leafCell b j).stop then (leafCell b j).next else (leafCell b j).value
abbrev leafIndex (b : Block) (j : Job) : Nat := leafValue b j - lmsBase (keyAt j 0)
/-- The job is the first of its cell's queue. -/
abbrev LeafTurn (b : Block) (j : Job) : Prop := (leafQueue b (lmsCell (keyAt j 0))).head? = some j.ord

theorem leafStep_behind (h : ¬ LeafTurn b j) : leafStep t i j b = b := by
  unfold leafStep
  exact if_pos (by simpa using h)

section
variable (hturn : LeafTurn b j)
include hturn

/-- The step of the first job of its queue. -/
theorem leafStep_turn : leafStep t i j b =
    if ((leafCell b j).known || (leafCell b j).next < (leafCell b j).stop) && lmsLeaves j.desc.variant.toNat (lmsCodes (keyAt j 0)) ≤ leafIndex b j then
      pkReject i j .stateExhausted 0 b
    else if (leafCell b j).next == (leafCell b j).stop then
      (if j.leafWait then b else if (leafCell b j).known then askLeaf i (lmsCell (keyAt j 0)) 1 1024 b else askLeaf i (lmsCell (keyAt j 0)) 0 0 b)
    else if j.leaf != some (leafValue b j) then
      askPath i (leafValue b j) j (pathReads j.desc.variant.toNat (lmsCodes (keyAt j 0)) (leafIndex b j)) b
    else if !j.again.full then b
    else lmsSignWith t i (leafValue b j) j (keyAt j 0) b := by
  unfold leafStep
  exact if_neg (by simpa using hturn)

theorem leafStep_exhausted (hv : (leafCell b j).known = true ∨ (leafCell b j).next < (leafCell b j).stop)
    (hq : lmsLeaves j.desc.variant.toNat (lmsCodes (keyAt j 0)) ≤ leafIndex b j) : leafStep t i j b = pkReject i j .stateExhausted 0 b := by
  rw [leafStep_turn hturn]
  exact if_pos (by simpa using ⟨hv, hq⟩)

/-- With its batch used up the job asks for another, or for the cell's value. -/
theorem leafStep_asks (hn : (leafCell b j).next = (leafCell b j).stop) (hw : j.leafWait = false) :
    ((leafCell b j).known = true → leafIndex b j < lmsLeaves j.desc.variant.toNat (lmsCodes (keyAt j 0)) →
      leafStep t i j b = askLeaf i (lmsCell (keyAt j 0)) 1 1024 b)
    ∧ ((leafCell b j).known = false → leafStep t i j b = askLeaf i (lmsCell (keyAt j 0)) 0 0 b) := by
  refine ⟨fun hk hq => ?_, fun hk => ?_⟩
  · rw [leafStep_turn hturn, if_neg (by simpa using fun _ => hq), if_pos (beq_iff_eq.2 hn), hw, hk]
    rfl
  · rw [leafStep_turn hturn, if_neg (by simp [hk, hn]), if_pos (beq_iff_eq.2 hn), hw, hk]
    rfl

section
variable (hn : (leafCell b j).next < (leafCell b j).stop) (hq : leafIndex b j < lmsLeaves j.desc.variant.toNat (lmsCodes (keyAt j 0)))
include hn hq

/-- With a value reserved the job reads its path, then signs. -/
theorem leafStep_reserved : leafStep t i j b =
    if j.leaf != some (leafValue b j) then
      askPath i (leafValue b j) j (pathReads j.desc.variant.toNat (lmsCodes (keyAt j 0)) (leafIndex b j)) b
    else if !j.again.full then b
    else lmsSignWith t i (leafValue b j) j (keyAt j 0) b := by
  rw [leafStep_turn hturn, if_neg (by simpa using fun _ => hq), if_neg (by simp [hn.ne])]

theorem leafStep_signs (hl : j.leaf = some (leafCell b j).next) (hf : j.again.full = true) :
    leafStep t i j b = lmsSignWith t i (leafCell b j).next j (keyAt j 0) b := by
  have hv : leafValue b j = (leafCell b j).next := if_pos hn
  rw [leafStep_reserved hturn hn hq, hv, hl, hf]
  simp

end

end

/-! ### Taking the value -/

/-- Taking a value moves its cell on, and the queue with it. -/
theorem takeLeaf_cell (c q leaves : Nat) (root : Bytes) (b : Block) : (takeLeaf c q leaves root b).tack.cells.get c =
    { b.tack.cells.get c with
      next := (b.tack.cells.get c).next + 1, queue := (b.tack.cells.get c).queue.drop 1
      lowRaised := ((takeLeaf c q leaves root b).tack.cells.get c).lowRaised } := by
  unfold takeLeaf
  dsimp only
  split <;> rename_i h <;> simp only [when_tack, raise_tack, ite_self, modCell, modTack_tack, Tab.get_mod_self]

section
variable {v : Nat} {m : Bytes}

theorem lmsSignWith_bad (h : regionBad b j.desc.variant.toNat m (v - lmsBase m) j.again.bytes = true) :
    lmsSignWith t i v j m b = pkReject i j .stateExhausted 0 b := by
  simp only [lmsSignWith, h, if_true]

/-- The block in which the value has been taken. -/
abbrev leafTaken (j : Job) (v : Nat) (m : Bytes) (b : Block) : Block :=
  takeLeaf (lmsCell m) (v - lmsBase m) (lmsLeaves j.desc.variant.toNat (lmsCodes m)) (lmsRootOf m) b

section
variable (h : regionBad b j.desc.variant.toNat m (v - lmsBase m) j.again.bytes = false)
include h

theorem lmsSignWith_writes (hc : lmsChecks j.desc.variant.toNat m (v - lmsBase m) j.again.bytes = true) (ht : t = .agree) :
    lmsSignWith t i v j m b = pkWrite i j (lmsSignature j.desc.variant.toNat m (haveSrc j) (drbgNow b (lmsN (lmsType (lmsCodes m) 0)))
      (v - lmsBase m) j.again.bytes) (drew (leafTaken j v m b)) := by
  subst ht
  simp [lmsSignWith, h, hc]

theorem lmsSignWith_fails (hc : ¬ (lmsChecks j.desc.variant.toNat m (v - lmsBase m) j.again.bytes = true ∧ t = .agree)) :
    lmsSignWith t i v j m b = pkCheckFail i j t (leafTaken j v m b) := by
  unfold lmsSignWith
  exact (if_neg (by rw [h]; decide)).trans (if_pos (by simpa using not_and_or.1 hc))

end

end

end

/-- Settles O33: the leaf step's branches exclude each other, and a value is taken before its signature is made. -/
theorem leavesAreTakenFromReservedBatches : Obligations.LeavesAreTakenFromReservedBatches := by
  intro s i j t
  dsimp only
  intro hr he hf
  have hnew : ∀ {u : Block}, j.desc.variant ≠ 0x04 → CoreWorks s.blk 0x58 i.val j → runLmsNew i.val j (useSys 0 s.blk) = u →
      Gives (.lmsKeygen i) s u := fun hv hw h => secret_gives (f := runLmsKeygen i.val) hr he hw ((runLmsKeygen_new hv).trans h)
  refine ⟨fun hw hv => ?_, fun hw hv hl hwait => ?_, fun k r l base hw hv hl hk ht ha => ?_, fun hw hc => ?_, fun hw hc => ?_⟩
  · exact secret_gives (f := runLmsKeygen i.val) hr he hw (runLmsKeygen_lower hv)
  · exact hnew hv hw (runLmsNew_asks hf hl hwait)
  · exact hnew hv hw (runLmsNew_makes hf hl hk ht ha)
  · exact secret_gives (f := runLmsSign t i.val) hr he hw (runLmsSign_noCache hf hc)
  · have hstep : ∀ {u : Block}, leafStep t i.val j (joinQueue (lmsCell (keyAt j 0)) j (useSys 0 s.blk)) = u → Gives (.lmsSign i t) s u :=
      fun h => secret_gives (f := runLmsSign t i.val) hr he hw ((runLmsSign_step hf hc).trans h)
    generalize joinQueue (lmsCell (keyAt j 0)) j (useSys 0 s.blk) = y at hstep
    refine ⟨fun hb => hstep (leafStep_behind hb), fun hm hv hq => hstep (leafStep_exhausted hm hv hq), fun hm hn hwait => ?_,
      fun hm hn hq => ⟨fun hl => hstep ?_, fun hl hfull hbad => hstep ?_, fun hl hfull hgood => ?_⟩⟩
    · obtain ⟨hknown, hnot⟩ := leafStep_asks (t := t) (i := i.val) hm hn hwait
      exact ⟨fun hk hq => hstep (hknown hk hq), fun hk => hstep (hnot hk)⟩
    · have hv : leafValue y j = (leafCell y j).next := if_pos hn
      rw [leafStep_reserved hm hn hq]
      exact (if_pos (by rw [hv]; simpa using hl)).trans
        (congrArg (fun n => askPath i.val n j (pathReads j.desc.variant.toNat (lmsCodes (keyAt j 0)) (leafIndex y j)) y) hv)
    · exact (leafStep_signs hm hn hq hl hfull).trans (lmsSignWith_bad (by rw [← (if_pos hn : leafValue y j = _)]; exact hbad))
    · have hv : leafValue y j = (leafCell y j).next := if_pos hn
      rw [show (if (y.tack.cells.get (lmsCell (keyAt j 0))).next < _ then _ else _) = (leafCell y j).next from hv] at hgood ⊢
      exact ⟨leafTaken j (leafCell y j).next (keyAt j 0) y, takeLeaf_cell _ _ _ _ _,
        fun hok => hstep ((leafStep_signs hm hn hq hl hfull).trans (lmsSignWith_writes hgood hok.1 hok.2)),
        fun hno => hstep ((leafStep_signs hm hn hq hl hfull).trans (lmsSignWith_fails hgood hno))⟩

end Sys2Proof.Machine
end


section
/-!
SUPPORT. Responses on the tagged ports (R536 to R538, R542).
-/

namespace Sys2Proof.Machine

open Sys2Proof

/-! ## Retiring a tag -/

@[simp] theorem retire_still (p : Port) (tag : Nat) (b : Block) : (retire p tag b).still = b.still := by
  rw [retire, pump_still, setPort_still]

/-- What waited and what else was outstanding is kept. -/
theorem retire_reqs (p : Port) (tag : Nat) (b : Block) :
    (((retire p tag b).port p).waiting ++ ((retire p tag b).port p).out.map Flight.req).Perm
      ((b.port p).waiting ++ ((b.port p).out.filter fun f => f.tag != tag).map Flight.req) := by
  refine (pump_reqs p _).trans ?_
  rw [setPort_port_self]
  exact List.Perm.refl _

theorem retire_jobs (p : Port) (tag : Nat) (b : Block) : (retire p tag b).jobs = b.jobs := jobs_of_still (retire_still p tag b)
theorem retire_job (p : Port) (tag i : Nat) (b : Block) : (retire p tag b).job i = b.job i := job_of_jobs (retire_jobs p tag b) i
theorem retire_holding (p : Port) (tag n : Nat) (b : Block) : holding (retire p tag b) n = holding b n := by
  rw [holding, ← still_holds, retire_still, still_holds, holding]

/-! ## Jobs that a fence, a lane or an engine leaves as they are -/

@[simp] theorem refillAll_jobs (b : Block) : (refillAll b).jobs = b.jobs :=
  each_keeps (g := Block.jobs) (f := refill) (fun _ _ => rfl) _ _
@[simp] theorem unpair_jobs (l : Nat) (b : Block) : (unpair l b).jobs = b.jobs := by
  simp only [unpair, when_jobs, modLane_jobs, ite_self]
@[simp] theorem fence_jobs (l : Nat) (f : Lane → Lane) (b : Block) : (fence l f b).jobs = b.jobs := by
  simp only [fence, when_jobs, raise_jobs, ite_self, unpair_jobs, modLane_jobs, refillAll_jobs]
@[simp] theorem leave_jobs (l : Nat) (b : Block) : (leave l b).jobs = b.jobs := by
  unfold leave
  split
  · exact fence_jobs _ _ _
  · rfl
@[simp] theorem dropEntry_jobs (i : Nat) (b : Block) : (dropEntry i b).jobs = b.jobs := by
  unfold dropEntry
  split
  · rfl
  · split
    · simp only [when_jobs, modIsland_jobs, ite_self]
    · rfl
@[simp] theorem freeEngine_jobs (i : Nat) (b : Block) : (freeEngine i b).jobs = b.jobs := by
  unfold freeEngine
  split
  · rfl
  · exact each_keeps (g := Block.jobs) (fun l c => leave_jobs l c) _ _
  · exact dropEntry_jobs i b
  · rfl
  · rfl
  · rfl
@[simp] theorem lapseCredit_jobs (j : Job) (b : Block) : (lapseCredit j b).jobs = b.jobs :=
  each_keeps (g := Block.jobs) (fun e c => by unfold lapseIn; split <;> rfl) _ _

/-! ## A job whose data end in an error -/

section
variable {i : Nat} {j x : Job} {b : Block} {st : Status}

/-- A lane that lets a job go leaves its stage. -/
theorem laneDone_stage (hx : (laneDone i b).job i = some x) : ∃ y, b.job i = some y ∧ x.stage = y.stage := by
  unfold laneDone at hx
  split at hx
  · rename_i y hy
    refine ⟨y, hy, ?_⟩
    have hself : ∀ {z}, b.job i = some z → z.stage = y.stage := fun h => congrArg Job.stage (Option.some.inj (h.symm.trans hy))
    split at hx
    · cases hc : laneEmpty b i y && !engineHeld b y
      · rw [hc] at hx
        exact hself hx
      · rw [hc] at hx
        have hkeys := modJob_job ((job_of_jobs (freeEngine_jobs i b) i).trans hy) (fun z => { z with keys := [] })
        obtain rfl := Option.some.inj (hkeys.symm.trans hx)
        rfl
    · exact hself hx
  · rename_i hn
    exact absurd hx (by rw [hn]; simp)

theorem clearKeys_stage (hx : (clearKeys i st b).job i = some x) : ∃ y, b.job i = some y ∧ x.stage = y.stage := by
  have hjobs : (clearKeys i st b).jobs =
      (modJob i (fun x => { x with keys := [], padded := [], restored := [], running := [] }) (dropEntry i b)).jobs := by
    unfold clearKeys
    split <;> rfl
  rw [job_of_jobs hjobs, modJob_job_self, job_of_jobs (dropEntry_jobs i b)] at hx
  obtain ⟨y, hy, rfl⟩ := Option.map_eq_some_iff.1 hx
  exact ⟨y, hy, rfl⟩

/-- A run-stage error has its job drain. -/
theorem failRun_stage (hx : (failRun i st b).job i = some x) (hj : b.job i = some j) : x.stage = .draining := by
  unfold failRun at hx
  rw [hj] at hx
  dsimp only at hx
  rw [job_of_jobs (when_keeps (g := Block.jobs) (lapseCredit_jobs j) _ _)] at hx
  obtain ⟨y, hy, hxy⟩ := clearKeys_stage hx
  rw [modJob_job_self] at hy
  obtain ⟨z, -, rfl⟩ := Option.map_eq_some_iff.1 hy
  exact hxy

theorem runError_stage (hx : (runError i st b).job i = some x) (hj : b.job i = some j) : x.stage = .draining := by
  obtain ⟨y, hy, hxy⟩ := laneDone_stage hx
  exact hxy.trans (failRun_stage hy hj)

/-- An error in a running job has it drain, or leaves its saved state as it was. -/
theorem errorIn_running (hj : b.job i = some j) (hr : j.stage = .running) (hx : (errorIn i st b).job i = some x) :
    x.stage = .draining ∨ x.restore = j.restore := by
  unfold errorIn at hx
  split at hx
  · refine .inr ?_
    rw [modJob_job hj] at hx
    obtain rfl := Option.some.inj hx
    rfl
  · simp only [runFails, hj, hr] at hx
    split at hx
    · exact .inl (runError_stage hx hj)
    · refine .inr ?_
      rw [modJob_job hj] at hx
      obtain rfl := Option.some.inj hx
      rfl

end

/-! ## What read data do for their owner -/

section
variable {i : Nat} {j : Job} {b : Block} {r : Req} {data : Bytes} {bad : Bool}

/-- Data go by the owner of their request alone. -/
theorem deliver_owner {o : Owner} (ho : r.owner = o) (data : Bytes) (bad : Bool) (b : Block) :
    deliver r data bad b = deliver { r with owner := o } data bad b := by
  subst ho
  rfl

theorem deliver_attr (ho : r.owner = .attr i) (data : Bytes) (bad : Bool) (b : Block) :
    deliver r data bad b = giveAttr i (fun x => x.answer r.off data bad) b := deliver_owner ho data bad b

theorem deliver_stateBlob (ho : r.owner = .stateBlob i) (data : Bytes) (bad : Bool) (b : Block) :
    deliver r data bad b = giveState i bad (fun x => x.answer r.off data bad) b := deliver_owner ho data bad b

/-- A saved tap state that comes back in error ends the running splice, which stops there. -/
theorem giveState_error (hj : b.job i = some j) (hr : j.stage = .running) (hf : j.restore.full = false) (f : Buf → Buf) :
    giveState i true f b = dataError i (useSys 2 b) := by
  have hb : giveState i true f b = match (dataError i (useSys 2 b)).job i with
      | some x => when (x.stage == .running && tapLost (dataError i (useSys 2 b)) x) (errorIn i .doubleFault) (dataError i (useSys 2 b))
      | none => dataError i (useSys 2 b) := by
    simp only [giveState, hj, hr]
    rfl
  rw [hb]
  split
  · rename_i x hx
    have hno : (x.stage == .running && tapLost (dataError i (useSys 2 b)) x) = false := by
      rcases errorIn_running ((job_of_jobs (useSys_jobs 2 b) i).trans hj) hr hx with hs | hs
      · rw [hs]
        rfl
      · simp [tapLost, hs, hf]
    rw [hno]
    rfl
  · rfl

/-- One that arrives ends the splice when it does not open. -/
theorem giveState_arrives (hj : b.job i = some j) (hr : j.stage = .running) (f : Buf → Buf) :
    giveState i false f b =
      let v := modJob i (fun j => { j with restore := f j.restore }) (useSys 2 b)
      if tapLost v { j with restore := f j.restore } then errorIn i .doubleFault v else v := by
  have hv : (modJob i (fun j => { j with restore := f j.restore }) (useSys 2 b)).job i = some { j with restore := f j.restore } :=
    modJob_job ((job_of_jobs (useSys_jobs 2 b) i).trans hj) _
  simp only [giveState, hj, hr, runBuf, Bool.false_eq_true, if_false, BEq.rfl, if_true, hv, Bool.true_and]
  rfl

theorem giveState_prepares (hj : b.job i = some j) (hr : j.stage ≠ .running) (f : Buf → Buf) (bad : Bool) :
    giveState i bad f b = modJob i (fun x => { x with restore := f x.restore }) b := by
  simp [giveState, hj, hr]

/-- The block of attributes of a job with a key waits for the key decision, any while the tack room holds. -/
theorem giveAttr_waits (hj : b.job i = some j) (h : takesKey j.desc = true ∨ holding b 19 = true) (f : Buf → Buf) :
    giveAttr i f b = modJob i (fun j => { j with attrBlk := f j.attrBlk }) b := by
  have hv := modJob_job hj (fun j => { j with attrBlk := f j.attrBlk })
  simp only [giveAttr, hv]
  exact if_pos (by simpa using h)

theorem giveAttr_checked (hj : b.job i = some j) (hk : takesKey j.desc = false) (hh : holding b 19 = false) (f : Buf → Buf) :
    giveAttr i f b = settle i (checkAttr i (modJob i (fun j => { j with attrBlk := f j.attrBlk }) b)) := by
  have hv := modJob_job hj (fun j => { j with attrBlk := f j.attrBlk })
  simp only [giveAttr, hv]
  exact if_neg (by simp [hk, hh])

/-- A second read of a table that differs is an error of a running job. -/
theorem tableSecond_differs (hj : b.job i = some j) (hr : j.stage = .running) {x l : Bytes} (h : l ≠ x) :
    tableSecond i x l false b = errorIn i .fragmentTableInvalid b := by
  simp [tableSecond, hj, hr, h]

theorem tableSecond_same (i : Nat) (x : Bytes) (b : Block) : tableSecond i x x false b = b := by
  simp [tableSecond]

/-- A mover's data count at their own step of the walk. -/
theorem giveMover_eq (m step : Nat) (f : Mover → Mover) (b : Block) :
    giveMover m step f b = moverReturned m (modMover m (fun x => if x.state = 2 ∧ x.step = step then f x else x) b) := by
  simp only [giveMover, Bool.and_eq_true, decide_eq_true_eq]

end

/-! ## Lanes that have nothing to hand over -/

theorem laneDone_kept {i : Nat} {b : Block} (h : ∀ j, b.job i = some j → laneEmpty b i j = false) : laneDone i b = b := by
  unfold laneDone
  split
  · rename_i j hj
    split
    · rw [h j hj]
      rfl
    · rfl
  · rfl

theorem each_kept {α : Type} {l : List α} {f : α → Block → Block} {b : Block} (h : ∀ x ∈ l, f x b = b) : each l f b = b := by
  induction l with
  | nil => rfl
  | cons x l ih => rw [each_cons, h x List.mem_cons_self, ih fun y hy => h y (List.mem_cons_of_mem _ hy)]

theorem lanesDone_kept {b : Block} (h : ∀ l : LaneId, ∀ i ∈ (b.lane l.val).jobs, ∀ j, b.job i = some j → laneEmpty b i j = false) :
    lanesDone b = b := by
  refine each_kept fun i hi => ?_
  obtain ⟨l, hl, hi⟩ := List.mem_flatMap.1 hi
  exact laneDone_kept (h ⟨l, List.mem_range.1 hl⟩ i hi)

theorem drained_open {b : Block} (h : b.portDrain = false) : drained b = b := by
  simp [drained, h]

/-- The last beat of a read retires its tag and hands over what all beats have brought. -/
theorem readResponse_last {b : Block} {p : Port} {tag : Nat} {data : Bytes} {err : Bool} {g : Flight} (hg : flightOf b p tag = some g)
    (hw : g.req.write = false) : readResponse p tag data err true b =
      let all := (g.got ++ data).drop (g.req.lead p)
      drained (lanesDone (deliver g.req (fit g.req.len all) (g.bad || err || all.length < g.req.len) (retire p tag b))) := by
  simp only [readResponse, hg, hw, Bool.false_eq_true, if_false, Bool.not_true]

/-- Settles O34: `deliver` by the owner of the request. -/
theorem readDataReachesItsAsker : Obligations.ReadDataReachesItsAsker := by
  refine ⟨?_, ?_, fun t h => lanesDone_kept h, fun t h => drained_open h⟩
  · intro s p tag data err last
    dsimp only
    refine ⟨fun hn => ?_, fun g hg => ⟨fun hw => ?_, fun hw hl => ?_, fun hw hl => ?_⟩⟩
    · exact upd_gives (by simp only [readResponse, hn])
    · exact upd_gives (by simp only [readResponse, hg, hw, if_true])
    · exact upd_gives (by simp only [readResponse, hg, hw, hl, Bool.false_eq_true, if_false, Bool.not_false, if_true]; rfl)
    · subst hl
      have hends : ∀ {x : Block}, deliver g.req (fit g.req.len ((g.got ++ data).drop (g.req.lead p)))
            (g.bad || err || decide (((g.got ++ data).drop (g.req.lead p)).length < g.req.len)) (retire p tag s.blk) = x →
          Gives (.dataReadResponse p tag data err true) s (drained (lanesDone x)) := by
        rintro x rfl
        exact upd_gives (readResponse_last hg hw)
      generalize (g.bad || err || decide (((g.got ++ data).drop (g.req.lead p)).length < g.req.len)) = bad at hends ⊢
      generalize fit g.req.len ((g.got ++ data).drop (g.req.lead p)) = l at hends ⊢
      have ho : ∀ {o : Owner} {x : Block}, g.req.owner = o → deliver { g.req with owner := o } l bad (retire p tag s.blk) = x →
          Gives (.dataReadResponse p tag data err true) s (drained (lanesDone x)) := fun h hx => hends ((deliver_owner h _ _ _).trans hx)
      have hjob : ∀ {i j}, s.blk.job i = some j → (retire p tag s.blk).job i = some j := fun h => (retire_job _ _ _ _).trans h
      refine ⟨retire_still _ _ _, retire_reqs _ _ _, fun h => ho h rfl, fun i h hb => ho h ?_, fun i h hb => ho h ?_, fun i h hb => ?_,
        fun i h hb => ho h ?_, fun i h hb => ho h ?_, fun i h hb => ho h ?_, fun i x h => ⟨fun hb => ho h ?_, fun hb he => ho h ?_, fun j hb hne hj hr => ho h ?_⟩,
        fun n r first h => ho h rfl, fun n r k h => ho h rfl, fun i dst h => ho h rfl, fun i j h hj => ⟨fun hk => ?_, fun hk hh => ?_⟩,
        fun i second h => ?_, fun i second h => ho h rfl,
        fun i j h hj => ⟨fun hs => ?_, fun hs hb hf => ?_, fun hs hb => ?_⟩,
        fun k h => ho h rfl, fun k h => ho h rfl, fun m h => ho h (giveMover_eq _ _ _ _), fun m h => ho h (giveMover_eq _ _ _ _),
        fun m h => ho h (giveMover_eq _ _ _ _)⟩
      · rw [hb]; rfl
      · rw [hb]; rfl
      · rcases h with h | h | h <;> exact ho h (by rw [hb]; rfl)
      · rw [hb]; rfl
      · rw [hb]; rfl
      · rw [hb]; rfl
      · rw [hb]; rfl
      · rw [hb, he]
        exact tableSecond_same _ _ _
      · rw [hb]
        exact tableSecond_differs (hjob hj) hr hne
      · exact hends ((deliver_attr h _ _ _).trans (giveAttr_waits (hjob hj) (hk.imp id fun hh => (retire_holding _ _ _ _).trans hh) _))
      · exact hends ((deliver_attr h _ _ _).trans (giveAttr_checked (hjob hj) hk ((retire_holding _ _ _ _).trans hh) _))
      · rcases h with h | h <;> exact ho h rfl
      · exact hends ((deliver_stateBlob h _ _ _).trans (giveState_prepares (hjob hj) hs _ _))
      · subst hb
        exact hends ((deliver_stateBlob h _ _ _).trans (giveState_error (hjob hj) hs hf _))
      · subst hb
        exact hends ((deliver_stateBlob h _ _ _).trans (giveState_arrives (hjob hj) hs _))
  · intro x f
    refine ⟨fun h => ?_, fun h hf => ?_, fun h hf => ?_⟩ <;> simp [givePblk, h]
    · simp [hf]
    · simp [hf]

/-! ## Write responses -/

theorem acked_owner {r : Req} {o : Owner} (ho : r.owner = o) (err : Bool) (b : Block) : acked r err b = acked { r with owner := o } err b := by
  subst ho
  rfl

/-- The response of a write that is no completion entry. -/
theorem writeDone_acked {b : Block} {p : Port} {tag : Nat} {g : Flight} (err : Bool) (hg : flightOf b p tag = some g)
    (hw : g.req.write = true) (ho : ∀ n k, g.req.owner ≠ .completion n k) :
    writeDone p tag err b = drained (lanesDone (acked g.req err (retire p tag b))) := by
  simp only [writeDone, hg, hw, Bool.not_true, Bool.false_eq_true, if_false]

theorem writeDone_completion {b : Block} {p : Port} {tag : Nat} {g : Flight} {n : StallId} {k : Idx} (err : Bool) (hg : flightOf b p tag = some g)
    (hw : g.req.write = true) (ho : g.req.owner = .completion n k) : writeDone p tag err b = ackArrives tag err b := by
  simp only [writeDone, hg, hw, ho, Bool.not_true, Bool.false_eq_true, if_false]

/-- Settles O35: `acked` by the owner of the request. -/
theorem writeResponsesReachTheirWriter : Obligations.WriteResponsesReachTheirWriter := by
  intro s p tag err
  dsimp only
  refine ⟨fun hn => upd_gives (by simp only [writeDone, hn]), fun g hg hw => ?_⟩
  have ho : ∀ {o : Owner} {x : Block}, g.req.owner = o → (∀ n k, o ≠ .completion n k) → acked { g.req with owner := o } err (retire p tag s.blk) = x →
      Gives (.writeDoneResponse p tag err) s (drained (lanesDone x)) := by
    rintro o x h hno rfl
    rw [← acked_owner h]
    exact upd_gives (writeDone_acked err hg hw fun n k => h ▸ hno n k)
  refine ⟨retire_still _ _ _, retire_reqs _ _ _, fun i h => ⟨fun he => ?_, fun he => ?_⟩, fun n h => ⟨fun he => ?_, fun he => ?_⟩,
    fun i h => ho h (by simp) rfl, fun k h => ho h (by simp) ?_, fun k h => ho h (by simp) rfl, fun k h => ho h (by simp) rfl,
    fun m h => ho h (by simp) rfl, fun m h => ho h (by simp) rfl, fun n k h hp hr => ?_⟩
  · subst he
    rcases h with h | h <;> exact ho h (by simp) rfl
  · subst he
    rcases h with h | h <;> exact ho h (by simp) rfl
  · subst he
    exact ho h (by simp) rfl
  · subst he
    exact ho h (by simp) rfl
  · cases err <;> rfl
  · subst hp
    exact (upd_gives (writeDone_completion err hg hw h)).trans (updReady_gives hr rfl).symm

end Sys2Proof.Machine
end


section
/-!
SUPPORT. Acknowledged completions, interrupt messages and the end of jobs (R20, R62, R69, R70, R110, R118, R362, R542).
-/

namespace Sys2Proof.Machine

open Sys2Proof

/-! ## Interrupt messages -/

section
variable {n : Nat} {j : Job} {b : Block}

theorem haltOrCount_halts (ho : j.desc.haltOnError = true) (hr : j.result.status.isResult = false) (hk : j.desc.isKnot = true)
    (hh : (b.ring n j.ring.val).halted = false) : haltOrCount n j b = haltRing n j.ring.val 2 b := by
  simp [haltOrCount, ho, hr, hk, hh]

theorem haltOrCount_counts (h : j.desc.haltOnError = false ∨ j.result.status.isResult = true ∨ j.desc.isKnot = false
    ∨ (b.ring n j.ring.val).halted = true) : haltOrCount n j b = countIrq n j b := by
  unfold haltOrCount
  refine if_neg ?_
  rcases h with h | h | h | h <;> simp [h]

/-- The stall after a counted completion. -/
def irqCounted (now : Nat) (q : Stall) : Stall :=
  { q with irqPending := q.irqPending + 1, irqSince := if q.irqPending = 0 then some now else q.irqSince }

theorem countIrq_off (h : (j.desc.irq && (b.stall n).irqCtrl.getLsbD 0) = false) : countIrq n j b = b := by
  simp only [countIrq, h, Bool.not_false, if_true]

theorem countIrq_on (h : (j.desc.irq && (b.stall n).irqCtrl.getLsbD 0) = true) : countIrq n j b =
    when ((b.stall n).irqCount ≤ (b.stall n).irqPending + 1 || ((b.stall n).irqCtrl.getLsbD 1 && j.ring == 0)) (sendIrq n)
      (modStall n (irqCounted b.now) b) := by
  simp only [countIrq, h, Bool.not_true, Bool.false_eq_true, if_false]
  rfl

/-- A message clears the count and the timer. -/
theorem sendIrq_still (n : Nat) (b : Block) :
    (sendIrq n b).still = (modStall n (fun q => { q with irqPending := 0, irqSince := none }) b).still := by
  rw [sendIrq_eq]
  exact congrArg (modStall n (irqSent true)) (offer_still _ _ _)

theorem sendIrq_offered (n : Nat) (b : Block) : Offered (sendIrq n b) .rp (irqReq b n) := by
  have h : Offered (offer .rp [irqReq b n] b) .rp (irqReq b n) := offer_offered List.mem_cons_self
  exact offered_of_port (t := sendIrq n b) rfl h

end

/-- Settles O38. -/
theorem interruptMessagesFollowTheCount : Obligations.InterruptMessagesFollowTheCount := by
  intro s n j
  dsimp only
  have hdue : ((s.blk.stall n.val).irqCount ≤ (s.blk.stall n.val).irqPending + 1 ∨
      ((s.blk.stall n.val).irqCtrl.getLsbD 1 = true ∧ j.ring = 0)) ↔
      (decide ((s.blk.stall n.val).irqCount ≤ (s.blk.stall n.val).irqPending + 1) || ((s.blk.stall n.val).irqCtrl.getLsbD 1 && j.ring == 0)) = true := by
    simp
  refine ⟨fun ho hr hk hh => haltOrCount_halts ho hr hk hh, fun h => haltOrCount_counts h, fun h => countIrq_off h,
    fun h hd => ?_, fun h hd => ?_, fun hr hh => ⟨fun t0 ht hp => ?_, fun hp => ?_⟩⟩
  · rw [hdue, Bool.not_eq_true] at hd
    rw [countIrq_on h, hd, when_false]
    exact modStall_congr rfl
  · rw [hdue] at hd
    have hcleared : modStall n.val (irqSent true) (modStall n.val (irqCounted s.blk.now) s.blk) = modStall n.val (irqSent true) s.blk := by
      rw [modStall_modStall]
      exact modStall_congr rfl
    have hreq : irqReq (modStall n.val (irqCounted s.blk.now) s.blk) n.val = irqReq s.blk n.val := by
      simp [irqReq, stallIdent, irqCounted]
    rw [countIrq_on h, hd, when_true]
    refine ⟨(sendIrq_still _ _).trans (congrArg Block.still hcleared), ?_⟩
    have hoff := sendIrq_offered n.val (modStall n.val (irqCounted s.blk.now) s.blk)
    rw [hreq] at hoff
    exact hoff
  · refine ⟨sendIrq n.val { s.blk with now := max s.blk.now (t0 + (s.blk.stall n.val).irqTime) }, updOn_gives hr hh ?_,
      sendIrq_offered _ _, sendIrq_still _ _⟩
    simp only [irqTimer, ht, bne_iff_ne.2 hp, when_true]
  · refine updOn_gives hr hh ?_
    unfold irqTimer
    split
    · rfl
    · rw [hp]
      rfl

/-! ## Ends of jobs -/

section
variable {i : Nat} {j : Job} {b : Block}

theorem runPlain_ends {op : Nat} (hj : b.job i = some j) (hop : j.desc.op = op) (hs : j.stage = .waiting) :
    runPlain op i b = when (mayProceed b j) (endJob i .done) b := by
  simp [runPlain, hj, hop, hs]

theorem engineEnd_ends (hj : b.job i = some j) (hs : j.stage = .draining) (ho : j.outRest = []) (hd : dataWrites b i = 0)
    (he : j.errDue = none) (hh : engineHeld b j = false) (occ : Nat) : engineEnd i occ b = endJob i j.result.status (chargeEnd j occ b) := by
  simp [engineEnd, hj, hs, ho, hd, he, hh]

theorem engineEnd_waits (hj : b.job i = some j)
    (h : j.stage ≠ .draining ∨ j.outRest ≠ [] ∨ dataWrites b i ≠ 0 ∨ j.errDue ≠ none ∨ engineHeld b j = true) (occ : Nat) :
    engineEnd i occ b = b := by
  have hno : (j.stage == .draining && j.outRest == [] && j.errDue.isNone && dataWrites b i == 0 && !engineHeld b j) = false := by
    rw [← Bool.not_eq_true]
    simp only [Bool.and_eq_true, beq_iff_eq, Option.isNone_iff_eq_none, Bool.not_eq_true']
    rintro ⟨⟨⟨⟨hs, ho⟩, he⟩, hd⟩, hh⟩
    rcases h with h | h | h | h | h
    · exact h hs
    · exact h ho
    · exact h hd
    · exact h he
    · exact Bool.false_ne_true (hh.symm.trans h)
  simp only [engineEnd, hj, hno, when_false]

/-- The corrections at a job's end. -/
theorem chargeEnd_eq {e : EngClass} (h : opClass j.desc.op = some e) (occ : Nat) (b : Block) : chargeEnd j occ b =
    modStall j.stall.val (fun s => if j.eff = 0 ∧ classNum e < 3 ∧ j.ring = 0
        then { s with tokens := tokAdd s.tokens (classNum e) (100 * ((j.charged : Int) - occ)) } else s)
      { refill j.stall.val b with deficit := b.deficit.mod (deficitKey (classNum e) j.eff j.stall.val) (· + ((j.estCost : Int) - occ)) } := by
  simp only [chargeEnd, h, Bool.and_eq_true, decide_eq_true_eq, beq_iff_eq, and_assoc]
  rfl

end

/-- Settles O39. -/
theorem jobsEndWhenTheirWorkIsDone : Obligations.JobsEndWhenTheirWorkIsDone := by
  intro s i occ j
  dsimp only
  intro hr hh hj
  refine ⟨fun hs => ⟨fun hop => ⟨fun hm => ?_, fun hm => ?_⟩, fun hop => ⟨fun hm => ?_, fun hm => ?_⟩⟩, fun hs ho hd he hheld e hop => ?_, fun h => ?_⟩
  · exact updOn_gives hr hh (by rw [runPlain_ends hj hop hs, hm]; rfl)
  · exact updOn_gives hr hh (by rw [runPlain_ends hj hop hs, hm]; rfl)
  · exact updOn_gives hr hh (by rw [runPlain_ends hj hop hs, hm]; rfl)
  · exact updOn_gives hr hh (by rw [runPlain_ends hj hop hs, hm]; rfl)
  · refine ⟨chargeEnd j occ s.blk, updOn_gives hr hh (engineEnd_ends hj hs ho hd he hheld occ), ?_⟩
    rw [chargeEnd_eq hop]
    refine ⟨Tab.get_mod_self _ _ _, modStall_stall_self _ _ _, fun k hk => ?_, rfl, rfl⟩
    rw [modStall_stall_ne hk]
    exact modStall_stall_ne hk _ _
  · exact updOn_gives hr hh (engineEnd_waits hj h occ)

end Sys2Proof.Machine
end


section
/-!
SUPPORT. Acknowledged completions (R20, R30, R62, R259, R542).
-/

namespace Sys2Proof.Machine

open Sys2Proof

/-! ## What halts, messages and further completions leave of a stall's account -/

/-- The part of a stall that only acknowledgements change. -/
abbrev account (q : Stall) : Nat × Nat × Idx × List Idx × Option Idx × Nat × Bool :=
  (q.inFlight, q.held, q.cqProd, q.cqAcked, q.cqAgain, q.tapMismatches, decide (q.state = .quiescing))

section
variable {β : Type} {P : Stall → β} {f : Stall → Stall}

/-- A change of a stall that keeps a part of every stall keeps that part of any. -/
theorem modStall_part (h : ∀ q, P (f q) = P q) (n m : Nat) (b : Block) : P ((modStall n f b).stall m) = P (b.stall m) := by
  by_cases hm : m = n
  · subst hm
    rw [modStall_stall_self, h]
  · rw [modStall_stall_ne hm]

end

theorem account_of_stalls {b t : Block} (h : t.stalls = b.stalls) (m : Nat) : account (t.stall m) = account (b.stall m) := by
  rw [Block.stall, h]
  rfl

section
variable (n m : Nat) (b : Block)

theorem sendIrq_account : account ((sendIrq n b).stall m) = account (b.stall m) := by
  rw [sendIrq_eq]
  exact (modStall_part (P := account) (f := irqSent true) (fun _ => rfl) n m _).trans (account_of_stalls (offer_stalls _ _ _) m)

theorem haltIrq_account : account ((haltIrq n b).stall m) = account (b.stall m) :=
  when_keeps (g := fun b => account (b.stall m)) (sendIrq_account n m) _ _

theorem haltStall_account (cause : BitVec 4) (q : Stall) : account (haltStall cause q) = account q := by
  simp only [account, haltStall, Prod.mk.injEq, true_and]
  split
  · rename_i h
    rw [h]
    decide
  · rfl

theorem haltRing_account (r : Nat) (cause : BitVec 4) : account ((haltRing n r cause b).stall m) = account (b.stall m) := by
  cases hh : (b.ring n r).halted
  · rw [haltRing_eq hh]
    refine (haltIrq_account n m _).trans ?_
    by_cases hm : m = n
    · rw [hm, ringHalted_stall_self]
      exact haltStall_account cause _
    · rw [ringHalted_stall_ne hm]
  · simp only [haltRing, hh, if_true]

theorem countIrq_account (j : Job) : account ((countIrq n j b).stall m) = account (b.stall m) := by
  cases hon : j.desc.irq && (b.stall n).irqCtrl.getLsbD 0
  · rw [countIrq_off hon]
  · rw [countIrq_on hon]
    exact (when_keeps (g := fun b => account (b.stall m)) (sendIrq_account n m) _ _).trans
      (modStall_part (P := account) (f := irqCounted b.now) (fun _ => rfl) n m b)

theorem haltOrCount_account (j : Job) : account ((haltOrCount n j b).stall m) = account (b.stall m) := by
  unfold haltOrCount
  split
  · exact haltRing_account n m b _ _
  · exact countIrq_account n m b j

theorem issueOne_account (i : Nat) (j : Job) : account ((issueOne n i j b).stall m) = account (b.stall m) := by
  simp only [issueOne, offerEntry]
  exact (account_of_stalls (offer_stalls _ _ _) m).trans
    ((modStall_part (P := account) (f := fun s => { s with cqIssue := s.cqIssue + 1 }) (fun _ => rfl) n m _).trans (account_of_stalls rfl m))

theorem issueGo_account (k : Nat) : account ((issueGo n k b).stall m) = account (b.stall m) := by
  induction k generalizing b with
  | zero => rfl
  | succ k ih =>
    unfold issueGo
    split
    · rfl
    · exact (ih _).trans (issueOne_account n m b _ _)

theorem tryIssue_account : account ((tryIssue n b).stall m) = account (b.stall m) := by
  unfold tryIssue
  split
  · rfl
  · exact issueGo_account n m b _

end

/-! ## The completed job leaves the table -/

section
variable {n i : Nat} {b : Block}

@[simp] theorem sendIrq_jobs (n : Nat) (b : Block) : (sendIrq n b).jobs = b.jobs := by
  rw [sendIrq_eq, modStall_jobs, offer_jobs]

@[simp] theorem haltRing_jobs (n r : Nat) (cause : BitVec 4) (b : Block) : (haltRing n r cause b).jobs = b.jobs := by
  unfold haltRing haltIrq
  split
  · rfl
  · simp only [when_jobs, sendIrq_jobs, ite_self, raise_jobs, modStall_jobs, modRing_jobs]

@[simp] theorem haltOrCount_jobs (n : Nat) (j : Job) (b : Block) : (haltOrCount n j b).jobs = b.jobs := by
  unfold haltOrCount
  split
  · exact haltRing_jobs _ _ _ _
  · cases hon : j.desc.irq && (b.stall n).irqCtrl.getLsbD 0
    · rw [countIrq_off hon]
    · rw [countIrq_on hon]
      simp only [when_jobs, sendIrq_jobs, ite_self, modStall_jobs]

/-- Issuing completions brings no job back. -/
theorem issueOne_job_none (h : b.job i = none) (k : Nat) (j : Job) : (issueOne n k j b).job i = none := by
  have hjobs : (issueOne n k j b).jobs = (modJob k (fun j => { j with stage := .issued, cqIndex := (b.stall n).cqIssue }) b).jobs := by
    simp only [issueOne, offerEntry, offer_jobs, modStall_jobs]
  rw [job_of_jobs hjobs]
  by_cases hk : i = k
  · subst hk
    rw [modJob_job_self, h]
    rfl
  · rw [modJob_job_ne hk, h]

theorem issueGo_job_none (f : Nat) (h : b.job i = none) : (issueGo n f b).job i = none := by
  induction f generalizing b with
  | zero => exact h
  | succ f ih =>
    unfold issueGo
    split
    · exact h
    · exact ih (issueOne_job_none h _ _)

theorem tryIssue_job_none (h : b.job i = none) : (tryIssue n b).job i = none := by
  unfold tryIssue
  split
  · exact h
  · exact issueGo_job_none _ h

end

/-! ## The account after an acknowledgement -/

/-- Passing acknowledged entries changes `cq_prod`, the held credits and the entries alone. -/
theorem advanceProd_keeps (f : Nat) (q : Stall) :
    (advanceProd f q).inFlight = q.inFlight ∧ (advanceProd f q).cqAgain = q.cqAgain ∧ (advanceProd f q).tapMismatches = q.tapMismatches
      ∧ (advanceProd f q).state = q.state := by
  induction f generalizing q with
  | zero => exact ⟨rfl, rfl, rfl, rfl⟩
  | succ f ih =>
    unfold advanceProd
    split
    · exact ih _
    · exact ⟨rfl, rfl, rfl, rfl⟩

section
variable {x : Idx} {st : Status} {q : Stall}

theorem ackStall_keeps : (ackStall x st q).inFlight = q.inFlight - 1 ∧ (ackStall x st q).cqAgain = q.cqAgain
    ∧ (ackStall x st q).tapMismatches = (if st = .fixityMismatch then satAdd 32 q.tapMismatches 1 else q.tapMismatches)
    ∧ (ackStall x st q).state = q.state := advanceProd_keeps _ _

/-- The next entry, with none acknowledged beyond it, moves `cq_prod` by one and returns its credit. -/
theorem ackStall_next (hx : x = q.cqProd) (hq : q.cqAcked = []) :
    (ackStall x st q).cqProd = q.cqProd + 1 ∧ (ackStall x st q).held = q.held - 1 ∧ (ackStall x st q).cqAcked = [] := by
  subst hx
  simp [ackStall, advanceProd, hq]

/-- An entry beyond one not acknowledged is only noted. -/
theorem ackStall_later (hx : x ≠ q.cqProd) (hq : q.cqProd ∉ q.cqAcked) :
    (ackStall x st q).cqProd = q.cqProd ∧ (ackStall x st q).held = q.held ∧ x ∈ (ackStall x st q).cqAcked := by
  have hno : q.cqProd ∉ q.cqAcked ++ [x] := by simpa [hq] using hx.symm
  simp [ackStall, advanceProd, hno]

end

/-- The stall after its completion, when the rest of the completion keeps its account. -/
theorem quiesceDone_stall (n : Nat) (b : Block) : (quiesceDone n b).stall n =
    if (b.stall n).state = .quiescing ∧ (b.stall n).inFlight = 0 then { b.stall n with state := .quiesced } else b.stall n := by
  rw [quiesceDone, modStall_stall_self]
  simp only [Bool.and_eq_true, decide_eq_true_eq, beq_iff_eq]

/-- Of the block in which the completion's entry is counted only the account of the stall matters. -/
theorem complete_stall (n i : Nat) (j : Job) (b : Block) :
    let t := (complete n i j b).stall n
    let q := ackStall j.cqIndex j.result.status (b.stall n)
    t.inFlight = q.inFlight ∧ t.held = q.held ∧ t.cqProd = q.cqProd ∧ t.cqAcked = q.cqAcked ∧ t.cqAgain = q.cqAgain
      ∧ t.tapMismatches = q.tapMismatches ∧ (q.state = .quiescing → q.inFlight = 0 → t.state = .quiesced) := by
  let u := modStall n (ackStall j.cqIndex j.result.status) { b with jobs := b.jobs.set i none }
  have hacc : account ((tryIssue n (haltOrCount n j u)).stall n) = account (ackStall j.cqIndex j.result.status (b.stall n)) :=
    (tryIssue_account n n _).trans ((haltOrCount_account n n u j).trans (congrArg account (modStall_stall_self _ _ _)))
  have ht : complete n i j b = quiesceDone n (tryIssue n (haltOrCount n j u)) := rfl
  rw [ht, quiesceDone_stall]
  generalize (tryIssue n (haltOrCount n j u)).stall n = w at hacc
  simp only [account, Prod.mk.injEq, decide_eq_decide] at hacc
  obtain ⟨hf, hh, hp, ha, hg, hm, hs⟩ := hacc
  dsimp only
  refine ⟨?_, ?_, ?_, ?_, ?_, ?_, fun hq hz => ?_⟩
  · split <;> exact hf
  · split <;> exact hh
  · split <;> exact hp
  · split <;> exact ha
  · split <;> exact hg
  · split <;> exact hm
  · rw [if_pos ⟨hs.2 hq, hf.trans hz⟩]

theorem complete_job (n i : Nat) (j : Job) (b : Block) : (complete n i j b).job i = none := by
  refine (job_of_jobs (modStall_jobs _ _ _) i).trans (tryIssue_job_none ?_)
  rw [job_of_jobs (haltOrCount_jobs _ _ _)]
  exact Tab.get_set_self _ _ _

/-! ## COMPLETION_WRITE_ACK and CQ_WRITE_RETRY -/

/-- The stall's note of an answered entry: an errored one waits for its retry, before the others when it had been retried. -/
def entryAnswered (x : Idx) (data : Bytes) (now : Nat) (err : Bool) (q : Stall) : Stall :=
  { q with
    cqAgain := if q.cqAgain = some x then none else q.cqAgain
    cqRetry := if !err then q.cqRetry else if q.cqAgain = some x then (x, data, now) :: q.cqRetry else q.cqRetry ++ [(x, data, now)] }

theorem entryAnswered_error (x : Idx) (data : Bytes) (now : Nat) (q : Stall) : entryAnswered x data now true q =
    if q.cqAgain = some x then { q with cqAgain := none, cqRetry := (x, data, now) :: q.cqRetry }
    else { q with cqRetry := q.cqRetry ++ [(x, data, now)] } := by
  by_cases h : q.cqAgain = some x <;> simp [entryAnswered, h]

theorem jobsOf_congr {b t : Block} (h : t.jobs = b.jobs) (n : Nat) : jobsOf t n = jobsOf b n := by
  simp only [jobsOf, Block.live, h]

section
variable {b : Block} {tag : Nat} {f : Flight} {n : StallId} {x : Idx} (hf : flightOf b .rp tag = some f) (ho : f.req.owner = .completion n x)
include hf ho

/-- The block in which the entry's tag is retired and its answer noted. -/
abbrev entryNoted (b : Block) (tag : Nat) (f : Flight) (n : StallId) (x : Idx) (err : Bool) : Block :=
  modStall n.val (entryAnswered x f.req.data b.now err) (retire .rp tag b)

theorem completionAck_eq (err : Bool) : completionAck tag err b =
    if err then entryNoted b tag f n x err
    else match (jobsOf b n.val).find? fun e => e.2.stage == .issued && e.2.cqIndex == x with
      | none => entryNoted b tag f n x err
      | some (i, j) => complete n.val i j (entryNoted b tag f n x err) := by
  have hstall : (retire .rp tag b).stall n.val = b.stall n.val := by
    rw [Block.stall, stalls_of_still (retire_still _ _ _)]
    rfl
  have hnow : (retire .rp tag b).now = b.now := by rw [← still_now, retire_still, still_now]
  have hnote : ∀ e : Bool, modStall n.val (fun s => { s with
      cqAgain := if ((retire .rp tag b).stall n.val).cqAgain == some x then none else s.cqAgain
      cqRetry := if !e then s.cqRetry else if ((retire .rp tag b).stall n.val).cqAgain == some x then (x, f.req.data, b.now) :: s.cqRetry
        else s.cqRetry ++ [(x, f.req.data, b.now)] }) (retire .rp tag b) = entryNoted b tag f n x e := by
    intro e
    refine modStall_congr ?_
    simp only [entryAnswered, hstall, beq_iff_eq]
  have hjobs : jobsOf (entryNoted b tag f n x err) n.val = jobsOf b n.val := jobsOf_congr (retire_jobs _ _ _) _
  simp only [completionAck, hf, ho]
  rw [hnote err, hjobs] <;> rfl

end

theorem entryNoted_stall (b : Block) (tag : Nat) (f : Flight) (n : StallId) (x : Idx) (err : Bool) : (entryNoted b tag f n x err).stall n.val = entryAnswered x f.req.data b.now err (b.stall n.val) := by
  rw [modStall_stall_self, Block.stall, stalls_of_still (retire_still _ _ _)]
  rfl

theorem ackArrives_runs {b : Block} (h : holding b 0 = false) (tag : Nat) (err : Bool) : ackArrives tag err b = completionAck tag err b := by
  simp [ackArrives, h]

theorem ackArrives_held {b : Block} {tag : Nat} {f : Flight} {n : StallId} {x : Idx} (h : holding b 0 = true) (hf : flightOf b .rp tag = some f)
    (ho : f.req.owner = .completion n x) (hnew : ∀ e ∈ b.rpFifo, e.1 ≠ tag) (err : Bool) :
    ackArrives tag err b = { b with rpFifo := b.rpFifo ++ [(tag, err)] } := by
  have hno : b.rpFifo.any (fun a => a.1 == tag) = false := by
    rw [List.any_eq_false]
    exact fun e he => by simpa using hnew e he
  simp [ackArrives, h, hf, ho, hno]

theorem cqRetry_offers {b : Block} {n : Nat} {x : Idx} {data : Bytes} {t0 : Nat} {l : List (Idx × Bytes × Nat)}
    (hq : (b.stall n).cqRetry = (x, data, t0) :: l) (ha : (b.stall n).cqAgain = none) :
    cqRetry n b = offerEntry n x data (modStall n (fun q => { q with cqRetry := l, cqAgain := some x, cqRetries := satAdd 32 q.cqRetries 1 })
      { b with now := max b.now (t0 + 1) }) := by
  simp only [cqRetry, hq, ha, Option.isNone_none, when_true]

/-- Settles O37: the entry is noted, then completed; a retry is offered at the entry's own place. -/
theorem acknowledgedEntriesComplete : Obligations.AcknowledgedEntriesComplete := by
  refine ⟨?_, ?_, ?_⟩
  · intro s tag err f n x
    dsimp only
    exact fun hr hh hf ho hnew => updReady_gives hr (ackArrives_held hh hf ho hnew err)
  · intro s tag err f n x
    dsimp only
    intro hr hh hf ho
    have hgive : ∀ {t : Block}, completionAck tag err s.blk = t → Gives (.completionWriteAck tag err) s t :=
      fun h => updReady_gives hr ((ackArrives_runs hh _ _).trans h)
    refine ⟨fun he => ?_, fun i j he hfind => ?_⟩
    · subst he
      refine ⟨_, hgive (completionAck_eq hf ho true), ?_⟩
      have hstill : (entryNoted s.blk tag f n x true).still = (modStall n.val (entryAnswered x f.req.data s.blk.now true) s.blk).still :=
        congrArg (modStall n.val (entryAnswered x f.req.data s.blk.now true)) (retire_still .rp tag s.blk)
      refine hstill.trans (congrArg Block.still (modStall_congr ?_))
      exact entryAnswered_error _ _ _ _
    · subst he
      have hq := entryNoted_stall s.blk tag f n x false
      obtain ⟨hi, hheld, hprod, hacked, hagain, htap, hquiet⟩ := complete_stall n.val i j (entryNoted s.blk tag f n x false)
      have hidx : j.cqIndex = x := by
        have := List.find?_some hfind
        simp only [Bool.and_eq_true, beq_iff_eq] at this
        exact this.2
      rw [hidx, hq] at hi hheld hprod hacked hagain htap hquiet
      obtain ⟨ki, kagain, ktap, kstate⟩ := ackStall_keeps (x := x) (st := j.result.status) (q := entryAnswered x f.req.data s.blk.now false (s.blk.stall n.val))
      refine ⟨_, hgive ((completionAck_eq hf ho false).trans ?_), complete_job _ _ _ _, hi.trans ki, fun hx ha => ?_, fun hx ha => ?_,
        htap.trans ktap, hagain.trans kagain, fun hqs hone => hquiet (kstate.trans hqs) (ki.trans ?_)⟩
      · rw [hfind]
        rfl
      · obtain ⟨kprod, kheld, kacked⟩ := ackStall_next (st := j.result.status) (q := entryAnswered x f.req.data s.blk.now false (s.blk.stall n.val)) hx ha
        exact ⟨hprod.trans kprod, hheld.trans kheld, hacked.trans kacked⟩
      · obtain ⟨kprod, kheld, kacked⟩ := ackStall_later (st := j.result.status) (q := entryAnswered x f.req.data s.blk.now false (s.blk.stall n.val)) hx ha
        exact ⟨hprod.trans kprod, hheld.trans kheld, hacked ▸ kacked⟩
      · show (s.blk.stall n.val).inFlight - 1 = 0
        omega
  · intro s n x data t0 l
    dsimp only
    intro hr hh
    refine ⟨fun h => updOn_gives hr hh ?_, fun hq ha => ?_⟩
    · rcases h with h | h
      · simp only [cqRetry, h]
      · unfold cqRetry
        split
        · rfl
        · rw [Option.isNone_eq_false_iff.2 (Option.ne_none_iff_isSome.1 h)]
          rfl
    · refine ⟨_, updOn_gives hr hh (cqRetry_offers hq ha), ?_, ?_, ?_, ?_, ?_⟩
      · simp [offerEntry]
      · simp [offerEntry, Block.stall]
      · simp [offerEntry, Block.stall]
      · simp [offerEntry, Block.stall]
      · refine offer_offered ?_
        simp [stallIdent, Block.stall]

end Sys2Proof.Machine
end


section
/-!
SUPPORT. Accesses of the management ports, and the notices and ends of commands (R376 to R398, R539).
-/

namespace Sys2Proof.Machine

open Sys2Proof

/-! ## A request on a management port -/

section
variable {s : State} {b : Block} {c : Instr} {x : Sender} {n : Nat} {f : Block → Block}

theorem mpRequest_starved (h : mpCredits b x.port = 0) : mpRequest n x c f b = b := by simp [mpRequest, h]

theorem mpRequest_waits (hc : mpCredits b x.port ≠ 0) (hh : holding b 22 = true) :
    mpRequest n x c f b = { setCredits x.port (mpCredits b x.port - n) b with mpFifo := b.mpFifo ++ [c] } := by
  simp [mpRequest, hc, hh]

theorem mpRequest_handled (hc : mpCredits b x.port ≠ 0) (hh : holding b 22 = false) : mpRequest n x c f b = f b := by
  simp [mpRequest, hc, hh]

/-- A command that takes one request, which the port's islands handle as `handleMp` says. -/
theorem access_gives (he : exec c s = upd s (mpRequest n x c f)) (hf : handleMp c s.blk = f s.blk) :
    let b := s.blk
    (mpCredits b x.port = 0 → Gives c s b)
    ∧ (mpCredits b x.port ≠ 0 → holding b 22 = true →
        Gives c s { setCredits x.port (mpCredits b x.port - n) b with mpFifo := b.mpFifo ++ [c] })
    ∧ (n = 1 → mpCredits b x.port ≠ 0 → holding b 22 = false → Gives c s (handleMp c b)) :=
  ⟨fun h => he.trans (upd_gives (mpRequest_starved h)), fun h hh => he.trans (upd_gives (mpRequest_waits h hh)),
    fun _ h hh => he.trans (upd_gives ((mpRequest_handled h hh).trans hf.symm))⟩

/-- A window write of one entry, which takes more than one request. -/
theorem entry_gives {how : Burn} {i sub : Nat} {d : Bytes} (he : exec c s = writeEntry how x c i sub d s) (hn : n = 2 + (d.length + 3) / 4) :
    let b := s.blk
    (mpCredits b x.port = 0 → Gives c s b)
    ∧ (mpCredits b x.port ≠ 0 → holding b 22 = true →
        Gives c s { setCredits x.port (mpCredits b x.port - n) b with mpFifo := b.mpFifo ++ [c] })
    ∧ (n = 1 → mpCredits b x.port ≠ 0 → holding b 22 = false → Gives c s (handleMp c b)) := by
  subst hn
  refine ⟨fun h => ?_, fun h hh => ?_, fun h => ?_⟩
  · refine he.trans ?_
    simp only [writeEntry, mpRequest_starved h, h, bne_self_eq_false, Bool.and_false, Bool.false_and, Bool.false_eq_true, if_false]
  · refine he.trans ?_
    simp only [writeEntry, mpRequest_waits h hh, hh, Bool.not_true, Bool.and_false, Bool.false_eq_true, if_false]
    rfl
  · omega

end

@[simp] theorem answer_pair (p : MPort) (v : BitVec 32) (b : Block) (k : Nat) : (answer p v b).pair k = b.pair k := by
  cases p <;> rfl
@[simp] theorem wake_pair (b : Block) (k : Nat) : (wake b).pair k = b.pair k := rfl
@[simp] theorem wakeYm_pair (b : Block) (k : Nat) : (wakeYm b).pair k = b.pair k := rfl

/-- A second answer on a port replaces the first. -/
theorem postNotice_dropped {p : Nat} {tag : BitVec 32} {x : Sender} {b : Block} (h : boundOut (b.pair p) x = true ∨ (b.pair p).inFull = true) :
    postNotice p tag x b = mboxDropped p (modPair p (fun m => { m with dropped := true }) b) := by
  rw [postNotice]
  exact if_pos (by simpa using h)

theorem postNotice_taken {p : Nat} {tag : BitVec 32} {x : Sender} {b : Block} (h : boundOut (b.pair p) x = false) (hf : (b.pair p).inFull = false) :
    postNotice p tag x b = modPair p (fun m => { m with
      inTag := tag, inSince := b.now, reqId := x.rid, inPort := x.port, inPriv := x.priv, dropped := false, inFull := true }) b := by
  rw [postNotice]
  exact if_neg (by simp [h, hf])

/-! ## What the three mailbox accesses do -/

section
variable {p : MboxId} {x : Sender} {whole : Bool} {b : Block}

theorem inTagAccess_shut {tag : BitVec 32} (h : (windowsOpen b && whole) = false) : inTagAccess p tag x whole b = mpWrite x b := by
  rw [inTagAccess, h]; rfl
theorem inTagAccess_open {tag : BitVec 32} (h : (windowsOpen b && whole) = true) :
    inTagAccess p tag x whole b = postNotice p.val tag x (wakeYm (mpWrite x b)) := by
  rw [inTagAccess, h]; rfl
theorem outTagAccess_shut (h : (windowsOpen b && whole) = false) : outTagAccess p x whole b = answer x.port 0 (wake b) := by
  rw [outTagAccess, h]; rfl
theorem outTagAccess_open (h : (windowsOpen b && whole) = true) : outTagAccess p x whole b = readOutTag p.val x (wake b) := by
  rw [outTagAccess, h]; rfl
theorem pairResetAccess_shut (h : (windowsOpen b && whole) = false) : pairResetAccess p x whole b = mpWrite x b := by
  rw [pairResetAccess, h]; rfl
theorem pairResetAccess_open (h : (windowsOpen b && whole) = true) : pairResetAccess p x whole b = pairResetBy p.val x (mpWrite x b) := by
  rw [pairResetAccess, h]; rfl

end

/-! ## Ends of commands -/

section
variable {b : Block} {id : Nat} {c : Cmd}

theorem writeHeader_eq (h : b.cmd id = some c) : writeHeader id b =
    dateSession c (ymWrite (.header id) c.resAddr (resultHeader b c) (modCmd id (fun c => { c with phase := 5 }) b)) := by
  rw [writeHeader, h]

theorem writeResult_header (h : b.cmd id = some c) (hp : c.payload = []) : writeResult id b = writeHeader id b := by
  rw [writeResult, h]
  exact if_pos (by simp [hp])

theorem writeResult_payload (h : b.cmd id = some c) (hp : c.payload ≠ []) : writeResult id b =
    ymWrite (.payload id) (c.resAddr + 16) c.payload (modCmd id (fun c => { c with phase := 4 }) b) := by
  rw [writeResult, h]
  exact if_neg (by simp [hp])

theorem ymWrite_cmd (o : Owner) (a : Addr) (d : Bytes) (b : Block) (k : Nat) : (ymWrite o a d b).cmd k = b.cmd k := by
  simp only [ymWrite, Block.cmd, offer_ym]

/-- Of a request that Nartia offers, only the traffic of `dp0_` tells. -/
theorem aside_of_still {b t : Block} {g : Ym → Ym} (h1 : t.dp1 = b.dp1) (h2 : t.rp = b.rp) (h : t.still = (modYm g b).still)
    (hg : ∀ y, ({ g y with cmds := [] } : Ym) = { y with cmds := [] }) : t.aside = b.aside := by
  have e : t.aside = { t.still with dp1 := t.dp1, rp := t.rp, ym := { t.still.ym with cmds := [] } } := rfl
  rw [e, h, h1, h2]
  show ({ b.aside with ym := { g b.ym with cmds := [] } } : Block) = b.aside
  rw [hg]
  rfl

theorem ymWrite_aside (o : Owner) (a : Addr) (d : Bytes) (b : Block) : (ymWrite o a d b).aside = b.aside :=
  aside_of_still (g := fun y => y) (offer_port_ne (p := .dp0) (q := .dp1) (by decide) _ _)
    (offer_port_ne (p := .dp0) (q := .rp) (by decide) _ _) (offer_still _ _ _) fun _ => rfl

theorem dateSession_aside (c : Cmd) (b : Block) : (dateSession c b).aside = dateSession c b.aside := by
  unfold dateSession
  show _ = when ((c.op == 0x0404 || c.op == 0x0405) && c.result == rcOk && b.ym.gate.undated) _ _
  cases (c.op == 0x0404 || c.op == 0x0405) && c.result == rcOk && b.ym.gate.undated <;> rfl

theorem dateSession_on (h : c.result = rcOk ∧ (c.op = 0x0404 ∨ c.op = 0x0405) ∧ b.ym.gate.undated = true) : dateSession c b =
    modGate (fun g => { g with undated := false, session := g.session.map fun x => (x.1, x.2.1, b.now + c.par 4 4 * 1000000) }) b := by
  have e : ((c.op == 0x0404 || c.op == 0x0405) && c.result == rcOk && b.ym.gate.undated) = true := by
    simpa [h.1, h.2.2] using h.2.1
  rw [dateSession, e]
  rfl

theorem dateSession_off (h : ¬ (c.result = rcOk ∧ (c.op = 0x0404 ∨ c.op = 0x0405) ∧ b.ym.gate.undated = true)) : dateSession c b = b := by
  have e : ((c.op == 0x0404 || c.op == 0x0405) && c.result == rcOk && b.ym.gate.undated) = false := by
    refine Bool.eq_false_iff.2 fun e => h ?_
    simp only [Bool.and_eq_true, Bool.or_eq_true, beq_iff_eq] at e
    exact ⟨e.1.2, e.1.1, e.2⟩
  rw [dateSession, e]
  rfl

theorem dateSession_cmd (c : Cmd) (b : Block) (k : Nat) : (dateSession c b).cmd k = b.cmd k := by
  rw [dateSession]
  exact when_keeps (f := modGate _) (g := fun b => b.cmd k) (fun _ => rfl) _ _

end

/-! ## Notices -/

theorem modPair_congr {p : Nat} {f g : Mbox → Mbox} {b : Block} (h : f (b.pair p) = g (b.pair p)) : modPair p f b = modPair p g b :=
  congrArg (fun t => modYm (fun y => { y with pairs := t }) b) (Tab.mod_congr h)

section
variable {p : Nat} {b : Block}

theorem receive_waits (h : (b.pair p).inFull = false ∨ 4 ≤ (pairCmds b p).length + (b.pair p).queue.length) : receive p b = b :=
  if_pos (by simpa using h)

theorem receive_taken (h : (b.pair p).inFull = true) (hn : (pairCmds b p).length + (b.pair p).queue.length < 4) :
    receive p b =
      if (b.pair p).inPtr.toNat % 64 != 0 then
        queueNotice p b.ym.nextCmd (b.pair p).inPtr (b.pair p).inTag 2 (modYm (fun y => { y with nextCmd := b.ym.nextCmd + 1 })
          (modPair p (fun m => { m with inFull := false }) b))
      else
        ymRead (.sheet b.ym.nextCmd) (b.pair p).inPtr 0 64 (modYm (fun y => { y with
          nextCmd := b.ym.nextCmd + 1
          cmds := y.cmds ++ [(b.ym.nextCmd, {
            pair := Fin.ofNat 8 p, tag := (b.pair p).inTag, sheetAddr := (b.pair p).inPtr, since := (b.pair p).inSince
            sender := { rid := (b.pair p).reqId, priv := (b.pair p).inPriv, port := (b.pair p).inPort }, sheet := { want := 64 } })] })
          (modPair p (fun m => { m with inFull := false }) b)) :=
  if_neg (by simp [h, hn])

theorem postOut_full (h : (b.pair p).outFull = true) : postOut p b = b := by
  rw [postOut]
  split
  · rfl
  · rw [h]; rfl

theorem postOut_posts {id k : Nat} {a : Addr} {t : BitVec 32} {l : List (Nat × Addr × BitVec 32 × Nat)}
    (hq : (b.pair p).queue = (id, a, t, k) :: l) (hf : (b.pair p).outFull = false) (hs : (b.pair p).stale = false) :
    postOut p b = forgetUnwritten (fun e => e.1 == id) (modPair p (fun m => { m with
      queue := l, outPtr := a, outTag := t, note := k, outFull := true, outSince := b.now }) b) := by
  rw [postOut, hq]
  dsimp only
  rw [hf, hs]
  rfl

theorem unresponsive_free (h : (b.pair p).outFull = false) : unresponsive p b = b := by
  unfold unresponsive; dsimp only
  rw [h]; rfl

theorem unresponsive_full (h : (b.pair p).outFull = true) (hs : (b.pair p).stale = false) :
    unresponsive p b = withEvent evHostUnresponsive (toLe 1 p) (forgetUnwritten (fun e => e.2.pair.val == p)
      (modPair p (fun m => { m with stale := true, queue := [] }) { b with now := max b.now ((b.pair p).outSince + 10000) })) := by
  unfold unresponsive; dsimp only
  rw [h, hs]; rfl

end

/-! ## The checks of a command -/

section
variable {b : Block} {id : Nat} {c : Cmd} {k : Checks} {body : Cmd → Block → Block}

theorem startCmd_fails {r : Nat × Nat × Nat} (h : checksBefore b c k = some r) : startCmd id c k body b = failCheck id r b := by
  rw [startCmd, h]

theorem startCmd_held (h : checksBefore b c k = none) (hw : k.writes = true) (hh : anyHold b = true) : startCmd id c k body b =
    if k.waits then modCmd id (fun c => { c with waitSince := some (c.waitSince.getD b.now) }) b else failCmd id rcSupplyHeld 0 b := by
  rw [startCmd, h]
  exact if_pos (by simp [hw, hh])

theorem startCmd_late {r : Nat × Nat × Nat} (h : checksBefore b c k = none) (hw : (k.writes && anyHold b) = false)
    (hr : checksAfter b k = some r) : startCmd id c k body b = failCheck id r b := by
  rw [startCmd, h, hr]
  exact if_neg (by rw [hw]; decide)

theorem checksBefore_right {r : Nat} (h : rightFails b c.sender k.right = some r) : checksBefore b c k = some (r, 0, 0) := by
  rw [checksBefore, h]

theorem checksBefore_space (h : rightFails b c.sender k.right = none) (hl : c.resLen < 16 + k.pay) :
    checksBefore b c k = some (rcResultSpace, 0, k.pay) := by
  rw [checksBefore, h]
  exact if_pos hl

theorem checksBefore_rest (h : rightFails b c.sender k.right = none) (hl : 16 + k.pay ≤ c.resLen) : checksBefore b c k =
    match k.bad with
    | some o => some (rcBadParameter, o, 0)
    | none => if k.seals then some (rcSealed, 0, 0) else none := by
  rw [checksBefore, h]
  exact if_neg (Nat.not_lt.2 hl)

theorem rightFails_unprivileged {x : Sender} {r : Right} (h : r ≠ .any) (hp : x.priv = false) : rightFails b x r = some rcNotPrivileged := by
  cases r with
  | any => exact absurd rfl h
  | manager => rw [rightFails, hp]; rfl
  | gate g => rw [rightFails, hp]; rfl

theorem rightFails_gate {x : Sender} {g : Nat} (hp : x.priv = true) (hg : gatePasses b x g = false) : rightFails b x (.gate g) = some rcGateRequired := by
  rw [rightFails, hp, hg]; rfl

/-- A command whose sheet is read, of this row, starts when it may run. -/
theorem runCmd_starts {is : Cmd → Bool} {checks : Block → Cmd → Checks} {body : Nat → Cmd → Block → Block}
    (hc : b.cmd id = some c) (his : is c = true) (ha : c.aborted = false) (hph : c.phase = 2) :
    runCmd is checks body id b = if mayRun b id c then startCmd id c (checks b c) (body id) b else b := by
  rw [runCmd, hc]
  cases hm : mayRun b id c <;> simp [his, ha, hph, hm]

/-- What ends a command that has waited 50 ms. -/
theorem waitExpired_held {t : Nat} (hc : b.cmd id = some c) (hw : c.waitSince = some t)
    (h : c.phase = 2 ∨ (c.phase = 3 ∧ c.op ∈ [0x0202, 0x0205, 0x0206])) (hh : anyHold b = true) :
    waitExpired id b = failCmd id rcSupplyHeld 0 { b with now := max b.now (t + 50000) } := by
  rw [waitExpired, hc]; dsimp only
  rw [hw]; dsimp only
  refine (if_pos ?_).trans ?_
  · obtain h | ⟨-, h⟩ := h
    · simp [h]
    · obtain h | h | h : c.op = 0x0202 ∨ c.op = 0x0205 ∨ c.op = 0x0206 := by simpa using h
      all_goals simp [h]
  · rw [hh]
    obtain h | ⟨h, -⟩ := h <;> simp [h]

theorem waitExpired_burn {t : Nat} (hc : b.cmd id = some c) (hw : c.waitSince = some t) (hp : c.phase = 3) (hz : b.boot.vfz = false)
    (ho : c.op ≠ 0x0202 ∧ c.op ≠ 0x0205 ∧ c.op ≠ 0x0206) :
    waitExpired id b = (if c.op == 0x0402 then failCmd id rcForgeFailed 0 else if c.op == 0x0401 then failCmd id rcCheckFailed 6
      else failCmd id rcFuseFailed 0) { b with now := max b.now (t + 50000) } := by
  obtain ⟨h1, h2, h3⟩ := ho
  rw [waitExpired, hc]; dsimp only
  rw [hw]; dsimp only
  refine (if_neg (by simp [hp, h1, h2, h3])).trans ?_
  rw [hp, hz]
  rfl

end

/-! ## The statements -/

/-- Settles O40: each access is one request of its port, and what it does is the access function at the end of step 4 or before it. -/
theorem mailboxRegisterAccesses : Obligations.MailboxRegisterAccesses := by
  refine ⟨fun s c x n h => ?_, fun s p tag x whole => ?_⟩
  · obtain ⟨rfl, h⟩ | ⟨rfl, h⟩ | ⟨i, sub, d, how, rfl, hz, hn⟩ := h
    · obtain ⟨p, tag, whole, rfl⟩ | ⟨p, whole, rfl⟩ | ⟨p, whole, rfl⟩ | ⟨v, whole, rfl⟩ | ⟨v, whole, rfl⟩ | ⟨l, whole, rfl⟩
        | ⟨l, v, whole, rfl⟩ | ⟨off, v, whole, rfl⟩ := h <;> exact access_gives rfl rfl
    · obtain ⟨v, rfl⟩ | ⟨v, rfl⟩ | ⟨k, how, rfl⟩ := h
      · exact entry_gives rfl (by simp)
      · exact entry_gives rfl (by simp)
      · exact entry_gives rfl (by simp)
    · exact entry_gives (if_pos hz) hn
  · intro b hc hh m drop put w
    have gives : ∀ {c : Instr} {f : Block → Block} {t : Block}, exec c s = upd s (mpRequest 1 x c f) → f b = t → Gives c s t :=
      fun he hf => he.trans (upd_gives ((mpRequest_handled hc hh).trans hf))
    refine ⟨fun hw => ?_, fun hw => ⟨fun hb hf => ?_, fun hb => ?_, fun hb => ?_, fun hb => ?_, fun hb => ?_⟩⟩
    · exact ⟨gives rfl (inTagAccess_shut hw), gives rfl (outTagAccess_shut hw), gives rfl (pairResetAccess_shut hw)⟩
    · exact gives rfl ((inTagAccess_open hw).trans (postNotice_taken (by simpa [mpWrite] using hb) (by simpa [mpWrite] using hf)))
    · exact gives rfl ((inTagAccess_open hw).trans (postNotice_dropped (by simpa [mpWrite] using hb)))
    · refine ⟨gives rfl ((outTagAccess_open hw).trans ?_), gives rfl ((pairResetAccess_open hw).trans ?_)⟩
      · rw [readOutTag, wake_pair]; exact if_pos hb
      · rw [pairResetBy, mpWrite, answer_pair, wake_pair]; exact if_pos hb
    · refine gives rfl ((outTagAccess_open hw).trans ?_)
      rw [readOutTag, wake_pair]
      exact if_neg (by rw [hb]; decide)
    · refine gives rfl ((pairResetAccess_open hw).trans ?_)
      rw [pairResetBy, mpWrite, answer_pair, wake_pair]
      exact if_neg (by rw [hb]; decide)

/-- Settles O41: by the branches of `receive`, `postOut` and `unresponsive`. -/
theorem noticesAreTakenAndPosted : Obligations.NoticesAreTakenAndPosted := by
  intro s p b m hr hh
  refine ⟨fun hg hf hn => ⟨fun ha => ?_, fun ha => ?_⟩, fun h => ?_, fun id a t k l hq hf hs => updOn_gives hr hh (postOut_posts hq hf hs),
    fun hf => updOn_gives hr hh (postOut_full hf), fun hf hs => updOn_gives hr hh (unresponsive_full hf hs),
    fun hf => updOn_gives hr hh (unresponsive_free hf)⟩
  · refine updOn_gives hr hh ?_
    rw [show s.blk.ym.gated = false from hg]
    exact (receive_taken hf hn).trans (if_pos (by simpa using ha))
  · refine updOn_sends hr hh rfl ?_
    rw [show s.blk.ym.gated = false from hg]
    exact (receive_taken hf hn).trans (if_neg (by simpa using ha))
  · refine updOn_gives hr hh ?_
    cases s.blk.ym.gated
    · exact receive_waits h
    · rfl

/-- Settles O42: the header, or the payload that goes before it, is the one request; the dating of the session is the one further change. -/
theorem endedCommandsReport : Obligations.EndedCommandsReport := by
  intro b id c r d pay hc t head
  let c1 : Cmd := { c with result := r, detail := d, payload := pay, rlen := pay.length, keep := [], input := {} }
  let b1 := modCmd id (fun c => { c with result := r, detail := d, payload := pay, rlen := pay.length, keep := [], input := {} }) b
  have hc1 : b1.cmd id = some c1 := by rw [modCmd_cmd_self, hc]; rfl
  have hk1 : ∀ k, k ≠ id → b1.cmd k = b.cmd k := fun k hk => modCmd_cmd_ne hk _ _
  have ht : t = writeResult id b1 := rfl
  refine ⟨?_, fun k hk => ?_, ?_, fun hp q hq => ?_, fun hp q hq => ?_, fun ha hs hst => ?_, fun ha hs => ?_⟩
  · by_cases hp : pay = []
    · rw [ht, writeResult_header hc1 hp, writeHeader_eq hc1]
      rw [dateSession_aside, ymWrite_aside]
      show dateSession c1 b.aside = _
      by_cases hu : r = rcOk ∧ (c.op = 0x0404 ∨ c.op = 0x0405) ∧ b.ym.gate.undated = true
      · rw [if_pos ⟨hp, hu⟩, dateSession_on hu]
        rfl
      · rw [if_neg (fun h => hu h.2), dateSession_off hu]
    · rw [if_neg (fun h => hp h.1), ht, writeResult_payload hc1 hp, ymWrite_aside]
      rfl
  · by_cases hp : pay = []
    · rw [ht, writeResult_header hc1 hp, writeHeader_eq hc1, dateSession_cmd, ymWrite_cmd, modCmd_cmd_ne hk, hk1 k hk]
    · rw [ht, writeResult_payload hc1 hp, ymWrite_cmd, modCmd_cmd_ne hk, hk1 k hk]
  · by_cases hp : pay = []
    · rw [ht, writeResult_header hc1 hp, writeHeader_eq hc1, dateSession_cmd, ymWrite_cmd, modCmd_cmd_self, hc1, if_pos hp]
      exact ⟨_, rfl, rfl, rfl, rfl, rfl, rfl, rfl, rfl⟩
    · rw [ht, writeResult_payload hc1 hp, ymWrite_cmd, modCmd_cmd_self, hc1, if_neg hp]
      exact ⟨_, rfl, rfl, rfl, rfl, rfl, rfl, rfl, rfl⟩
  · rw [ht, writeResult_payload hc1 hp]
    exact offer_offered hq
  · rw [ht, writeResult_header hc1 hp, writeHeader_eq hc1]
    subst hp
    exact when_keeps (f := modGate _) (g := fun b => Offered b .dp0 q) (fun _ => rfl) _ _ |>.mpr (offer_offered hq)
  · rw [headerDone, hc]; dsimp only
    rw [ha, endNotice, hc]; dsimp only
    rw [hs]
    exact congrArg (dropCmd id) (modPair_congr (if_neg fun h => Bool.noConfusion (hst.symm.trans h)))
  · rw [headerDone, hc]; dsimp only
    rw [ha, endNotice, hc]; dsimp only
    rw [hs]
    rfl

/-- Settles O43: by the branches of `startCmd`, in their order, and of `waitExpired`. -/
theorem refusedCommandsOnlyReport : Obligations.RefusedCommandsOnlyReport := by
  refine ⟨fun b id c is checks body hc his ha hph => ?_, fun s id c => ?_⟩
  · intro k run
    have hrun : run = if mayRun b id c then startCmd id c k (body id) b else b := runCmd_starts hc his ha hph
    refine ⟨fun hm => by rw [hrun, hm]; rfl, fun hm => ?_⟩
    rw [hm, if_pos rfl] at hrun
    refine ⟨fun hr hp => ?_, fun g hg hp hgp => ?_, fun hr => ⟨fun hl => ?_, fun hl => ?_⟩⟩
    · exact hrun.trans (startCmd_fails (checksBefore_right (rightFails_unprivileged hr hp)))
    · exact hrun.trans (startCmd_fails (checksBefore_right (by rw [hg]; exact rightFails_gate hp hgp)))
    · exact hrun.trans (startCmd_fails (checksBefore_space hr hl))
    · have hbef := checksBefore_rest hr hl
      refine ⟨fun o ho => ?_, fun hb hs => ?_, fun hb hs hw hh hwt => ?_, fun hb hs hw hh hwt => ?_, fun hb hs hwh => ⟨fun d hd => ?_, fun hst hpr hrd => ?_⟩⟩
      · exact hrun.trans (startCmd_fails (hbef.trans (by rw [ho])))
      · exact hrun.trans (startCmd_fails (hbef.trans (by rw [hb, hs]; rfl)))
      all_goals replace hbef : checksBefore b c k = none := hbef.trans (by rw [hb, hs]; rfl)
      · exact hrun.trans ((startCmd_held hbef hw hh).trans (by rw [hwt]; rfl))
      · exact hrun.trans ((startCmd_held hbef hw hh).trans (by rw [hwt]; rfl))
      · exact hrun.trans (startCmd_late hbef hwh (by rw [checksAfter, hd]))
      · exact hrun.trans (startCmd_late hbef hwh (r := (rcNoProgram, 0, 0)) (by rw [checksAfter, hst, hpr, hrd]; rfl))
  · intro b hr hc
    refine ⟨fun hw => updReady_gives hr ?_, fun t0 hw => ?_⟩
    · rw [waitExpired, show s.blk.cmd id = some c from hc]; dsimp only
      rw [hw]
    intro late
    refine ⟨fun hp hh => updReady_gives hr (waitExpired_held hc hw hp hh), fun hp hz ho => updReady_gives hr ?_,
      fun hp hz ho => updReady_gives hr ?_, fun hp hz ho => updReady_gives hr ?_⟩
    all_goals
      refine (waitExpired_burn hc hw hp hz (by rw [ho]; decide)).trans ?_
      rw [ho]
      rfl

end Sys2Proof.Machine
end


section
/-!
SUPPORT. The stall commands (R29 to R40, R140 to R142, R399).
-/

namespace Sys2Proof.Machine

open Sys2Proof

/-! ## What the checks of the tack room leave of the stall keys -/

section
variable (i : Nat) (b : Block)

theorem sysFailed_keys : (sysFailed false i b).tack.stallKeys = b.tack.stallKeys := by
  unfold sysFailed
  dsimp only
  split
  · rfl
  · split
    · rfl
    · rw [if_neg (by decide)]
      split
      · cases i == 2 <;> rfl
      · rfl

theorem redrawState_keys : (redrawState b).tack.stallKeys = b.tack.stallKeys := by
  unfold redrawState
  split
  · split <;> rfl
  · rfl

theorem checkSys_keys : (checkSys i b).tack.stallKeys = b.tack.stallKeys := by
  have h : (if i == 2 then redrawState b else b).tack.stallKeys = b.tack.stallKeys := by
    cases i == 2
    · rfl
    · exact redrawState_keys b
  unfold checkSys
  dsimp only
  generalize (if i == 2 then redrawState b else b) = t at h
  split
  · exact h
  · exact (sysFailed_keys i _).trans h

end

theorem sk_of_keys {b t : Block} (h : t.tack.stallKeys = b.tack.stallKeys) (m : Nat) : t.sk m = b.sk m := by
  rw [Block.sk, h]; rfl

/-! ## What leaving channels changes -/

theorem releaseChutes_tack (m : Nat) (b : Block) : (releaseChutes m b).tack = b.tack := by
  unfold releaseChutes
  cases moverIn (b.mover m).desc <;> cases moverOut (b.mover m).desc <;> dsimp only <;> repeat' split
  all_goals rfl

theorem disableMover_tack (m : Nat) (b : Block) : (disableMover m b).tack = b.tack := by
  simp only [disableMover, dropMover, modMover_tack, freed_tack, setPort_tack, releaseChutes_tack]

theorem dropChannels_tack (n : Nat) (b : Block) : (dropChannels n b).tack = b.tack :=
  each_keeps (g := fun b => b.tack) (fun m _ => (when_keeps (f := modMover m _) (g := fun b => b.tack) (fun _ => rfl) _ _).trans
    (when_keeps (f := disableMover m) (g := fun b => b.tack) (disableMover_tack m) _ _)) _ _

theorem skMarkBad_tenancy (n m : Nat) (b : Block) : ((skMarkBad n b).sk m).tenancyGen = (b.sk m).tenancyGen := by
  unfold skMarkBad
  refine when_keeps (f := modSk n _) (g := fun b => (b.sk m).tenancyGen) (fun b => ?_) _ b
  by_cases hm : m = n
  · subst hm
    rw [modSk_sk_self]
  · exact congrArg StallKey.tenancyGen (Tab.get_mod_ne _ _ hm)

/-! ## The stall a command names -/

section
variable {b : Block} {id n : Nat}

theorem destroyStall_tenancy : ((destroyStall n b).sk n).tenancyGen = (b.sk n).tenancyGen + 1 := by
  have h0 : (checkSys 0 (dropChannels n (dropReqs (cacheReq n) b))).sk n = b.sk n :=
    sk_of_keys ((checkSys_keys 0 _).trans (congrArg Tack.stallKeys (dropChannels_tack n _))) n
  unfold destroyStall
  generalize checkSys 0 (dropChannels n (dropReqs (cacheReq n) b)) = b0 at h0
  dsimp only
  show ((skRetag n (modSk n _ _)).sk n).tenancyGen = _
  rw [skRetag, modSk_sk_self]
  dsimp only
  rw [modSk_sk_self]
  dsimp only
  rw [when_keeps (g := fun b => (b.sk n).tenancyGen) (skMarkBad_tenancy n n) _ b0, h0]

theorem createStall_stall : ((createStall n b).stall n).state = .quiesced ∧ ((createStall n b).stall n).pid = none
    ∧ ∀ r, (createStall n b).ring n r = {} := by
  simp only [createStall, refill, Block.ring, modStall_stall_self]
  exact ⟨trivial, rfl, fun _ => rfl⟩

theorem resetStall_ring (r : RingId) : (resetStall n b).ring n r.val = { base := (b.ring n r.val).base, k := (b.ring n r.val).k } := by
  have hq : (dropReqs (cacheReq n) b).stall n = b.stall n := rfl
  rw [resetStall, Block.ring, modStall_stall_self, hq, Stall.ring]
  exact (get_foldl_mod_range resetRing 4 (b.stall n).rings r.val).trans (if_pos r.isLt)

/-- The quiesce of a stall with nothing in flight, or not yet resumed, is done at once. -/
theorem startQuiesce_done (h : (b.stall n).state = .bound ∨ (b.stall n).inFlight = 0) :
    startQuiesce n b = modStall n (fun x => { x with state := .quiesced }) b := by
  rw [startQuiesce, quiesceDone, modStall_modStall]
  refine modStall_congr ?_
  by_cases hb : (b.stall n).state = .bound
  · simp [hb]
  · simp [hb, h.resolve_left hb]

theorem startQuiesce_runs (hb : (b.stall n).state ≠ .bound) (hf : (b.stall n).inFlight ≠ 0) :
    startQuiesce n b = modStall n (fun x => { x with state := .quiescing }) b := by
  rw [startQuiesce, quiesceDone, modStall_modStall]
  refine modStall_congr ?_
  simp [hb, hf]

/-- The body of a quiesce that has not begun, `d` being what it makes of the stall. -/
theorem quiesceBody_waits {hard : Bool} {c : Cmd} {d : Block} (hs : c.step = 0)
    (hd : when (hard && (b.stall (c.par 0 2)).state != .bound) (abortJobs (c.par 0 2)) (startQuiesce (c.par 0 2) b) = d)
    (h : ((cmdStep id 1 d).stall (c.par 0 2)).state ≠ .quiesced) : quiesceBody hard id c b = cmdStep id 1 d := by
  subst hd
  rw [quiesceBody, hs]
  exact congrArg (when · _ _) (by simpa [stallPar] using h : _ = false)

theorem quiesceBody_done {hard : Bool} {c : Cmd} {d : Block} (hs : c.step = 0)
    (hd : when (hard && (b.stall (c.par 0 2)).state != .bound) (abortJobs (c.par 0 2)) (startQuiesce (c.par 0 2) b) = d)
    (h : ((cmdStep id 1 d).stall (c.par 0 2)).state = .quiesced) : quiesceBody hard id c b = okCmd id [] (cmdStep id 1 d) := by
  subst hd
  rw [quiesceBody, hs]
  exact congrArg (when · _ _) (by simpa [stallPar] using h : _ = true)

theorem quiesceBody_ends {hard : Bool} {c : Cmd} (hs : c.step = 1) (h : (b.stall (c.par 0 2)).state = .quiesced) :
    quiesceBody hard id c b = okCmd id [] b := by
  rw [quiesceBody, hs]
  exact congrArg (when · _ _) (by simpa [stallPar] using h : _ = true)

theorem createBody_named {c : Cmd} (h : c.par 0 2 < 512) : createBody id c b = okCmd id (toLe 2 (c.par 0 2)) (createStall (c.par 0 2) b) := by
  rw [createBody]
  exact if_pos h

theorem createBody_lowest {c : Cmd} {m : Nat} (h : 512 ≤ c.par 0 2) (hm : lowestFree b = some m) :
    createBody id c b = okCmd id (toLe 2 m) (createStall m b) := by
  simp only [createBody, stallPar, if_neg (Nat.not_lt.2 h), hm]

theorem createBody_full {c : Cmd} (h : 512 ≤ c.par 0 2) (hm : lowestFree b = none) : createBody id c b = failCmd id rcNoSlot 0 b := by
  simp only [createBody, stallPar, if_neg (Nat.not_lt.2 h), hm]

end

/-- Settles O44: a stall command is its body on the commenced block; the fields of the stall follow from the record it writes. -/
theorem stallCommandsMoveStalls : Obligations.StallCommandsMoveStalls := by
  intro s id c b n g q
  refine ⟨fun ht hp hn => ?_, fun ht hp hn => ⟨fun m hm => ?_, fun hm => ?_⟩, fun ht hp => ⟨fun hb => ?_, fun k hb => ?_⟩, fun ht hp hb => ?_,
    fun ht hp => ?_, fun ht hp => ?_, fun ht hp hs => ⟨fun hm hf hb => ?_, fun hm hb => ?_, fun hm hf hb => ?_⟩,
    fun hg hs hq => ⟨fun hm => ?_, fun hm => ?_⟩, fun m => ?_⟩
  · exact turn_gives ht (by simp [ht.2.2.2.1]) hp rfl (createBody_named hn)
  · exact turn_gives ht (by simp [ht.2.2.2.1]) hp rfl (createBody_lowest hn hm)
  · exact turn_gives ht (by simp [ht.2.2.2.1]) hp rfl (createBody_full hn hm)
  · refine turn_gives ht (by simp [ht.2.2.2.1]) hp rfl ?_
    rw [bindBody, show bindFails ((commenced id s.blk).stall (stallPar c)) = none from hb]
    rfl
  · refine turn_gives ht (by simp [ht.2.2.2.1]) hp rfl ?_
    rw [bindBody, show bindFails ((commenced id s.blk).stall (stallPar c)) = some k from hb]
  · refine turn_gives ht (by simp [ht.2.2.2.1]) hp rfl ?_
    rw [resumeBody]
    have hn : (if ((commenced id s.blk).stall (stallPar c)).state == .quiesced then bindFails ((commenced id s.blk).stall (stallPar c)) else none)
        = none := by
      split
      · rename_i h
        exact hb (eq_of_beq h)
      · rfl
    dsimp only
    rw [hn]
    rfl
  · exact turn_gives ht (by simp [ht.2.2.2.1]) hp rfl rfl
  · exact turn_gives ht (by simp [ht.2.2.2.1]) hp rfl rfl
  · refine turn_gives ht (by simp [ht.2.2.2.1, hm]) hp rfl ?_
    exact quiesceBody_waits (hard := false) hs (startQuiesce_runs (b := g) hb hf) (by
      show ((modStall n _ g).stall n).state ≠ _
      rw [modStall_stall_self]
      exact fun h => StallState.noConfusion h)
  · refine turn_gives ht (by simp [ht.2.2.2.1, hm]) hp rfl ?_
    exact quiesceBody_done (hard := false) hs (startQuiesce_done (b := g) hb) (by
      show ((modStall n _ g).stall n).state = _
      rw [modStall_stall_self])
  · have he : when (true && (g.stall n).state != .bound) (abortJobs n) (startQuiesce n g)
        = abortJobs n (modStall n (fun x => { x with state := .quiescing }) g) := by
      rw [startQuiesce_runs (b := g) hb hf, show (true && (g.stall n).state != .bound) = true from
        bne_iff_ne.2 hb]
      rfl
    refine ⟨fun hst => turn_gives ht (by simp [ht.2.2.2.1, hm]) hp rfl (quiesceBody_waits (hard := true) hs he hst),
      fun hst => turn_gives ht (by simp [ht.2.2.2.1, hm]) hp rfl (quiesceBody_done (hard := true) hs he hst)⟩
  · exact going_gives hg (by simp [hg.2.2.2.1, hm]) rfl (quiesceBody_ends (hard := false) hs hq)
  · exact going_gives hg (by simp [hg.2.2.2.1, hm]) rfl (quiesceBody_ends (hard := true) hs hq)
  · obtain ⟨hst, hpid, hring⟩ := createStall_stall (b := b) (n := m)
    refine ⟨hst, hpid, hring, ?_, ?_, destroyStall_tenancy, ?_, ?_, ?_, ?_, fun r => resetStall_ring r⟩
    · rw [destroyStall, modStall_stall_self]; rfl
    · rw [destroyStall, modStall_stall_self]; rfl
    all_goals rw [resetStall, modStall_stall_self] <;> rfl

end Sys2Proof.Machine
end


section
/-!
SUPPORT. The key commands and the changes of stall keys (R163, R169, R179 to R195, R400 to R403).
-/

namespace Sys2Proof.Machine

open Sys2Proof

/-! ## What the checks of the system slots leave of the tack room -/

section
variable (i : Nat) (b : Block)

/-- A part of the tack room that no change of a system slot touches. -/
theorem sysFailed_part {β : Type} {P : Tack → β} (h : ∀ (t : Tack) x, P { t with sys := x } = P t) : P (sysFailed false i b).tack = P b.tack := by
  unfold sysFailed
  dsimp only
  split
  · rfl
  · split
    · exact h _ _
    · rw [if_neg (by decide)]
      split
      · cases i == 2 <;> exact h _ _
      · exact h _ _

end

/-! ## A signed update -/

/-- Nartia reads the message of a command that installs or destroys, in FIELD. -/
theorem updateBody_asks {b : Block} {id : Nat} {c : Cmd} (hs : c.step = 0) (hl : b.lc = 2) (hn : updLen c ≠ 0) : updateBody true id c b =
    offer .dp0 (readReqs (.input id) ymIdent 1 40 (pieces (updIn c) 0 (min (updLen c) 17872)))
      (modCmd id (fun x => { x with step := 1, input := { want := min (updLen c) 17872 } }) b) := by
  have h0 : (min (updLen c) 17872 == 0) = false := by
    rw [beq_eq_false_iff_ne]
    omega
  simp only [updateBody, msgMine, hs, BEq.rfl, Bool.true_or, Bool.not_true, Bool.false_eq_true, if_false, if_true, msgAsk, hl, h0,
    bne_self_eq_false, ymRead]

/-- A received command of code `op`, about to run: its sheet's header, a result area of 64 KiB, and its parameters. -/
def readCommand (op : Nat) (par : Bytes) : Cmd :=
  let bytes := toLe 2 op ++ zeros 6 ++ toLe 4 (32 + par.length) ++ zeros 4 ++ toLe 8 0x1000 ++ toLe 4 65536 ++ zeros 4 ++ par
  { sender := { rid := 7, priv := true, port := .a }, sheet := { want := bytes.length, parts := [(0, bytes)] }, phase := 2 }

/-- An update of 1,504 bytes, and one of none. -/
def update1504 : Cmd := readCommand 0x0202 (zeros 16 ++ toLe 4 1504 ++ zeros 12)
def update0 : Cmd := readCommand 0x0202 (zeros 32)

/-- A part in FIELD whose two received commands carry one number. -/
def twiceNumbered (c d : Cmd) : State :=
  { blk :=
      { boot := { step := 10, ready := true, sealClear := true }
        sensed := { lc := 3, packKeyHash := some (zeros 32) }
        ym := { cmds := [(3, c), (3, d)], nextCmd := 4 } } }

/-- What an entry of the command list waits to read. -/
def inputWants (b : Block) : List Nat := b.ym.cmds.map fun e => e.2.input.want

theorem update1504_turn : Turn (twiceNumbered update1504 update0) 3 update1504 0x0202
    ∧ Passes (twiceNumbered update1504 update0).blk update1504 (updChecks (twiceNumbered update1504 update0).blk update1504) := by decide +kernel

/-- Refutes O45: the state its clause on INSTALL's message read writes takes the length from each entry of that number, by a bound variable
that hides the command, where the model takes the length of the command that runs. With two received commands of one number, an update of
1,504 bytes before one of none, the second entry's buffer tells them apart: 1,504 bytes wanted, and 0. -/
theorem not_keyCommandsChangeTheTackRoom : ¬ Obligations.KeyCommandsChangeTheTackRoom := by
  intro h
  obtain ⟨-, -, hinstall, -⟩ := h (twiceNumbered update1504 update0) 3 update1504
  obtain ⟨hturn, hpass⟩ := update1504_turn
  have hlen : updLen update1504 ≠ 0 := by decide +kernel
  obtain ⟨t, ht, hstill, -⟩ := (hinstall hturn hpass (by decide +kernel) rfl).2 (by decide +kernel) hlen
  have hgives := turn_gives (cmd := .install 3) hturn (by decide +kernel) hpass rfl (updateBody_asks rfl (by decide +kernel) hlen)
  have hwant : inputWants t.still = [1504, 1504] := by
    rw [gives_unique ht hgives, offer_still]
    decide +kernel
  rw [hstill] at hwant
  revert hwant
  decide +kernel

/-! ## Changes of stall keys and custodians (R183 to R185, R189) -/

theorem checkSys_passed {i : Nat} {b : Block} (hi : i ≠ 2) (h : (b.tack.sys.get i).bad = true ∨ sysTagOk b i = true) : checkSys i b = b := by
  have hb : (if i == 2 then redrawState b else b) = b := if_neg (by simpa using hi)
  unfold checkSys
  dsimp only
  rw [hb]
  exact if_pos (by simpa using h)

/-- A slot whose tag has been computed again carries the right one. -/
theorem skRetag_ok (n : Nat) (b : Block) : skTagOk (skRetag n b) n = true := by
  have h : (skRetag n b).sk n = { b.sk n with tag := slotTag b 1 n (skRecord (b.sk n)) } := modSk_sk_self n _ b
  rw [skTagOk, h]
  exact Bool.or_eq_true_iff.2 (.inr (beq_iff_eq.2 rfl))

theorem modSk_sk_ne {n m : Nat} (h : m ≠ n) (f : StallKey → StallKey) (b : Block) : (modSk n f b).sk m = b.sk m := Tab.get_mod_ne _ _ h

section
variable (n : Nat) (k : Bytes) (b : Block)

theorem installSk_sk : (installSk n k b).sk n = { b.sk n with
    material := k, fp := skFp k, state := 1, keyGen := (b.sk n).keyGen + 1, tag := ((installSk n k b).sk n).tag } := by
  rw [installSk, skRetag, modSk_sk_self, modSk_sk_self]

theorem destroySk_sk : (destroySk n b).sk n = { b.sk n with
    material := zeros 32, fp := zeros 8, state := 0, keyGen := (b.sk n).keyGen + 1, tag := ((destroySk n b).sk n).tag } := by
  rw [destroySk, skRetag, modSk_sk_self, modSk_sk_self]

theorem installSk_sk_ne {m : Nat} (h : m ≠ n) : (installSk n k b).sk m = b.sk m := by
  rw [installSk, skRetag, modSk_sk_ne h, modSk_sk_ne h]

theorem destroySk_sk_ne {m : Nat} (h : m ≠ n) : (destroySk n b).sk m = b.sk m := by
  rw [destroySk, skRetag, modSk_sk_ne h, modSk_sk_ne h]

end

/-- The change of a command, the barn key's tag checked; the replay is over. -/
def changed (c : Cmd) (b : Block) : Block :=
  if c.op == 0x0202 then
    if field c.input.bytes 5 1 == 1 then (match msgKey b c.input.bytes with | some k => installSk (field c.input.bytes 6 2) k b | none => b)
    else destroySk (field c.input.bytes 6 2) b
  else if c.op == 0x0205 then destroySk (c.par 0 4 % 512) b
  else setCustodian (c.par 0 1) (if c.par 1 1 == 1 then sha3 (slice c.params 16 160) else []) b

theorem applyChange_eq (c : Cmd) (b : Block) : applyChange c b = modTack (fun t => { t with replay := false }) (changed c (checkSys 0 b)) := rfl

theorem replayOver_sys (b : Block) : (modTack (fun t => { t with replay := false }) b).tack.sys = b.tack.sys := rfl
theorem replayOver_keys (b : Block) : (modTack (fun t => { t with replay := false }) b).tack.stallKeys = b.tack.stallKeys := rfl

theorem changed_install {c : Cmd} {b : Block} {k : Bytes} (h : c.op = 0x0202) (h5 : field c.input.bytes 5 1 = 1)
    (hk : msgKey b c.input.bytes = some k) : changed c b = installSk (field c.input.bytes 6 2) k b := by
  simp only [changed, h, h5, hk, BEq.rfl, if_true]

theorem changed_destroy {c : Cmd} {b : Block} {i : Nat}
    (h : (c.op = 0x0202 ∧ field c.input.bytes 5 1 ≠ 1 ∧ i = field c.input.bytes 6 2) ∨ (c.op = 0x0205 ∧ i = c.par 0 4 % 512)) :
    changed c b = destroySk i b := by
  obtain ⟨h, h5, rfl⟩ | ⟨h, rfl⟩ := h
  · simp only [changed, h, BEq.rfl, if_true, beq_eq_false_iff_ne.2 h5, Bool.false_eq_true, if_false]
  · simp only [changed, h, BEq.rfl, if_true, Nat.reduceBEq, Bool.false_eq_true, if_false]

theorem changed_custodian {c : Cmd} {b : Block} (h : c.op = 0x0206) :
    changed c b = setCustodian (c.par 0 1) (if c.par 1 1 == 1 then sha3 (slice c.params 16 160) else []) b := by
  simp only [changed, h, Nat.reduceBEq, Bool.false_eq_true, if_false]

/-- A change writes stall keys and system slots alone. -/
theorem changed_part {β : Type} {P : Tack → β} (h : ∀ (t : Tack) x y, P { t with stallKeys := x, sys := y } = P t) (c : Cmd) (b : Block) :
    P (changed c b).tack = P b.tack := by
  unfold changed
  split
  · split
    · split
      · exact h b.tack _ _
      · rfl
    · exact h b.tack _ _
  · split
    · exact h b.tack _ _
    · exact h b.tack _ _

theorem setSys_content (i : Nat) (x : Bytes) (b : Block) : ((setSys i x b).tack.sys.get i).content = x := by
  rw [setSys]
  show ((b.tack.sys.set i _).get i).content = x
  rw [Tab.get_set_self]
  split
  · rename_i h
    exact (eq_of_beq h).symm
  · rfl

section
variable (i : Nat) (x : Bytes) (b : Block)

theorem setCustodian_self : ((setCustodian i x b).tack.sys.get (5 + i)).bad = (b.tack.sys.get (5 + i)).bad
    ∧ ((setCustodian i x b).tack.sys.get (5 + i)).content = x := by
  have h : (setCustodian i x b).tack.sys.get (5 + i) = { (setSys (5 + i) x b).tack.sys.get (5 + i) with bad := (b.tack.sys.get (5 + i)).bad } :=
    Tab.get_mod_self _ _ _
  rw [h]
  exact ⟨rfl, setSys_content _ _ _⟩

theorem setCustodian_keys : (setCustodian i x b).tack.stallKeys = b.tack.stallKeys := rfl

theorem setCustodian_ne {k : Nat} (h : k ≠ 5 + i) : (setCustodian i x b).tack.sys.get k = b.tack.sys.get k :=
  (Tab.get_mod_ne _ _ h).trans (Tab.get_set_ne _ _ h)

end

/-- Settles O46: the change is `installSk`, `destroySk` or `setCustodian` after the check of the barn key's tag. -/
theorem stallKeysChangeUnderANewGeneration : Obligations.StallKeysChangeUnderANewGeneration := by
  intro b0 c t b m
  have ht : t = modTack (fun t => { t with replay := false }) (changed c b) := applyChange_eq c b0
  refine ⟨checkSys_passed (by decide), by rw [ht]; rfl, ?_, ?_, fun h h5 k hk => ?_, fun i hi => ?_, fun h => ?_⟩
  · rw [ht]
    exact changed_part (P := Tack.updateCounter) (fun _ _ _ => rfl) c b
  · rw [ht]
    exact changed_part (P := Tack.slots) (fun _ _ _ => rfl) c b
  · rw [changed_install h h5 hk] at ht
    have hsk : ∀ n, t.sk n = (installSk (field m 6 2) k b).sk n := fun n => by rw [ht]; rfl
    have hok : skUsable t (field m 6 2) = skUsable (installSk (field m 6 2) k b) (field m 6 2) := by rw [ht]; rfl
    rw [hsk, hok, skUsable, installSk_sk]
    exact ⟨rfl, rfl, rfl, rfl, Bool.and_eq_true_iff.2 ⟨rfl, skRetag_ok _ _⟩, fun n hn => (hsk n).trans (installSk_sk_ne _ _ _ hn)⟩
  · rw [changed_destroy hi] at ht
    have hsk : ∀ n, t.sk n = (destroySk i b).sk n := fun n => by rw [ht]; rfl
    rw [skUsable, hsk, destroySk_sk]
    exact ⟨rfl, rfl, rfl, rfl, fun n hn => (hsk n).trans (destroySk_sk_ne _ _ hn)⟩
  · rw [changed_custodian h] at ht
    generalize hx : (if c.par 1 1 == 1 then sha3 (slice c.params 16 160) else []) = x at ht
    have hsys : ∀ k, t.tack.sys.get k = (setCustodian (c.par 0 1) x b).tack.sys.get k :=
      fun k => by rw [ht, replayOver_sys]
    refine ⟨by rw [ht, replayOver_keys, setCustodian_keys], fun k hk => (hsys k).trans (setCustodian_ne _ _ _ hk), ?_, fun h1 => ?_, fun h1 => ?_⟩
    · rw [hsys]
      exact (setCustodian_self _ _ _).1
    · rw [hsys, (setCustodian_self _ _ _).2, ← hx, if_pos (beq_iff_eq.2 h1)]
    · rw [hsys, (setCustodian_self _ _ _).2, ← hx, if_neg (by simpa using h1)]

end Sys2Proof.Machine
end


section
/-!
SUPPORT. Packs, burns and the gate (R147, R151, R152, R299 to R302, R404 to R407, R432 to R440).
-/

namespace Sys2Proof.Machine

open Sys2Proof

/-! ## Loading a pack -/

/-- Nartia reads a pack, no longer than any can be, where the life-cycle state and the fuses allow one. -/
theorem packBody_asks {b : Block} {id : Nat} {c : Cmd} {t : Take} (hs : c.step = 0) (hl : b.lc ≠ 4) (hk : b.sensed.packKeyHash ≠ none)
    (hn : packLen c ≠ 0) : packBody t id c b =
      offer .dp0 (readReqs (.input id) ymIdent 1 40 (pieces (BitVec.ofNat 64 (c.par 8 8)) 0 (min (packLen c) 49536)))
        (modCmd id (fun x => { x with step := 1, input := { want := min (packLen c) 49536 } }) b) := by
  have h0 : (min (packLen c) 49536 == 0) = false := by
    rw [beq_eq_false_iff_ne]
    omega
  have h1 : (b.lc == 4 || b.sensed.packKeyHash.isNone) = false := by simpa using ⟨hl, Option.isSome_iff_ne_none.2 hk⟩
  simp only [packBody, hs, h1, h0, Bool.false_eq_true, if_false, ymRead]

/-- A pack of 1,024 bytes, and one of none. -/
def pack1024 : Cmd := readCommand 0x0303 (zeros 16 ++ toLe 4 1024)
def pack0 : Cmd := readCommand 0x0303 (zeros 20)

theorem pack1024_turn : Turn (twiceNumbered pack1024 pack0) 3 pack1024 0x0303
    ∧ Passes (twiceNumbered pack1024 pack0).blk pack1024 (packChecks (twiceNumbered pack1024 pack0).blk pack1024) := by decide +kernel

/-- Refutes O47: as in O45, the state its clause on the pack's read writes takes the length from each entry of that number, by a bound variable
that hides the command, where the model takes the length of the command that runs. With two received commands of one number, a pack of 1,024
bytes before one of none, the second entry's buffer tells them apart: 1,024 bytes wanted, and 0. -/
theorem not_curvesAndPacksAreLoadedWhole : ¬ Obligations.CurvesAndPacksAreLoadedWhole := by
  intro h
  obtain ⟨-, -, -, -, -, hpack, -⟩ := h (twiceNumbered pack1024 pack0) 3 pack1024 .agree
  obtain ⟨hturn, hpass⟩ := pack1024_turn
  have hlen : packLen pack1024 ≠ 0 := by decide +kernel
  have hkey : (twiceNumbered pack1024 pack0).blk.sensed.packKeyHash ≠ none := by decide +kernel
  obtain ⟨t, ht, hstill, -⟩ := (hpack hturn hpass rfl).2 (by decide +kernel) hkey hlen
  have hgives := turn_gives (cmd := .packLoad 3 .agree) hturn (by decide +kernel) hpass rfl (packBody_asks rfl (by decide +kernel) hkey hlen)
  have hwant : inputWants t.still = [1024, 1024] := by
    rw [gives_unique ht hgives, offer_still]
    decide +kernel
  rw [hstill] at hwant
  revert hwant
  decide +kernel

/-! ## Burns of the life-cycle commands (R147, R151, R549) -/

section
variable {s : State} {id op : Nat} {c : Cmd} {is : Cmd → Bool} {checks : Block → Cmd → Checks} {body : Nat → Cmd → Block → Block}

/-- A command of the yardmaster that has its turn and passes its checks runs its body, on the whole state. -/
theorem onYm_turn (ht : Turn s id c op) (his : is c = true) (hp : Passes s.blk c (checks s.blk c)) :
    onYm (runCmd is checks body id) s = { s with blk := body id c (commenced id s.blk) } := by
  obtain ⟨hr, hh, hc, hop, hph, ha, hm⟩ := ht
  obtain ⟨h1, h2, h3⟩ := hp
  have hw : ((checks s.blk c).writes && anyHold s.blk) = false := by
    cases h : (checks s.blk c).writes
    · rfl
    · exact h2 h
  have hrun : runCmd is checks body id s.blk = body id c (commenced id s.blk) := by
    rw [runCmd_starts hc his ha hph, if_pos hm, startCmd, h1]
    dsimp only
    rw [if_neg (by rw [hw]; decide), h3]
    rfl
  rw [onYm, hr, hh]
  show ({ s with blk := runCmd is checks body id s.blk } : State) = _
  rw [hrun]

/-- A command that has ended does not burn. -/
theorem burnCmd_over {fail : Nat} {fld : Cmd → FuseField} {how : Burn} {x : Cmd} (hc : s.blk.cmd id = some x) (h : x.phase ≠ 3) :
    burnCmd op fail id fld how s = s := by
  rw [burnCmd, hc]
  exact if_neg (by simp [h])

/-- A command that has come to its burn burns its field. -/
theorem burnCmd_burns {fail : Nat} {fld : Cmd → FuseField} {how : Burn} {x : Cmd} (hc : s.blk.cmd id = some x) (ho : x.op = op)
    (hp : x.phase = 3) (hs : x.step = 1) (ha : x.aborted = false) (hr : burnReady s.blk = true) :
    burnCmd op fail id fld how s = { burn how (fld x) x.keep s with blk := match how with
      | .good => okCmd id [] (afterBurn (fld x) (burn how (fld x) x.keep s).blk)
      | .bad => failCmd id fail 0 (burn how (fld x) x.keep s).blk
      | .vfzLost => modCmd id (fun c => { c with waitSince := some (burn how (fld x) x.keep s).blk.now }) (burn how (fld x) x.keep s).blk } := by
  rw [burnCmd, hc]
  exact if_pos (by simp [ho, hp, hs, ha, hr])

end

section
variable {b : Block} {id : Nat} {c x : Cmd}

theorem lifecycleBody_fails {k : Nat} (hs : c.step = 0) (hw : b.boot.warmDue = false) (h : transitionLacks b (c.par 0 1) = some k) :
    lifecycleBody id c b = failCmd id rcCheckFailed k b := by
  simp only [lifecycleBody, hs, hw, h, bne_self_eq_false, Bool.or_self, Bool.false_eq_true, if_false]

theorem lifecycleBody_burns (hs : c.step = 0) (hw : b.boot.warmDue = false) (h : transitionLacks b (c.par 0 1) = none) :
    lifecycleBody id c b = cmdStep id 1 b := by
  simp only [lifecycleBody, hs, hw, h, bne_self_eq_false, Bool.or_self, Bool.false_eq_true, if_false]

theorem forgeBody_draws (hs : c.step = 0) (hp : b.boot.entropyPaused = false) :
    forgeBody id c b = drew (modCmd id (fun x => { x with step := 1, keep := drbgNow b 128 }) b) := by
  simp only [forgeBody, hs, hp, bne_self_eq_false, Bool.or_self, Bool.false_eq_true, if_false]

/-- A command that has failed waits for its header. -/
theorem failCmd_cmd (r d : Nat) (hc : b.cmd id = some c) : ∃ x, (failCmd id r d b).cmd id = some x ∧ x.phase = 5 := by
  obtain ⟨-, -, ⟨x, hx, -, -, -, -, hp, -⟩, -⟩ := endedCommandsReport b id c r d [] hc
  exact ⟨x, hx, hp⟩

theorem commenced_cmd (hc : b.cmd id = some c) : (commenced id b).cmd id = some { c with phase := 3, waitSince := none } := by
  rw [commenced, modCmd_cmd_self, hc]
  rfl

end

/-- Settles O48: the body's step on the commenced block, and then the burn of the command, which has come to it or has failed. -/
theorem lifeCycleBurnsAreIrreversible : Obligations.LifeCycleBurnsAreIrreversible := by
  intro s id c b g hs hr
  refine ⟨fun ht hp hw => ⟨fun k hk => ?_, fun hk => ?_⟩, fun ht hp hpause => ?_⟩
  · have hg := commenced_cmd ht.2.2.1
    obtain ⟨x, hx, hph⟩ := failCmd_cmd (id := id) rcCheckFailed k hg
    refine congrArg Host.Outcome.next ?_
    rw [onYm_turn ht (by simp [ht.2.2.2.1]) hp, lifecycleBody_fails (b := commenced id s.blk) hs hw hk]
    exact burnCmd_over hx (by omega)
  · intro f d burnt z
    have hg := commenced_cmd ht.2.2.1
    have hd : d.cmd id = some { c with phase := 3, waitSince := none, step := 1 } := by
      show (modCmd id _ g).cmd id = _
      rw [modCmd_cmd_self, hg]
      rfl
    have hexec : ∀ how, exec (.lifecycleAdvance id how) s = .next (burnCmd 0x0401 rcFuseFailed id
        (fun c => .lcGroup (Fin.ofNat 4 (c.par 0 1 - 1))) how { s with blk := d }) := by
      intro how
      refine congrArg Host.Outcome.next ?_
      rw [onYm_turn ht (by simp [ht.2.2.2.1]) hp, lifecycleBody_burns (b := commenced id s.blk) hs hw hk]
    have hburn : ∀ how, burnCmd 0x0401 rcFuseFailed id (fun c => .lcGroup (Fin.ofNat 4 (c.par 0 1 - 1))) how { s with blk := d } = _ :=
      fun how => burnCmd_burns (s := { s with blk := d }) hd ht.2.2.2.1 rfl rfl ht.2.2.2.2.2.1 hr
    refine ⟨?_, ⟨_, (hexec .bad).trans (congrArg Host.Outcome.next (hburn .bad)), rfl, and_or_self _ _, rfl⟩,
      ⟨_, (hexec .vfzLost).trans (congrArg Host.Outcome.next (hburn .vfzLost)), rfl, ?_⟩⟩
    · rw [hexec .good, hburn .good]
      rfl
    · show ∃ x, (modCmd id _ { freed d with sensed := z, boot := { d.boot with vfz := false } }).cmd id = some x ∧ _
      rw [modCmd_cmd_self, show ({ freed d with sensed := z, boot := { d.boot with vfz := false } } : Block).cmd id = d.cmd id from rfl, hd]
      exact ⟨_, rfl, rfl, rfl⟩
  · intro x d burnt z done
    have hg := commenced_cmd ht.2.2.1
    have hd : d.cmd id = some { c with phase := 3, waitSince := none, step := 1, keep := x } := by
      rw [show d.cmd id = (modCmd id (fun c => { c with step := 1, keep := x }) g).cmd id from rfl, modCmd_cmd_self, hg]
      rfl
    have hexec : ∀ how, exec (.forgeRoots id how) s = .next (burnCmd 0x0402 rcForgeFailed id (fun _ => .roots) how { s with blk := d }) := by
      intro how
      refine congrArg Host.Outcome.next ?_
      rw [onYm_turn ht (by simp [ht.2.2.2.1]) hp, forgeBody_draws (b := commenced id s.blk) hs hpause]
      rfl
    have hburn : ∀ how, burnCmd 0x0402 rcForgeFailed id (fun _ => .roots) how { s with blk := d } = _ :=
      fun how => burnCmd_burns (s := { s with blk := d }) hd ht.2.2.2.1 rfl rfl ht.2.2.2.2.2.1 hr
    refine ⟨?_, _, (hexec .bad).trans (congrArg Host.Outcome.next (hburn .bad)), rfl⟩
    rw [hexec .good, hburn .good]
    rfl

/-! ## What runs under the port that may close (R550, R551) -/

theorem runCmd_going {b : Block} {id : Nat} {c : Cmd} {is : Cmd → Bool} {checks : Block → Cmd → Checks} {body : Nat → Cmd → Block → Block}
    (hc : b.cmd id = some c) (his : is c = true) (hp : c.phase = 3) (ha : c.aborted = false) : runCmd is checks body id b = body id c b := by
  rw [runCmd, hc]; dsimp only
  rw [if_neg (by simp [his, ha]), if_neg (by simp [hp]), if_pos (by simp [hp])]

section
variable {s : State} {cmd : Instr} {x : Block} {id op : Nat} {c : Cmd} {is : Cmd → Bool} {checks : Block → Cmd → Checks}
  {body : Nat → Cmd → Block → Block}

theorem updCmd_turn (ht : Turn s id c op) (his : is c = true) (hp : Passes s.blk c (checks s.blk c)) (hx : body id c (commenced id s.blk) = x) :
    updCmd s is checks body id = .next { s with blk := x } := by
  have h : runCmd is checks body id s.blk = x := by
    have := congrArg State.blk (onYm_turn (body := body) ht his hp)
    rwa [onYm, ht.1, ht.2.1, hx] at this
  exact updOn_gives ht.1 ht.2.1 h

theorem updCmd_going (hg : Going s id c op) (his : is c = true) (hx : body id c s.blk = x) :
    updCmd s is checks body id = .next { s with blk := x } :=
  updOn_gives hg.1 hg.2.1 ((runCmd_going hg.2.2.1 his hg.2.2.2.2.1 hg.2.2.2.2.2).trans hx)

theorem closing_closes {o : Host.Outcome State Fault Refusal} (he : exec cmd s = closing s o) (ho : o = .next { s with blk := x }) :
    GivesClosing cmd s x := by
  rw [GivesClosing, he, ho]
  rfl

theorem scanClosed_open {t : State} (h : s.blk.ym.gate.port = true → t.blk.ym.gate.port = true) : scanClosed s.blk t = t := by
  refine if_neg fun hc => ?_
  simp only [Bool.and_eq_true, Bool.not_eq_true'] at hc
  exact Bool.noConfusion ((h hc.1.1.2).symm.trans hc.1.2)

/-- Where the port does not close, nothing follows. -/
theorem closing_gives {o : Host.Outcome State Fault Refusal} (he : exec cmd s = closing s o) (ho : o = .next { s with blk := x })
    (h : s.blk.ym.gate.port = true → x.ym.gate.port = true) : Gives cmd s x :=
  (closing_closes he ho).trans (congrArg Host.Outcome.next (scanClosed_open h))

end

/-! ## Commands leave the port as it is -/

section
variable (id r d : Nat) (b : Block)

theorem ymWrite_ym (o : Owner) (a : Addr) (x : Bytes) : (ymWrite o a x b).ym = b.ym := offer_ym _ _ _

theorem dateSession_port (c : Cmd) : (dateSession c b).ym.gate.port = b.ym.gate.port := by
  rw [dateSession]
  exact when_keeps (f := modGate _) (g := fun b => b.ym.gate.port) (fun _ => rfl) _ _

theorem writeResult_port : (writeResult id b).ym.gate.port = b.ym.gate.port := by
  cases hc : b.cmd id with
  | none => rw [writeResult, hc]
  | some c =>
    by_cases hp : c.payload = []
    · rw [writeResult_header hc hp, writeHeader_eq hc, dateSession_port, ymWrite_ym]
      rfl
    · rw [writeResult_payload hc hp, ymWrite_ym]
      rfl

theorem endCmd_port (pay : Bytes) : (endCmd id r d pay b).ym.gate.port = b.ym.gate.port := writeResult_port _ _

theorem okCmd_port (pay : Bytes) : (okCmd id pay b).ym.gate.port = b.ym.gate.port := endCmd_port _ _ _ _ _
theorem failCmd_port : (failCmd id r d b).ym.gate.port = b.ym.gate.port := endCmd_port _ _ _ _ _

theorem sbPump_ym : (sbPump b).ym = b.ym := by
  unfold sbPump
  split <;> rfl

theorem cmdAsk_port (op cell arg k : Nat) : (cmdAsk id op cell arg k b).ym.gate.port = b.ym.gate.port := by
  rw [cmdAsk, sbAsk, sbPump_ym]
  rfl

end

/-! ## Credentials (R407, R436 to R439) -/

/-- What a failed attempt does to the lockout (R439). -/
def lockGate (b : Block) : Block :=
  modGate (fun g => { g with lockoutEnd := if 3 ≤ g.fails then some (b.now + lockoutUs g.fails) else g.lockoutEnd }) b

/-- A response spends its challenge, a password none. -/
def spendChallenge (pw : Bool) (b : Block) : Block := if pw then b else modGate (fun g => { g with challenge := none }) b

section
variable {b : Block} {id : Nat} {c : Cmd} {pw : Bool} {t d : Take}

theorem spendChallenge_port : (spendChallenge pw b).ym.gate.port = b.ym.gate.port := by cases pw <;> rfl

theorem gateBody_first (hs : c.step = 0) : gateBody pw t d id c b = gateFirst pw t id c b := by simp only [gateBody, hs]
theorem gateBody_charged (hs : c.step = 2) (hb : c.sb = 2) :
    gateBody pw t d id c b = examine pw t id c (cmdStep id 3 (setGateCell c.sbVal b)) := by
  simp only [gateBody, hs, hb, BEq.rfl, if_true]
theorem gateBody_cleared (hs : c.step = 4) (hb : c.sb = 2) : gateBody pw t d id c b = openGate d id c (setGateCell c.sbVal b) := by
  simp only [gateBody, hs, hb, BEq.rfl, if_true]

/-! A response or password before it is charged. -/

theorem gateFirst_ungated (h : b.lc = 0 ∨ b.lc = 1 ∨ b.lc = 4) : gateFirst pw t id c b = failCmd id rcWrongState b.lc b :=
  if_pos (by simpa [or_assoc] using h)

section
variable (h : b.lc = 2 ∨ b.lc = 3)
include h

theorem gateFirst_gated : gateFirst pw t id c b =
    if lockedOut b then failCmd id rcGateLocked 0 b
    else if otherHolds b c.sender then failCmd id rcWrongState 0x0100 b
    else if b.boot.entropyStopped then failCmd id rcWrongState 0x0200 b
    else if b.ym.gate.reread then cmdAsk id 0 2 0 1 b
    else charge pw t id c b := if_neg (by rcases h with h | h <;> simp [h])

theorem gateFirst_locked (hl : lockedOut b = true) : gateFirst pw t id c b = failCmd id rcGateLocked 0 b := by
  rw [gateFirst_gated h, hl, if_pos rfl]

theorem gateFirst_taken (hl : lockedOut b = false) (ho : otherHolds b c.sender = true) :
    gateFirst pw t id c b = failCmd id rcWrongState 0x0100 b := by
  rw [gateFirst_gated h, hl, ho, if_neg Bool.false_ne_true, if_pos rfl]

theorem gateFirst_charges (hl : lockedOut b = false) (ho : otherHolds b c.sender = false) (he : b.boot.entropyStopped = false)
    (hr : b.ym.gate.reread = false) (hf : b.ym.gate.fails ≠ 255) : gateFirst pw t id c b = cmdAsk id 1 2 1 2 b := by
  rw [gateFirst_gated h, hl, ho, he, hr, charge]
  simp only [Bool.false_eq_true, if_false, beq_eq_false_iff_ne.2 hf]

end

/-! Its examination. -/

/-- The first failing check of a credential. -/
def gateDenies (pw : Bool) (b : Block) (c : Cmd) : Option Nat := if pw then passwordFails b c else respondFails b c

section
variable (he : HasEntropy b)
include he

theorem examine_split : examine pw .split id c b = failCmd id rcSplit 0 (lockGate (withEvent evDecisionSplit [] (spendChallenge pw b))) := by
  simp only [examine, he.1, he.2, Bool.false_eq_true, if_false, if_true]
  rfl

theorem examine_cut : examine pw .cut id c b = failCmd id rcSplit 0 (lockGate (spendChallenge pw b)) := by
  simp only [examine, he.1, he.2, Bool.false_eq_true, if_false, if_true, reduceCtorEq]
  rfl

theorem examine_denied {k : Nat} (h : gateDenies pw b c = some k) :
    examine pw .agree id c b = failCmd id rcGateDenied k (lockGate (spendChallenge pw b)) := by
  unfold gateDenies at h
  simp only [examine, he.1, he.2, h, Bool.false_eq_true, if_false, reduceCtorEq]
  rfl

theorem examine_passed (h : gateDenies pw b c = none) :
    examine pw .agree id c b = cmdAsk id 2 2 ((b.ym.gate.cell / 256 + 1) * 256) 4 (spendChallenge pw b) := by
  unfold gateDenies at h
  simp only [examine, he.1, he.2, h, Bool.false_eq_true, if_false, reduceCtorEq]
  rfl

end

/-! The session it opens. -/

/-- The session that command `c` opens; its end counts from the result write. -/
def startSession (c : Cmd) (b : Block) : Block :=
  modGate (fun g => { g with session := some (c.sender, scopeOf c, b.now + c.par 4 4 * 1000000), undated := true, port := false }) b

theorem openGate_plain (h : (scopeOf c).getLsbD 4 = false ∨ b.lc ≠ 2) : openGate d id c b = okCmd id (toLe 4 (c.par 4 4)) (startSession c b) := by
  have hw : ((scopeOf c).getLsbD 4 && (startSession c b).lc == 2) = false := by
    rcases h with h | h
    · rw [h]; rfl
    · rw [show (startSession c b).lc = b.lc from rfl, beq_eq_false_iff_ne.2 h, Bool.and_false]
  show okCmd id _ (when ((scopeOf c).getLsbD 4 && (startSession c b).lc == 2) (openDebug d) (startSession c b)) = _
  rw [hw]
  rfl

theorem openGate_debug (h : (scopeOf c).getLsbD 4 = true) (hl : b.lc = 2) (he : noEntropy b = false) : openGate .agree id c b =
    okCmd id (toLe 4 (c.par 4 4)) (modGate (fun g => { g with port := true }) (withEvent evDebugOpened [] (zeroKeys (startSession c b)))) := by
  have hw : ((scopeOf c).getLsbD 4 && (startSession c b).lc == 2) = true := by
    rw [h, show (startSession c b).lc = b.lc from rfl, hl]
    rfl
  show okCmd id _ (when ((scopeOf c).getLsbD 4 && (startSession c b).lc == 2) (openDebug .agree) (startSession c b)) = _
  rw [hw, when_true, openDebug]
  simp only [reduceCtorEq, if_false, show noEntropy (startSession c b) = false from he]
  rfl

end

theorem openPort_port (b : Block) : (modGate (fun g => { g with port := true }) b).ym.gate.port = true := rfl

/-- Settles O49: each step of a credential's command is one of the functions above, and only its last one may close the port. -/
theorem gateCredentialsAreChargedFirst : Obligations.GateCredentialsAreChargedFirst := by
  intro s id c pw t b g cmd op spent dated lock
  have turn : ∀ {x : Block}, Turn s id c op → Passes b c (if pw then passwordChecks b c else respondChecks b c) →
      gateBody pw t .agree id c g = x → (s.blk.ym.gate.port = true → x.ym.gate.port = true) → Gives cmd s x := by
    intro x ht hp hx hport
    cases pw
    · exact closing_gives rfl (updCmd_turn (is := fun c => c.op == 0x0404) (checks := respondChecks) ht (beq_iff_eq.2 ht.2.2.2.1) hp hx) hport
    · exact closing_gives rfl (updCmd_turn (is := fun c => c.op == 0x0405) (checks := passwordChecks) ht (beq_iff_eq.2 ht.2.2.2.1) hp hx) hport
  have going : ∀ {x : Block}, Going s id c op → gateBody pw t .agree id c b = x → GivesClosing cmd s x := by
    intro x hg hx
    cases pw
    · exact closing_closes rfl (updCmd_going (is := fun c => c.op == 0x0404) (checks := respondChecks) hg (beq_iff_eq.2 hg.2.2.2.1) hx)
    · exact closing_closes rfl (updCmd_going (is := fun c => c.op == 0x0405) (checks := passwordChecks) hg (beq_iff_eq.2 hg.2.2.2.1) hx)
  have keeps : ∀ {x : Block}, GivesClosing cmd s x → (s.blk.ym.gate.port = true → x.ym.gate.port = true) → Gives cmd s x :=
    fun h hp => h.trans (congrArg Host.Outcome.next (scanClosed_open hp))
  refine ⟨fun ht hp hs hk => ⟨fun hl => ?_, fun hl => ⟨fun h1 => ?_, fun h1 h2 => ?_, fun h1 h2 h3 h4 h5 => ?_⟩⟩, fun hg hs hb he => ?_, fun hg hs hb => ?_,
    fun x hx ho hr hu => ?_⟩
  · exact turn ht hp ((gateBody_first hs).trans (gateFirst_ungated (b := g) hl)) (fun h => (failCmd_port _ _ _ _).trans h)
  · exact turn ht hp ((gateBody_first hs).trans (gateFirst_locked (b := g) hl h1)) (fun h => (failCmd_port _ _ _ _).trans h)
  · exact turn ht hp ((gateBody_first hs).trans (gateFirst_taken (b := g) hl h1 h2)) (fun h => (failCmd_port _ _ _ _).trans h)
  · exact turn ht hp ((gateBody_first hs).trans (gateFirst_charges (b := g) hl h1 h2 h3 h4 h5)) (fun h => (cmdAsk_port _ _ _ _ _ _).trans h)
  · intro d no
    have hno : gateDenies pw d c = no := by cases pw <;> rfl
    have hport : ∀ {x : Block}, x.ym.gate.port = (spendChallenge pw d).ym.gate.port → s.blk.ym.gate.port = true → x.ym.gate.port = true :=
      fun h hs => h.trans (spendChallenge_port.trans hs)
    refine ⟨fun hsp => ?_, fun hsp => ?_, fun hsp k hk => ?_, fun hsp hk => ?_⟩ <;> subst hsp
    · exact keeps (going hg ((gateBody_charged hs hb).trans (examine_split (b := d) he))) (hport (failCmd_port _ _ _ _))
    · exact keeps (going hg ((gateBody_charged hs hb).trans (examine_cut (b := d) he))) (hport (failCmd_port _ _ _ _))
    · exact keeps (going hg ((gateBody_charged hs hb).trans (examine_denied (b := d) he (hno.trans hk)))) (hport (failCmd_port _ _ _ _))
    · exact keeps (going hg ((gateBody_charged hs hb).trans (examine_passed (b := d) he (hno.trans hk)))) (hport (cmdAsk_port _ _ _ _ _ _))
  · intro d
    have hd : startSession c (setGateCell c.sbVal b) = d := rfl
    refine ⟨fun h => ?_, fun h hl he => ?_⟩
    · have e := openGate_plain (id := id) (d := .agree) (b := setGateCell c.sbVal b) h
      rw [hd] at e
      exact going hg ((gateBody_cleared hs hb).trans e)
    · have e := openGate_debug (id := id) (b := setGateCell c.sbVal b) h hl he
      rw [hd] at e
      exact keeps (going hg ((gateBody_cleared hs hb).trans e)) (fun _ => (okCmd_port _ _ _).trans (openPort_port _))
  · have hop : x.op = 0x0404 ∨ x.op = 0x0405 := by cases pw <;> simp [op] at ho <;> simp [ho]
    rw [writeHeader_eq hx, dateSession_on ⟨hr, hop, by rw [ymWrite_ym]; exact hu⟩]

/-! ## Terms of challenges, sessions and lockouts (R434, R435, R440) -/

section
variable {b : Block} {id : Nat} {c : Cmd}

theorem challengeBody_draws (h : noEntropy b = false) : challengeBody id c b = okCmd id (drbgNow b 32) (modGate (fun g => { g with
    challenge := some (drbgNow b 32, b.now), replaced := g.replaced ++ g.challenge.toList.map Prod.fst }) (drew b)) := by
  rw [challengeBody, h]
  rfl

theorem closeBody_none (h : openSession b = none) : closeBody id c b = okCmd id [] b := by
  rw [closeBody, h]

theorem closeBody_own {h : Sender} {k : BitVec 32 × Nat} (ho : openSession b = some (h, k)) (hs : sameHolder h c.sender = true) :
    closeBody id c b = okCmd id [] (closeSession b) := by
  rw [closeBody, ho]
  exact if_pos hs

theorem closeBody_other {h : Sender} {k : BitVec 32 × Nat} (ho : openSession b = some (h, k)) (hs : sameHolder h c.sender = false) :
    closeBody id c b = failCmd id rcGateRequired 0 b := by
  rw [closeBody, ho]
  exact if_neg (by rw [hs]; decide)

end

/-- Settles O50: by the branches of the two commands and of each expiry. -/
theorem gateTermsEnd : Obligations.GateTermsEnd := by
  intro s id c b g shut
  refine ⟨fun ht hp hr he => turn_gives ht (by simp [ht.2.2.2.1]) hp rfl (challengeBody_draws (b := g) he), fun ht hp hr => ?_, fun hp hl t ht => ?_,
    fun t h => ?_, fun hr => ?_⟩
  · have turn : ∀ {x : Block}, closeBody id c g = x → updCmd s (fun c => c.op == 0x0406) closeChecks closeBody id = .next { s with blk := x } :=
      fun hx => updCmd_turn ht (beq_iff_eq.2 ht.2.2.2.1) hp hx
    refine ⟨fun ho => ?_, fun h k ho => ⟨fun hs => ?_, fun hs => ?_⟩⟩
    · exact closing_gives rfl (turn (closeBody_none (b := g) ho)) (fun h => (okCmd_port _ _ _).trans h)
    · exact closing_closes rfl (turn (closeBody_own (b := g) ho hs))
    · exact closing_gives rfl (turn (closeBody_other (b := g) ho hs)) (fun h => (failCmd_port _ _ _ _).trans h)
  · simp only [scanClosed, hp, hl, ht, Bool.and_true, Bool.not_false, BEq.rfl]
  · refine if_neg fun hc => ?_
    simp only [Bool.and_eq_true, beq_iff_eq] at hc
    rcases h with h | h
    · exact Bool.noConfusion (hc.1.1.2.symm.trans h)
    · exact h hc.2
  · refine ⟨fun x y t0 hs hu => ?_, fun hu => ?_, fun n => ?_, fun x t0 hc => ?_, fun t0 hl => ?_, fun hh hr1 hg => ?_, fun hs => ?_, fun hc => ?_, fun hl => ?_⟩
    · refine closing_closes rfl (updReady_gives hr ?_)
      simp only [show s.blk.ym.gate.session = _ from hs, show s.blk.ym.gate.undated = false from hu]
      rfl
    · refine closing_gives rfl (updReady_gives hr ?_) fun h => h
      simp only [show s.blk.ym.gate.undated = true from hu]
      split <;> rfl
    · rfl
    · refine updReady_gives hr ?_
      simp only [show s.blk.ym.gate.challenge = _ from hc]
      rfl
    · refine updReady_gives hr ?_
      simp only [show s.blk.ym.gate.lockoutEnd = _ from hl]
      rfl
    · refine updOn_gives hr hh ?_
      simp only [show s.blk.ym.gate.retry = true from hr1, show gateReading s.blk = false from hg]
      rfl
    · refine closing_gives rfl (updReady_gives hr ?_) fun h => h
      simp only [show s.blk.ym.gate.session = none from hs]
      rfl
    · refine updReady_gives hr ?_
      simp only [show s.blk.ym.gate.challenge = none from hc]
      rfl
    · refine updReady_gives hr ?_
      simp only [show s.blk.ym.gate.lockoutEnd = none from hl]
      rfl

end Sys2Proof.Machine
end


section
/-!
SUPPORT. Chutes at their neighbours' side and their flushes (R443 to R460).
-/

namespace Sys2Proof.Machine

open Sys2Proof

/-! ## Changes of one chute -/

theorem modChute_congr {c : Nat} {f g : Chute → Chute} {b : Block} (h : f (b.chute c) = g (b.chute c)) : modChute c f b = modChute c g b :=
  congrArg (fun t => { b with chutes := t }) (Tab.mod_congr h)

theorem modChute_chute_ne {c k : Nat} (h : k ≠ c) (f : Chute → Chute) (b : Block) : (modChute c f b).chute k = b.chute k := Tab.get_mod_ne _ _ h

theorem applyFlush_none {c : Chute} (h : c.flush = none) : applyFlush c = c := by rw [applyFlush, h]

theorem drainChute_idle {c : Chute} (h : c.draining = false) : drainChute c = c := by rw [drainChute, h]; rfl

section
variable {b : Block} {c : Nat}

/-- A change that leaves a chute neither draining nor with a flush pending is that change alone. -/
theorem changeChute_plain {f : Chute → Chute} (hd : (f (b.chute c)).draining = false) (hf : (f (b.chute c)).flush = none) :
    changeChute c f b = modChute c f b := by
  refine modChute_congr ?_
  rw [drainChute_idle hd, applyFlush_none hf, ite_self]

theorem feedHolder_free (h : (b.chute c).holder = none) : feedHolder c b = b := by rw [feedHolder, h]

/-! ## Items in (R444, R446) -/

section
variable {data : Bytes} {ctl : BitVec 16}

/-- The item a neighbour writes. -/
abbrev writtenItem (data : Bytes) (ctl : BitVec 16) : Item := { data := fit 32 data, ctl := ctl &&& 0x03FF }

theorem itemWrite_invalid (h : (writtenItem data ctl).valid = false) : itemWrite c data ctl b = b :=
  if_pos (by rw [h]; rfl)

theorem itemWrite_overrun (hv : (writtenItem data ctl).valid = true) (hh : (b.chute c).holder = none)
    (hf : 512 ≤ (b.chute c).items.length + (b.chute c).drained) : itemWrite c data ctl b =
      withEvent evChuteOverrun (toLe 1 c) (modChute c (fun y => { y with errors := satAdd 32 y.errors 1 }) b) := by
  refine (if_neg (by rw [hv]; decide)).trans ((if_pos hf).trans ?_)
  rw [overrun, hh]
  rfl

theorem itemWrite_enters (hv : (writtenItem data ctl).valid = true) (hh : (b.chute c).holder = none)
    (hf : (b.chute c).items.length + (b.chute c).drained < 512) (hfl : (b.chute c).flush = none) (hd : (b.chute c).draining = false) :
    itemWrite c data ctl b = modChute c (fun y => { y with items := y.items ++ [writtenItem data ctl] }) (wake b) := by
  refine (if_neg (by rw [hv]; decide)).trans ((if_neg (Nat.not_le.2 hf)).trans ?_)
  rw [changeChute_plain (f := fun x => { x with items := x.items ++ [writtenItem data ctl] }) (b := wake b) hd hfl]
  exact feedHolder_free (by rw [modChute_chute_self]; exact hh)

end

/-! ## Items out (R448, R449) -/

theorem readable_iff : readable (b.chute c) = true ↔ ∃ i l, (b.chute c).items = i :: l ∧ ((b.chute c).inPacket = true ∨ 0 < (b.chute c).released
    ∨ cutThrough (b.chute c) (i :: l) = true) := by
  rw [readable]
  cases h : (b.chute c).items with
  | nil => simp
  | cons i l => simp [or_assoc]

theorem itemRead_takes {i : Item} {l : List Item} (hi : (b.chute c).items = i :: l) (hh : (b.chute c).holder = none)
    (hr : readable (b.chute c) = true) (hd : holding b 23 = false) (hf : (b.chute c).flush = none) : itemRead c b =
      modChute c (fun y => { y with
        items := l, drained := (y.drained + 1) % 256, inPacket := if i.eop then false else y.inPacket || i.sop, last := i
        released := if i.eop then y.released - 1 else y.released }) b := by
  rw [itemRead]
  dsimp only
  rw [hi, hh, hr, hd]
  refine modChute_congr ?_
  rw [applyFlush_none (by rw [popItem, hi]; dsimp only; rw [hf]; rfl), popItem, hi]
  rw [hf]
  rfl

theorem itemRead_empty (h : readable (b.chute c) = false ∨ holding b 23 = true) : itemRead c b =
    modChute c (fun y => { y with last := emptyItem y }) b := by
  have hc : (readable (b.chute c) && !holding b 23) = false := by rcases h with h | h <;> simp [h]
  rw [itemRead]
  dsimp only
  split
  · rw [hc]
    rfl
  · rfl

/-! ## Flushes (R459, R460) -/

theorem flushChute_chute : (flushChute c b).chute c =
    if flushPoint (b.chute c).items = 0 then b.chute c else applyFlush { b.chute c with flush := some (flushPoint (b.chute c).items) } :=
  modChute_chute_self _ _ _

/-- What a FLUSH_NOW leaves of a chute that no channel holds. -/
def emptied (c : Nat) (h : Chute) : Chute :=
  { h with items := if 4 ≤ c && h.inPacket then [abortItem] else [], drained := drainedAfter h h.items.length
           putBack := [], landing := [], skipping := false, flush := none, inPacket := 4 ≤ c && h.inPacket, released := 0 }

theorem flushNow_free (h : (b.chute c).mover = none) : flushNow c b = modChute c (emptied c) b := by
  rw [flushNow, h]
  rfl

end

/-- Settles O51: each access of a chute is one change of its record. -/
theorem chutesCarryItems : Obligations.ChutesCarryItems := by
  intro s k data ctl c x b it h o hr
  refine ⟨fun hv => updReady_gives hr (itemWrite_invalid hv), fun hv hh => ⟨fun hf => updReady_gives hr (itemWrite_overrun hv hh hf),
      fun hf hfl hd => updReady_gives hr (itemWrite_enters hv hh hf hfl hd)⟩,
    fun i l hi hh hrd hd hf => updReady_gives hr (itemRead_takes hi hh hrd hd hf), fun he => updReady_gives hr ((itemRead_empty he).trans ?_),
    readable_iff, fun hp => ?_, fun hp hk hm => ?_, fun hp => ⟨updReady_gives hr ?_, updReady_gives hr ?_⟩, fun hk => updReady_gives hr ?_⟩
  · exact modChute_congr rfl
  · refine ⟨flushChute c.val b, updReady_gives hr (by rw [hp]; rfl), fun j hj => modChute_chute_ne hj _ _, fun h0 => ?_, fun h0 => ?_, rfl⟩
    · rw [flushChute_chute, if_pos h0]
    · rw [flushChute_chute, if_neg h0]
  · have hnow : (modChute c.val (emptied c.val) b).chute c.val = emptied c.val (b.chute c.val) := modChute_chute_self _ _ _
    refine ⟨modChute c.val (emptied c.val) b, updReady_gives hr ?_, ?_, ?_, ?_, ?_, ?_, fun j hj => modChute_chute_ne hj _ _, rfl⟩
    · rw [show (x.priv && bindKind (s.blk.chute c.val) == 3) = true by simp [hp, show bindKind (s.blk.chute c.val) = 3 from hk]]
      exact flushNow_free hm
    all_goals rw [hnow]
    · rfl
    · rfl
    · rfl
    · rfl
    · simp only [emptied, Bool.and_eq_true, decide_eq_true_eq]
  · rw [hp]; rfl
  · rw [hp]; rfl
  · rw [show (x.priv && bindKind (s.blk.chute c.val) == 3) = false by simp [show bindKind (s.blk.chute c.val) ≠ 3 from hk]]
    rfl

end Sys2Proof.Machine
end


section
/-!
SUPPORT. Mover channels and the yard timers (R461 to R472).
-/

namespace Sys2Proof.Machine

open Sys2Proof

/-! ## Changes of one channel -/

theorem modMover_congr {m : Nat} {f g : Mover → Mover} {b : Block} (h : f (b.mover m) = g (b.mover m)) : modMover m f b = modMover m g b :=
  congrArg (fun t => { b with movers := t }) (Tab.mod_congr h)

theorem modMover_mover_ne {m k : Nat} (h : k ≠ m) (f : Mover → Mover) (b : Block) : (modMover m f b).mover k = b.mover k := Tab.get_mod_ne _ _ h

@[simp] theorem chanId_val (m : ChanId) : chanId m.val = m := Fin.ofNat_val_eq_self m

theorem mover_of_movers {b t : Block} (h : t.movers = b.movers) (m : Nat) : t.mover m = b.mover m := by rw [Block.mover, h]; rfl

theorem port_of_traffic {b t : Block} (h0 : t.dp0 = b.dp0) (h1 : t.dp1 = b.dp1) (h2 : t.rp = b.rp) (p : Port) : t.port p = b.port p := by
  cases p
  · exact h0
  · exact h1
  · exact h2

theorem offer_mover (p : Port) (rs : List Req) (b : Block) (m : Nat) : (offer p rs b).mover m = b.mover m := mover_of_movers (offer_movers _ _ _) m

/-! ## MOVER_CTRL (R466, R468, R471) -/

section
variable {b : Block} {m : Nat} {v : BitVec 32} {x : Sender}

theorem moverWrite_refused (h : x.priv = false ∨ ownChannel m = true) : moverWrite m x v b = b := by
  have hc : (x.priv && !ownChannel m) = false := by rcases h with h | h <;> simp [h]
  rw [moverWrite, hc]
  rfl

/-- The channel with MOVER_CTRL written. -/
def ctrlSet (m : Nat) (v : BitVec 32) (b : Block) : Block := modMover m (fun x => { x with ctrl := v &&& 0xF331 }) b

theorem moverWrite_eq (hp : x.priv = true) (ho : ownChannel m = false) (hv : v.toNat / 16 % 4 ≠ 3) : moverWrite m x v b =
    let b2 := if v.getLsbD 0 then (if (b.mover m).ctrl.getLsbD 0 then ctrlSet m v b else enableMover m (ctrlSet m v b))
      else if (b.mover m).ctrl.getLsbD 0 then disableMover m (ctrlSet m v b) else ctrlSet m v b
    if v.getLsbD 1 && v.getLsbD 0 then trigger m b2 else b2 := by
  rw [moverWrite, hp, ho, moverCtrl, if_neg hv]
  rfl

theorem moverWrite_enables (hp : x.priv = true) (ho : ownChannel m = false) (hv : v.toNat / 16 % 4 ≠ 3) (h0 : v.getLsbD 0 = true)
    (h1 : v.getLsbD 1 = false) (hc : (b.mover m).ctrl.getLsbD 0 = false) (hg : grantKind (b.mover m) ≠ 0) (hw : ownPending (moverReq m) b = 0) :
    moverWrite m x v b = modMover m (fun y => { y with
      ctrl := v &&& 0xF331, state := 1, pos := y.head, doneCount := 0, step := 0, waitEnable := false, ident := moverIdent b m }) b := by
  rw [moverWrite_eq hp ho hv, h0, h1, hc]
  show enableMover m (ctrlSet m v b) = _
  rw [enableMover, ctrlSet, modMover_modMover]
  refine modMover_congr ?_
  have hi : moverIdent (ctrlSet m v b) m = moverIdent b m := by
    rw [moverIdent, moverIdent, ctrlSet, modMover_mover_self]
    rfl
  refine (if_neg hg).trans ((if_pos hw).trans ?_)
  rw [ctrlSet] at hi
  rw [hi]

theorem trigger_starts (h : (b.mover m).state = 1) :
    trigger m b = wake (modMover m (fun y => { y with state := 2, step := 0, ran := false }) b) := by
  rw [trigger, decide_eq_true h, when_true]
  exact congrArg wake (modMover_congr (if_pos h))

theorem moverWrite_starts (hp : x.priv = true) (ho : ownChannel m = false) (hv : v.toNat / 16 % 4 ≠ 3) (h0 : v.getLsbD 0 = true)
    (h1 : v.getLsbD 1 = true) (hc : (b.mover m).ctrl.getLsbD 0 = true) (hs : (b.mover m).state = 1) :
    moverWrite m x v b = wake (modMover m (fun y => { y with ctrl := v &&& 0xF331, state := 2, step := 0, ran := false }) b) := by
  rw [moverWrite_eq hp ho hv, h0, h1, hc]
  show trigger m (ctrlSet m v b) = _
  rw [trigger_starts (by rw [ctrlSet, modMover_mover_self]; exact hs), ctrlSet, modMover_modMover]

theorem moverWrite_disables (hp : x.priv = true) (ho : ownChannel m = false) (hv : v.toNat / 16 % 4 ≠ 3) (h0 : v.getLsbD 0 = false)
    (hc : (b.mover m).ctrl.getLsbD 0 = true) : moverWrite m x v b = disableMover m (ctrlSet m v b) := by
  rw [moverWrite_eq hp ho hv, h0, hc, Bool.and_false]
  rfl

theorem releaseChutes_movers : (releaseChutes m b).movers = b.movers := by
  unfold releaseChutes
  cases moverIn (b.mover m).desc <;> cases moverOut (b.mover m).desc <;> dsimp only <;> repeat' split
  all_goals rfl

/-- A channel that names no chute has none to let go. -/
theorem releaseChutes_none (hi : moverIn (b.mover m).desc = none) (ho : moverOut (b.mover m).desc = none) : releaseChutes m b = b := by
  rw [releaseChutes, hi, ho]

theorem dropMover_mover (k : Nat) : (dropMover m b).mover k = b.mover k := by
  refine mover_of_movers ?_ k
  rw [dropMover, setPort_movers]

theorem disableMover_mover (k : Nat) : (disableMover m b).mover k = if k = m then { b.mover m with
    ctrl := (b.mover m).ctrl &&& 0xFFFFFFFE, state := 0, pendingTrig := false, waitEnable := false, step := 0, desc := {}, data := {}, buf := {}
    taken := [], eop := false, chuteErr := none, outRest := [], begun := false, issued := false, table := []
    pos := BitVec.ofNat 64 (Config.freeNat b.free), doneCount := Config.freeNat (b.free + 1) % 2 ^ 32 } else b.mover k := by
  have h : ∀ k, (freed (freed (dropMover m (releaseChutes m b)))).mover k = b.mover k := fun k =>
    (dropMover_mover k).trans (mover_of_movers releaseChutes_movers k)
  by_cases hk : k = m
  · subst hk
    rw [if_pos rfl, disableMover, modMover_mover_self, h]
  · rw [if_neg hk, disableMover, modMover_mover_ne hk, h]

theorem disableMover_waiting {r : Req} (h : r ∈ ((disableMover m b).port (moverPort m)).waiting) : moverReq m r.owner = false := by
  have hp : (disableMover m b).port (moverPort m) = (dropMover m (releaseChutes m b)).port (moverPort m) :=
    port_of_traffic (by simp only [disableMover, modMover_dp0, freed_dp0]) (by simp only [disableMover, modMover_dp1, freed_dp1])
      (by simp only [disableMover, modMover_rp, freed_rp]) _
  rw [hp, dropMover, setPort_port_self] at h
  simpa using (List.mem_filter.1 h).2

end

/-! ## Timer ticks (R466, R470) -/

section
variable {f : Nat → Block → Block}

/-- A loop over the channels, whose step for one changes that one alone, by what it finds of it. -/
theorem each_mover (hne : ∀ m k b, k ≠ m → (f m b).mover k = b.mover k)
    (hself : ∀ m b c, b.mover m = c.mover m → (f m b).mover m = (f m c).mover m) (n : Nat) (b : Block) (k : Nat) :
    (each (List.range n) f b).mover k = if k < n then (f k b).mover k else b.mover k := by
  induction n with
  | zero => rfl
  | succ n ih =>
    rw [List.range_succ, each_append]
    show (f n (each (List.range n) f b)).mover k = _
    by_cases hk : k = n
    · subst hk
      rw [if_pos (Nat.lt_succ_self k)]
      exact hself _ _ _ (ih.trans (if_neg (Nat.lt_irrefl k)))
    · rw [hne n k _ hk, ih]
      simp only [Nat.lt_succ_iff_lt_or_eq, hk, or_false]

end

/-- A channel that a timer or another channel triggers. -/
def triggered (x : Mover) : Mover :=
  if x.state = 1 then { x with state := 2, step := 0, ran := false }
  else if x.state = 2 then (if x.pendingTrig then { x with missed := satAdd 32 x.missed 1 } else { x with pendingTrig := true })
  else if x.state = 3 then { x with missed := satAdd 32 x.missed 1 } else x

/-- Whether a channel waits for timer `t`. -/
def waitsTimer (t : Nat) (x : Mover) : Bool := x.ctrl.toNat / 16 % 4 == 1 && x.ctrl.toNat / 256 % 4 == t

section
variable {m k : Nat} {b : Block} {t : Nat}

theorem trigger_eq : trigger m b = when ((b.mover m).state = 1) wake (modMover m triggered b) := rfl

theorem trigger_mover (k : Nat) : (trigger m b).mover k = (modMover m triggered b).mover k :=
  when_keeps (f := wake) (g := fun b => b.mover k) (fun _ => rfl) _ _

theorem trigger_mover_self : (trigger m b).mover m = triggered (b.mover m) := (trigger_mover m).trans (modMover_mover_self m _ b)

theorem trigger_mover_ne (h : k ≠ m) : (trigger m b).mover k = b.mover k := (trigger_mover k).trans (modMover_mover_ne h _ b)

/-- The step of a timer's tick for one channel. -/
def tickOne (t m : Nat) (b : Block) : Block := when (waitsTimer t (b.mover m)) (trigger m) b

theorem tickOne_mover_self : (tickOne t m b).mover m = if waitsTimer t (b.mover m) then triggered (b.mover m) else b.mover m := by
  rw [tickOne]
  cases waitsTimer t (b.mover m)
  · rfl
  · exact trigger_mover_self

theorem tickOne_mover_ne (h : k ≠ m) : (tickOne t m b).mover k = b.mover k := by
  rw [tickOne]
  exact when_keeps (g := fun b => b.mover k) (fun _ => trigger_mover_ne h) _ _

theorem tickOne_frame : (tickOne t m b).now = b.now ∧ (tickOne t m b).timers = b.timers := by
  rw [tickOne]
  cases waitsTimer t (b.mover m)
  · exact ⟨rfl, rfl⟩
  · rw [when_true, trigger_eq]
    cases decide ((b.mover m).state = 1) <;> exact ⟨rfl, rfl⟩

/-- The block at a timer's tick, before the channels are triggered. -/
def ticked (t : Nat) (b : Block) : Block :=
  let now := max b.now (b.timers.get t).2
  wakeYm (wake { b with now, timers := b.timers.mod t fun x => (x.1, now + x.1) })

theorem timerTick_eq : timerTick t b = each (List.range 16) (tickOne t) (ticked t b) := rfl

theorem timerTick_frame : (timerTick t b).now = max b.now (b.timers.get t).2
    ∧ (timerTick t b).timers.get t = ((b.timers.get t).1, max b.now (b.timers.get t).2 + (b.timers.get t).1) := by
  rw [timerTick_eq, each_keeps (g := Block.now) (fun _ _ => tickOne_frame.1), each_keeps (g := Block.timers) (fun _ _ => tickOne_frame.2)]
  exact ⟨rfl, Tab.get_mod_self _ _ _⟩

theorem timerTick_mover (n : ChanId) : (timerTick t b).mover n.val =
    if waitsTimer t (b.mover n.val) then triggered (b.mover n.val) else b.mover n.val := by
  rw [timerTick_eq, each_mover (fun m k b h => tickOne_mover_ne h)
    (fun m b c h => by rw [tickOne_mover_self, tickOne_mover_self, h]), if_pos n.isLt]
  exact tickOne_mover_self

end

/-! ## Walks and moves (R462 to R467) -/

/-- A channel's reads and writes, its identity being `id`. -/
abbrev channelReads (m : ChanId) (id : Ident) (o : Owner) (a : Addr) (off len : Nat) : List Req := readReqs o id 1 (41 + m.val) (pieces a off len)
abbrev channelWrites (m : ChanId) (id : Ident) (o : Owner) (a : Addr) (data : Bytes) : List Req :=
  writeReqs o id 1 (41 + m.val) 0 data (pieces a 0 data.length)

section
variable {b : Block} {m : ChanId}

theorem moverWalk_asks (hs : (b.mover m.val).state = 2) (h0 : (b.mover m.val).step = 0) (hw : mayWalk b m.val = true) : moverWalk m.val b =
    offer (moverPort m.val) (channelReads m (b.mover m.val).ident (.moverDesc m) (b.mover m.val).pos 0 64)
      (modMover m.val (fun y => { y with step := 1, buf := { want := 64 } }) b) := by
  simp only [moverWalk, hs, h0, hw, bne_self_eq_false, Bool.false_eq_true, if_false, if_true, when_true, moverRead, modMover_mover_self, chanId_val]

/-- Offers of a channel, one after the other: none is lost, and only the traffic of its port changes. -/
theorem each_offers {α : Type} {p : Port} {rs : α → Ident → List Req} (l : List α) (b : Block) :
    (each l (fun i b => offer p (rs i (b.mover m.val).ident) b) b).still = b.still
    ∧ (∀ r, Offered b p r → Offered (each l (fun i b => offer p (rs i (b.mover m.val).ident) b) b) p r)
    ∧ ∀ i ∈ l, ∀ r ∈ rs i (b.mover m.val).ident, Offered (each l (fun i b => offer p (rs i (b.mover m.val).ident) b) b) p r := by
  induction l generalizing b with
  | nil => exact ⟨rfl, fun _ h => h, fun i hi => absurd hi List.not_mem_nil⟩
  | cons i l ih =>
    obtain ⟨hstill, hkeep, hoffer⟩ := ih (offer p (rs i (b.mover m.val).ident) b)
    refine ⟨hstill.trans (offer_still _ _ _), fun r hr => hkeep r (offer_keeps hr), fun k hk r hr => ?_⟩
    obtain rfl | hk := List.mem_cons.1 hk
    · exact hkeep r (offer_offered hr)
    · exact hoffer k hk r (by rwa [offer_mover])

/-! The two halves of a move between areas of memory. -/

section
variable {mop : Byte} (hs : (b.mover m.val).state = 2) (h3 : (b.mover m.val).step = 3) (hm : (b.mover m.val).desc.mop = mop)
  (hi : moverIn (b.mover m.val).desc = none) (ho : moverOut (b.mover m.val).desc = none)

/-- The channel with the reads of its move issued. -/
def readsIssued (m : ChanId) (b : Block) : Block :=
  modMover m.val (fun y => { y with issued := true, data := { want := (b.mover m.val).desc.len } }) b

/-- The reads of grain `i` of an UNBRAID. -/
def grainReads (m : ChanId) (y : Mover) (i : Nat) (id : Ident) : List Req :=
  channelReads m id (.moverData m) (y.table.getD (i % y.desc.ways.toNat) 0 + BitVec.ofNat 64 (i / y.desc.ways.toNat * y.desc.grain))
    (i * y.desc.grain) (min y.desc.grain (y.desc.len - i * y.desc.grain))

/-- The write of grain `i` of a BRAID of `data`. -/
def grainWrites (m : ChanId) (y : Mover) (data : Bytes) (i : Nat) (id : Ident) : List Req :=
  channelWrites m id (.moverData m) (y.table.getD (i % y.desc.ways.toNat) 0 + BitVec.ofNat 64 (i / y.desc.ways.toNat * y.desc.grain))
    (slice data (i * y.desc.grain) (min y.desc.grain (y.desc.len - i * y.desc.grain)))

include hs h3 hm hi ho

theorem moveStep_reads (hn : (b.mover m.val).issued = false) : moveStep mop m.val b =
    if mop == 3 then each (grains (b.mover m.val).desc)
      (fun i t => offer (moverPort m.val) (grainReads m (b.mover m.val) i (t.mover m.val).ident) t) (readsIssued m b)
    else offer (moverPort m.val) (channelReads m (b.mover m.val).ident (.moverData m) (b.mover m.val).desc.src 0 (b.mover m.val).desc.len)
      (readsIssued m b) := by
  simp only [moveStep, hs, h3, hm, hi, ho, hn, bne_self_eq_false, Bool.or_self, Bool.false_eq_true, if_false, Bool.not_false, if_true, chuteReady,
    Bool.and_self, when_true, takeChute, moverReads, Option.isSome_none, moverRead, chanId_val, modMover_mover_self]
  rfl

theorem moveStep_writes (hn : (b.mover m.val).issued = true) (hf : (b.mover m.val).data.full = true) (he : (b.mover m.val).data.err = false)
    (hc : (b.mover m.val).chuteErr = none) : moveStep mop m.val b =
      moverEnds m.val .done (b.mover m.val).desc.len (moverWrites m.val
        (fit (roundUp (b.mover m.val).data.bytes.length 64) (b.mover m.val).data.bytes) b) := by
  simp only [moveStep, hs, h3, hm, hi, ho, hn, hf, he, hc, bne_self_eq_false, Bool.or_self, Bool.false_eq_true, if_false, Bool.not_true,
    moverSrcDone, Option.isSome_none, when_true, moverOutput]

end

theorem moverEnds_still (n : Nat) (st : Status) (k : Nat) (b : Block) : (moverEnds n st k b).still = moverEnds n st k b.still := rfl

theorem moverWrites_eq (data : Bytes) : moverWrites m.val data b =
    if (b.mover m.val).desc.mop == 2 then each (grains (b.mover m.val).desc)
      (fun i t => offer (moverPort m.val) (grainWrites m (b.mover m.val) data i (t.mover m.val).ident) t) b
    else offer (moverPort m.val) (channelWrites m (b.mover m.val).ident (.moverData m) (b.mover m.val).desc.dst data) b := by
  simp only [moverWrites, moverPut, chanId_val]
  rfl

/-! The end of a descriptor. -/

section
variable (hs : (b.mover m.val).state = 2) (hw : ownPending (fun o => o == .moverData m || o == .moverStatus m) b = 0)
include hs hw

theorem moverDescEnd_status (h4 : (b.mover m.val).step = 4) : moverDescEnd m.val b =
    offer (moverPort m.val) (channelWrites m (b.mover m.val).ident (.moverStatus m) ((b.mover m.val).pos + 48) (statusBytes (b.mover m.val)))
      (modMover m.val (fun y => { y with step := 5 }) b) := by
  simp only [moverDescEnd, hs, hw, h4, chanId_val, bne_self_eq_false, Bool.or_self, Bool.false_eq_true, if_false, if_true, moverPut,
    modMover_mover_self]

variable (h5 : (b.mover m.val).step = 5) (hi : moverIn (b.mover m.val).desc = none) (ho : moverOut (b.mover m.val).desc = none)
include h5 hi ho

theorem moverDescEnd_next (hd : (b.mover m.val).mstatus = .done) (hn : (b.mover m.val).desc.next ≠ 0)
    (hf : (b.mover m.val).desc.mflags.getLsbD 2 = false) : moverDescEnd m.val b =
      modMover m.val (fun y => { y with doneCount := satAdd 32 y.doneCount 1, pos := (b.mover m.val).desc.next, step := 0 }) b := by
  have h0 : ((b.mover m.val).desc.next == 0) = false := beq_eq_false_iff_ne.2 hn
  simp only [moverDescEnd, hs, hw, h5, chanId_val, bne_self_eq_false, Bool.or_self, Bool.false_eq_true, if_false, if_true, Nat.reduceEqDiff,
    moverNext, releaseChutes_none hi ho, hd, h0, hf, modMover_modMover]

theorem moverDescEnd_halts (hd : (b.mover m.val).mstatus ≠ .done) : moverDescEnd m.val b =
    withEvent evMoverHalted (toLe 1 m.val ++ toLe 2 (b.mover m.val).mstatus.code)
      (modMover m.val (fun y => { y with state := 3, step := 0, pendingTrig := false }) b) := by
  have h0 : ((b.mover m.val).mstatus != .done) = true := bne_iff_ne.2 hd
  simp only [moverDescEnd, hs, hw, h5, chanId_val, bne_self_eq_false, Bool.or_self, Bool.false_eq_true, if_false, if_true, Nat.reduceEqDiff,
    moverNext, releaseChutes_none hi ho, h0]
  rfl

end

end

theorem enable_bit0 (v : BitVec 32) : (v ||| 1).getLsbD 0 = true := by simp
theorem enable_bit1 (v : BitVec 32) : (v ||| 1).getLsbD 1 = v.getLsbD 1 := by simp
theorem start_bit0 (v : BitVec 32) : (v ||| 2).getLsbD 0 = v.getLsbD 0 := by simp
theorem start_bit1 (v : BitVec 32) : (v ||| 2).getLsbD 1 = true := by simp
theorem disable_bit0 (v : BitVec 32) : (v &&& 0xFFFFFFFE).getLsbD 0 = false := by simp

theorem waitsTimer_iff (t : Nat) (x : Mover) :
    waitsTimer t x = true ↔ x.ctrl.toNat / 16 % 4 = 1 ∧ x.ctrl.toNat / 256 % 4 = t := by
  simp [waitsTimer]

theorem length_statusBytes (y : Mover) : (statusBytes y).length = 16 := by simp [statusBytes, zeros]

/-- Settles O52: a write of MOVER_CTRL, a tick, and each step of a walk is one change of a channel's record, with its requests. -/
theorem moverChannelsWalkAndMove : Obligations.MoverChannelsWalkAndMove := by
  intro s m v x k b y d p hr hh
  refine ⟨fun h => ⟨updOn_gives hr hh (moverWrite_refused h), updOn_gives hr hh (moverWrite_refused h), updOn_gives hr hh (moverWrite_refused h)⟩,
    fun hp ho => ⟨fun hv h1 hc hg hw => ?_, fun hv hc hs => ?_, fun hv hc => ?_⟩, ?_, fun hs h0 hw => updOn_sends hr hh rfl (moverWalk_asks hs h0 hw),
    fun hs h3 hi ho q hq hm => ⟨fun hn => ?_, fun hn hf he hc hl => ?_⟩, fun hs hw => ⟨fun h4 => ?_, fun h5 hi ho hd hn hf => ?_, fun h5 hi ho hd => ?_⟩⟩
  · exact updOn_gives hr hh (moverWrite_enables hp ho hv (enable_bit0 v) ((enable_bit1 v).trans h1) hc hg hw)
  · refine updOn_gives hr hh ((moverWrite_starts hp ho hv ((start_bit0 _).trans hc) (start_bit1 _) hc hs).trans ?_)
    exact congrArg wake (modMover_congr rfl)
  · have hself : ∀ n, (ctrlSet m.val (y.ctrl &&& 0xFFFFFFFE) b).mover n = if n = m.val then { y with ctrl := y.ctrl &&& 0xFFFFFFFE &&& 0xF331 } else b.mover n := by
      intro n
      by_cases hn : n = m.val
      · rw [if_pos hn, hn, ctrlSet, modMover_mover_self]
      · rw [if_neg hn, ctrlSet, modMover_mover_ne hn]
    refine ⟨_, updOn_gives hr hh (moverWrite_disables hp ho hv (disable_bit0 _) hc), ?_, ?_, ?_, ?_, fun r hr => disableMover_waiting hr, fun n hn => ?_⟩
    · rw [disableMover_mover, if_pos rfl]
    · rw [disableMover_mover, if_pos rfl]
      exact disable_bit0 _
    · rw [disableMover_mover, if_pos rfl, hself, if_pos rfl]
    · rw [disableMover_mover, if_pos rfl, hself, if_pos rfl]
    · rw [disableMover_mover, if_neg hn, hself, if_neg hn]
  · obtain ⟨hnow, htimer⟩ := timerTick_frame (t := k.val) (b := b)
    refine ⟨timerTick k.val b, updOn_gives hr hh rfl, hnow, by rw [htimer, hnow], fun n => ?_⟩
    intro z mine
    have hz := timerTick_mover (t := k.val) (b := b) n
    refine ⟨fun hn => ?_, fun hy hs => ?_, fun hy hs hpt => ?_⟩
    · rw [hz, if_neg (fun h => hn ((waitsTimer_iff _ _).1 h))]
    · rw [hz, if_pos ((waitsTimer_iff _ _).2 hy)]
      exact if_pos hs
    · rw [hz, if_pos ((waitsTimer_iff _ _).2 hy)]
      refine (if_neg (by rw [hs]; decide)).trans ((if_pos hs).trans (if_neg ?_))
      rw [show (s.blk.mover n.val).pendingTrig = false from hpt]
      decide
  · have hstep : ∀ {t : Block}, moveStep q.1 m.val b = t → Gives q.2 s t := by
      intro t ht
      simp only [List.mem_cons, List.not_mem_nil, or_false] at hq
      obtain rfl | rfl | rfl := hq <;> exact updOn_gives hr hh ht
    have hreads := moveStep_reads hs h3 hm hi ho hn
    by_cases h3 : q.1 = 3
    · rw [if_pos (beq_iff_eq.2 h3)] at hreads
      obtain ⟨hstill, -, hoffer⟩ := each_offers (m := m) (p := p) (rs := grainReads m y) (grains d) (readsIssued m b)
      refine ⟨_, hstep hreads, hstill, fun hne => absurd (hm.trans h3) hne, fun _ i hi r hr => hoffer i hi r ?_⟩
      rwa [readsIssued, modMover_mover_self]
    · rw [if_neg (fun h => h3 (beq_iff_eq.1 h))] at hreads
      exact ⟨_, hstep hreads, offer_still _ _ _, fun _ r hr => offer_offered hr, fun he => absurd (hm.symm.trans he) h3⟩
  · have hstep : ∀ {t : Block}, moveStep q.1 m.val b = t → Gives q.2 s t := by
      intro t ht
      simp only [List.mem_cons, List.not_mem_nil, or_false] at hq
      obtain rfl | rfl | rfl := hq <;> exact updOn_gives hr hh ht
    have hwrites := moveStep_writes hs h3 hm hi ho hn hf he hc
    rw [moverWrites_eq] at hwrites
    by_cases h2 : d.mop = 2
    · rw [if_pos (beq_iff_eq.2 h2)] at hwrites
      obtain ⟨hstill, -, hoffer⟩ := each_offers (m := m) (p := p)
        (rs := grainWrites m y (fit (roundUp y.data.bytes.length 64) y.data.bytes)) (grains d) b
      refine ⟨_, hstep hwrites, ?_, fun hne => absurd h2 hne, fun _ i hi => ?_⟩
      · exact (moverEnds_still _ _ _ _).trans (congrArg (moverEnds m.val .done d.len) hstill)
      · exact fun r hr => offered_of_port (port_of_traffic rfl rfl rfl _) (hoffer i hi r hr)
    · rw [if_neg (fun h => h2 (beq_iff_eq.1 h))] at hwrites
      refine ⟨_, hstep hwrites, ?_, fun _ r hr => ?_, fun he => absurd he h2⟩
      · exact (moverEnds_still _ _ _ _).trans (congrArg (moverEnds m.val .done d.len) (offer_still _ _ _))
      · refine offered_of_port (port_of_traffic rfl rfl rfl _) (offer_offered ?_)
        rwa [channelWrites, length_fit]
  · refine updOn_sends hr hh rfl ((moverDescEnd_status hs hw h4).trans ?_)
    rw [channelWrites, length_statusBytes]
    rfl
  · exact updOn_gives hr hh (moverDescEnd_next hs hw h5 hi ho hd hn hf)
  · exact updOn_gives hr hh (moverDescEnd_halts hs hw h5 hi ho hd)

end Sys2Proof.Machine
end


section
/-!
SUPPORT. The tack room's own work: grooming, integrity sweeps, orphans, the keyed-digest caches (R188, R189, R192, R279).
-/

namespace Sys2Proof.Machine

open Sys2Proof

/-! ## A body that changes the block at one place of a list -/

/-- When the body changes the block only for `u`, and nothing once `u` has been handled, running it over a list that holds `u` is running it
for `u`. -/
theorem each_once {α : Type} {l : List α} {f : α → Block → Block} {b : Block} {u : α} (hu : u ∈ l)
    (hb : ∀ x ∈ l, x ≠ u → f x b = b) (ha : ∀ x ∈ l, f x (f u b) = f u b) : each l f b = f u b := by
  obtain ⟨m, k, rfl⟩ := List.append_of_mem hu
  by_cases hm : u ∈ m
  · obtain ⟨m1, m2, rfl, hn⟩ := List.eq_append_cons_of_mem hm
    rw [List.append_assoc, each_append, each_kept fun x hx => hb x (by simp [hx]) fun h => hn (h ▸ hx), List.cons_append, each_cons]
    exact each_kept fun x hx => ha x (by simp only [List.mem_append, List.mem_cons] at hx ⊢; tauto)
  · rw [each_append, each_kept fun x hx => hb x (by simp [hx]) fun h => hm (h ▸ hx), each_cons]
    exact each_kept fun x hx => ha x (by simp [hx])

/-- The members of a list that pass a test only `k` passes. -/
theorem filter_range_single {n k : Nat} {p : Nat → Bool} (hk : k < n) (hp : p k = true) (h : ∀ i, i < n → i ≠ k → p i = false) :
    (List.range n).filter p = [k] := by
  have hc : ∀ i ∈ List.range n, p i = (i == k) := fun i hi => by
    by_cases hik : i = k
    · rw [hik, hp, BEq.rfl]
    · rw [h i (List.mem_range.1 hi) hik, beq_eq_false_iff_ne.2 hik]
  rw [List.filter_congr hc, List.filter_beq, List.count_eq_one_of_mem List.nodup_range (List.mem_range.2 hk)]
  rfl

/-! ## Grooming (R188) -/

/-- A mask at least as long as the value cancels. -/
theorem xorBytes_cancel_le {x m : Bytes} (h : x.length ≤ m.length) : xorBytes (xorBytes x m) m = x := by
  have hx : xorBytes x m = xorBytes x (m.take x.length) := by
    rw [xorBytes, xorBytes, List.zipWith_eq_zipWith_take_min, Nat.min_eq_left h, List.take_length]
  have hx2 : ∀ y : Bytes, y.length = x.length → xorBytes y m = xorBytes y (m.take x.length) := fun y hy => by
    rw [xorBytes, xorBytes, List.zipWith_eq_zipWith_take_min, hy, Nat.min_eq_left h, ← hy, List.take_length]
  have hl : x.length = (m.take x.length).length := by simp [h]
  rw [hx, hx2 _ (by rw [length_xorBytes, ← hl, Nat.min_self]), xorBytes_cancel hl]

theorem groom_slot (b : Block) (k : Nat) : (groom b).slot k = (modSlot b.tack.groomPos
    (fun s => { s with material := xorBytes (xorBytes s.material s.mask) (drbgNow b 64), mask := drbgNow b 64 }) b).slot k := by
  unfold groom
  dsimp only
  split <;> rfl

theorem groom_pos {b : Block} (h : b.tack.groomPos < 8192) : (groom b).tack.groomPos = (b.tack.groomPos + 1) % 8192 := by
  unfold groom
  dsimp only
  split
  · rename_i he
    rw [he]
    rfl
  · show b.tack.groomPos + 1 = _
    omega

theorem modSlot_slot_ne {i k : Nat} (h : k ≠ i) (f : Slot → Slot) (b : Block) : (modSlot i f b).slot k = b.slot k := Tab.get_mod_ne _ _ h

/-! ## Tags under an unchanged barn key (R163, R189) -/

theorem skTagOk_congr {b t : Block} {n : Nat} (hk : barnKey t = barnKey b) (hs : t.sk n = b.sk n) : skTagOk t n = skTagOk b n := by
  rw [skTagOk, skTagOk, hk, hs, slotTag, slotTag, hk]

theorem sysTag_congr {b t : Block} {i : Nat} (hk : barnKey t = barnKey b) (x : Bytes) : sysTag t i x = sysTag b i x := by
  unfold sysTag slotTag
  split
  · rw [barnKey, barnKey]
    show kmac256 ((t.tack.sys.set 0 _).get 0).content _ _ _ = kmac256 ((b.tack.sys.set 0 _).get 0).content _ _ _
    rw [Tab.get_set_self, Tab.get_set_self]
  · rw [hk]

theorem sysTagOk_congr {b t : Block} {i : Nat} (hk : barnKey t = barnKey b) (hs : t.tack.sys.get i = b.tack.sys.get i) :
    sysTagOk t i = sysTagOk b i := by
  rw [sysTagOk, sysTagOk, hs, sysTag_congr hk]

theorem setSys_ne {i k : Nat} (h : k ≠ i) (x : Bytes) (b : Block) : (setSys i x b).tack.sys.get k = b.tack.sys.get k := Tab.get_set_ne _ _ h

/-- A content written other than the barn key's carries its tag. -/
theorem setSys_ok {i : Nat} (h : i ≠ 0) (x : Bytes) (b : Block) : sysTagOk (setSys i x b) i = true := by
  have hs : (setSys i x b).tack.sys.get i = if x == [] then {} else { content := x, tag := sysTag b i x } := Tab.get_set_self _ _ _
  have hk : barnKey (setSys i x b) = barnKey b := congrArg SysSlot.content (setSys_ne (Ne.symm h) x b)
  rw [sysTagOk, hs, sysTag_congr hk]
  split
  · rfl
  · exact Bool.or_eq_true_iff.2 (.inr (beq_iff_eq.2 rfl))

theorem barnKey_setSys {i : Nat} (h : i ≠ 0) (x : Bytes) (b : Block) : barnKey (setSys i x b) = barnKey b :=
  congrArg SysSlot.content (setSys_ne (Ne.symm h) x b)

/-! ## The integrity sweep (R189) -/

section
variable {b : Block} {up : List (Fin 528)}

theorem sweepStallKey_sound {n : Nat} (hu : up.any (fun i => i.val == n) = false) (h : (b.sk n).state = 2 ∨ skTagOk b n = true) :
    sweepStallKey up n b = b := by
  rw [sweepStallKey, hu]
  obtain h | h := h
  · rw [h]
    rfl
  · rw [h, Bool.not_true, Bool.or_false, Bool.and_false]
    rfl

theorem redrawState_drawn (h : (b.tack.sys.get 2).bad = false ∨ noEntropy b = true) : redrawState b = b := by
  refine if_neg ?_
  obtain h | h := h
  · simp [h]
  · simp [h]

theorem sysFailing_none (h : ∀ k, k < 16 → (b.tack.sys.get k).bad = true ∨ sysTagOk b k = true) (hu : ∀ k, k < 16 →
    up.any (fun i => i.val == 512 + k) = false) : sysFailing up b = [] := by
  refine List.filter_eq_nil_iff.2 fun k hk => ?_
  have hk := List.mem_range.1 hk
  rw [hu k hk]
  obtain h | h := h k hk
  · simp [h]
  · simp [h]

section
variable (hbarn : barnHeld b = true) (ha : anyHold b = false) (hp : b.boot.entropyPaused = false)
include hbarn ha hp

theorem integritySweep_sweeps {t : Block} (ht : each (sysFailing up (redrawState b)) (sweepSystem []) (redrawState b) = t) :
    integritySweep up [] b = each (List.range 512) (sweepStallKey up) t := by
  rw [integritySweep, tackFree, hbarn, ha, hp, ← ht]
  rfl

/-- A sweep of a block whose stall-key slots all carry their tags. -/
theorem integritySweep_system {t : Block} (ht : each (sysFailing up (redrawState b)) (sweepSystem []) (redrawState b) = t)
    (hs : ∀ n, n < 512 → sweepStallKey up n t = t) : integritySweep up [] b = t := by
  rw [integritySweep_sweeps hbarn ha hp ht]
  exact each_kept fun n hn => hs n (List.mem_range.1 hn)

end

theorem upset_other {u : Fin 528} {k : Nat} (h : u.val ≠ k) : [u].any (fun i => i.val == k) = false := by
  simpa using h

theorem upset_self (u : Fin 528) : [u].any (fun i => i.val == u.val) = true := by simp

/-- The slot whose bits have changed is marked BAD. -/
theorem sweepStallKey_upset {u : Fin 528} (ha : anyHold b = false) (h : (b.sk u.val).state ≠ 2) : sweepStallKey [u] u.val b
    = withEvent evSlotBad (toLe 1 1 ++ toLe 2 u.val) (modSk u.val (fun k => { k with state := 2 }) b) := by
  rw [sweepStallKey, upset_self, bne_iff_ne.2 h]
  show raise _ _ (when (!anyHold b) _ b) = _
  rw [ha]
  exact raise_withEvent _ _ _

/-- A system slot that a sweep finds changed, in a block without a hold. -/
theorem sysFailed_bad {k : Nat} (ha : anyHold b = false) (h : 5 ≤ k) : sysFailed false k b
    = modTack (fun t => { t with sys := t.sys.set k { b.tack.sys.get k with bad := true } }) (withEvent evSlotBad (toLe 1 2 ++ toLe 2 k) b) := by
  simp [sysFailed, ha, h, raise_withEvent]

theorem sysFailed_derived {k : Nat} {x : Bytes} (ha : anyHold b = false) (h : k < 5) (h2 : k ≠ 2) (hx : sysOf b k = some x) :
    sysFailed false k b = setSys k x (withEvent evSlotBad (toLe 1 2 ++ toLe 2 k) b) := by
  simp [sysFailed, ha, hx, h2, Nat.not_le.2 h, raise_withEvent]

theorem sysFailed_state {x : Bytes} (ha : anyHold b = false) (he : noEntropy b = false) (hx : sysOf b 2 = some x) :
    sysFailed false 2 b = drew (setSys 2 x (withEvent evSlotBad (toLe 1 2 ++ toLe 2 2) b)) := by
  simp [sysFailed, ha, he, hx, raise_withEvent]

end

/-! ## Orphans (R192) -/

theorem genRose_slot (i k : Nat) (b : Block) : (genRose i b).slot k = b.slot k := rfl

/-- An orphan of one slot. -/
theorem sweepOrphan_one {b : Block} {n : Nat} (h : (b.slot n).runLen = 1) : sweepOrphan n b
    = modSlot n (fun s => { s with kflags := kOrphaned }) (genRose n (modSlot n clearedSlot b)) := by
  rw [sweepOrphan, dropKey, h]
  rfl

/-! ## Masks of the keyed-digest cache (R279) -/

theorem remaskEnt_names (m : Bytes) (e : CacheEnt) :
    (remaskEnt m e).slot = e.slot ∧ (remaskEnt m e).gen = e.gen ∧ (remaskEnt m e).alg = e.alg := ⟨rfl, rfl, rfl⟩

theorem remaskEnt_mask (m : Bytes) (e : CacheEnt) : (remaskEnt m e).mask = fit e.mask.length m := rfl

theorem cacheRemask_cache {i : Nat} {b : Block} (h : noEntropy b = false) : ((cacheRemask i b).islands.get i).cache
    = (b.islands.get i).cache.mapIdx fun k e => remaskEnt (Config.drbg (b.draws + k) 128) e := by
  rw [cacheRemask, h]
  exact congrArg DigestIsland.cache (Tab.get_mod_self _ _ _)

theorem remaskEnt_value (m : Bytes) {e : CacheEnt} (h : e.share.length = e.mask.length) :
    xorBytes (remaskEnt m e).share (remaskEnt m e).mask = xorBytes e.share e.mask :=
  xorBytes_cancel (by simp [length_xorBytes, h])

/-- Settles O54: each upkeep operation by what it does to the slots, and by the tags it finds right. -/
theorem tackRoomTendsItself : Obligations.TackRoomTendsItself := by
  intro s d n b cs hr
  refine ⟨fun hh ha he hg hl => ?_, fun hh hbarn ha hp => ?_, fun hh ha => ⟨fun ho => ?_, fun ho hrun => ?_⟩, fun hh => ⟨?_, ?_⟩⟩
  · have hne : noEntropy b = false := by rw [noEntropy, he.1, he.2]; rfl
    have ht : tackFree b = true := by rw [tackFree, ha, he.2]; rfl
    refine ⟨groom b, updOn_gives hr hh (by rw [ht, hne]; rfl), fun k => ?_, ?_, groom_pos hg, fun k hk => ?_⟩
    · rw [groom_slot]
      by_cases hk : k = b.tack.groomPos
      · rw [hk, modSlot_slot_self]
        obtain ⟨h1, h2⟩ := hl b.tack.groomPos
        exact xorBytes_cancel_le (by rw [length_xorBytes, length_drbgNow, h1]; omega)
      · rw [modSlot_slot_ne hk]
    · rw [groom_slot, modSlot_slot_self]
    · rw [groom_slot, modSlot_slot_ne hk]
  · intro sound drawn
    have hsks : ∀ {m : Nat} {up : List (Fin 528)} {t : Block}, sound m → 512 ≤ m → (∀ k, k < 512 → up.any (fun i => i.val == k) = false) →
        barnKey t = barnKey b → (∀ k, t.sk k = b.sk k) → ∀ k, k < 512 → sweepStallKey up k t = t := by
      intro m up t hm h5 hu hk hs k hk5
      refine sweepStallKey_sound (hu k hk5) ?_
      rw [hs, skTagOk_congr hk (hs k)]
      exact hm.1 k hk5 (by omega)
    refine ⟨fun hs hd => ?_, fun x hs hb2 hne hx => ?_, fun u hs hd => ⟨fun hu h2 => ?_, fun k hu hbad hc => ?_⟩⟩
    · refine updOn_gives hr hh (integritySweep_system hbarn ha hp ?_ (hsks hs (by decide) (fun _ _ => rfl) rfl fun _ => rfl))
      rw [redrawState_drawn hd, sysFailing_none (fun k hk => hs.2 k hk (by omega)) fun _ _ => rfl]
      rfl
    · have hre : redrawState b = drew (setSys 2 x b) := by
        rw [redrawState, hb2, hne, ha]
        show (match sysOf b 2 with | some x => drew (setSys 2 x b) | none => b) = _
        rw [hx]
      have hkey : barnKey (drew (setSys 2 x b)) = barnKey b := barnKey_setSys (by decide) x b
      refine updOn_gives hr hh (integritySweep_system hbarn ha hp ?_ (hsks hs (by decide) (fun _ _ => rfl) hkey fun _ => rfl))
      rw [hre, sysFailing_none (fun k hk => ?_) fun _ _ => rfl]
      · rfl
      · by_cases hk2 : k = 2
        · rw [hk2]
          exact .inr (setSys_ok (by decide) x b)
        · have hget : (drew (setSys 2 x b)).tack.sys.get k = b.tack.sys.get k := setSys_ne hk2 x b
          rw [sysTagOk_congr hkey hget, hget]
          exact hs.2 k hk (by omega)
    · have hsys : each (sysFailing [u] (redrawState b)) (sweepSystem []) (redrawState b) = b := by
        rw [redrawState_drawn hd, sysFailing_none (fun k hk => hs.2 k hk (by omega)) fun k hk => upset_other (by omega)]
        rfl
      refine updOn_gives hr hh ?_
      rw [integritySweep_sweeps hbarn ha hp hsys, ← sweepStallKey_upset ha h2]
      have hsk : ∀ k, k ≠ u.val → (sweepStallKey [u] u.val b).sk k = b.sk k := fun k hk => by
        rw [sweepStallKey_upset ha h2]
        exact modSk_sk_ne hk _ b
      refine each_once (List.mem_range.2 hu) (fun k hk hku => ?_) fun k hk => ?_
      · exact sweepStallKey_sound (upset_other (Ne.symm hku)) (hs.1 k (List.mem_range.1 hk) hku)
      · by_cases hku : k = u.val
        · rw [hku]
          have h2 : ((sweepStallKey [u] u.val b).sk u.val).state = 2 := by
            rw [sweepStallKey_upset ha h2]
            exact congrArg StallKey.state (modSk_sk_self _ _ _)
          rw [sweepStallKey, h2]
          rfl
        · have hkey : barnKey (sweepStallKey [u] u.val b) = barnKey b := by
            rw [sweepStallKey_upset ha h2]
            rfl
          refine sweepStallKey_sound (upset_other (Ne.symm hku)) ?_
          rw [hsk k hku, skTagOk_congr hkey (hsk k hku)]
          exact hs.1 k (List.mem_range.1 hk) hku
    · intro e
      have hu16 : k < 16 := by have := u.isLt; omega
      have hfail : sysFailing [u] (redrawState b) = [k] := by
        rw [redrawState_drawn hd]
        refine filter_range_single hu16 ?_ fun i hi hik => ?_
        · simp [hbad, hu, Nat.add_comm]
        · rw [upset_other (by omega)]
          obtain h | h := hs.2 i hi (by omega)
          · simp [h]
          · simp [h]
      have hsys : each (sysFailing [u] (redrawState b)) (sweepSystem []) (redrawState b) = sysFailed false k b := by
        rw [hfail, redrawState_drawn hd, each_cons, each_nil, sweepSystem, beq_eq_false_iff_ne.2 hc]
        rfl
      have hup : ∀ i, i < 512 → [u].any (fun x => x.val == i) = false := fun i hi => upset_other (by omega)
      have hgive : ∀ t, sysFailed false k b = t → (∀ i, i < 512 → sweepStallKey [u] i t = t) → Gives (.slotIntegritySweep [u] []) s t :=
        fun t ht hk => updOn_gives hr hh (integritySweep_system hbarn ha hp (hsys.trans ht) hk)
      have hm : 512 ≤ u.val := by omega
      refine ⟨fun h5 => ?_, fun x h5 h2 hx h0 => ?_, fun x h2 he hx => ?_⟩
      · refine hgive _ (sysFailed_bad ha h5) (hsks hs hm hup ?_ fun _ => rfl)
        exact congrArg SysSlot.content (Tab.get_set_ne _ _ (show (0 : Nat) ≠ k by omega))
      · refine hgive _ (sysFailed_derived ha h5 h2 hx) ?_
        by_cases hk0 : k = 0
        · subst hk0
          exact fun i hi => sweepStallKey_sound (hup i hi) (h0 rfl i hi)
        · exact hsks hs hm hup (barnKey_setSys hk0 x _) fun _ => rfl
      · subst h2
        have hkey : barnKey (drew (setSys 2 x e)) = barnKey e := barnKey_setSys (by decide) x e
        have hne : noEntropy b = false := by
          rw [noEntropy, he.1, he.2]
          rfl
        exact hgive _ (sysFailed_state ha hne hx) (hsks hs hm hup (hkey.trans rfl) fun _ => rfl)
  · refine updOn_gives hr hh ?_
    rw [ha, ho]
    rfl
  · refine ⟨sweepOrphan n b, updOn_gives hr hh (by rw [ha, ho]; rfl), ?_, fun k hk => ?_⟩
    · rw [sweepOrphan_one hrun, modSlot_slot_self, genRose_slot, modSlot_slot_self]
      rfl
    · rw [sweepOrphan_one hrun, modSlot_slot_ne hk, genRose_slot, modSlot_slot_ne hk]
  · exact updOn_gives (f := cachePurge d.val) hr hh rfl
  · refine ⟨cacheRemask d.val b, updOn_gives (f := cacheRemask d.val) hr hh rfl, ?_⟩
    cases hne : noEntropy b
    · rw [cacheRemask_cache hne]
      refine ⟨List.length_mapIdx, fun k e he hl => ?_⟩
      obtain ⟨h1, h2, h3⟩ := remaskEnt_names (Config.drbg (b.draws + k) 128) e
      exact ⟨_, by rw [List.getElem?_mapIdx, he, Option.map_some], h1, h2, h3, remaskEnt_value _ hl, fun _ => remaskEnt_mask _ e⟩
    · have ht : cacheRemask d.val b = b := by rw [cacheRemask, hne]; rfl
      rw [ht]
      refine ⟨rfl, fun k e he hl => ⟨e, he, rfl, rfl, rfl, rfl, fun h => ?_⟩⟩
      rw [noEntropy, h.1, h.2] at hne
      exact absurd hne (by decide)

end Sys2Proof.Machine
end


section
/-!
SUPPORT. The place a command takes among the dictionary operations (R423, R425).
-/

namespace Sys2Proof.Machine

open Sys2Proof

/-- An OD_READ of one item, and an OD_WRITE of none. -/
def readOne : Cmd := readCommand 0x0501 (toLe 2 1 ++ zeros 6 ++ toLe 4 0x10000000)
def writeNone : Cmd := readCommand 0x0502 (zeros 32)

/-- The operation codes of the command list's entries. -/
def cmdOps (b : Block) : List Nat := b.ym.cmds.map fun e => e.2.op

theorem readOne_turn : Turn (twiceNumbered readOne writeNone) 3 readOne 0x0501 := by decide +kernel

/-- Taking a place leaves every entry of the number its own code. -/
theorem takeTurn_ops : cmdOps (takeTurn 3 (twiceNumbered readOne writeNone).blk) = [0x0501, 0x0502] := by decide +kernel

/-- Refutes O55: its clause on OD_READ says that taking a place writes the whole command that runs to every entry of its number, where the
model writes the place alone. With two received commands of one number, an OD_READ before an OD_WRITE, the second keeps its code in the model
and loses it in the clause. -/
theorem not_serviceCommandsReport : ¬ Obligations.ServiceCommandsReport := by
  intro h
  obtain ⟨-, -, -, -, -, -, -, -, -, -, -, -, -, -, -, hread, -⟩ := h (twiceNumbered readOne writeNone) 3 readOne
  obtain ⟨hplace, -⟩ := hread readOne_turn
  have hops := takeTurn_ops
  rw [hplace rfl] at hops
  revert hops
  decide +kernel

end Sys2Proof.Machine
end


section
/-!
SUPPORT. Writes to a register of a full inbound half (R377, R379).
-/

namespace Sys2Proof.Machine

open Sys2Proof

/-- A served block whose first two pairs hold a notice each, the later pair first in the table. -/
def fullPairs : State :=
  { blk :=
      { boot := { step := 10, ready := true }
        ym := { pairs := { dflt := {}, ents := [(1, { inFull := true }), (0, { inFull := true })] } } } }

def anyManager : Sender := { rid := 7, priv := true, port := .a }

/-- The pairs in the order of the table. -/
def pairOrder (b : Block) : List Nat := b.ym.pairs.ents.map Prod.fst

/-- The write itself puts the pair in its place in the table. -/
theorem fullPairs_write : pairOrder (mpRequest 1 anyManager (.registerWrite 0x0400 0 anyManager true)
    (registerAccess 0x0400 0 anyManager true) fullPairs.blk) = [0, 1] := by decide +kernel

/-- Refutes O56: its clause on a register of a full inbound half says that the write leaves the table of pairs as it is. The model writes the
pair's own value back, which puts it at its place among the keys: with the pairs 1 and 0 in this order in the table, the write to pair 0's
pointer leaves them in the order 0, 1. -/
theorem not_windowsAndLatchesAnswer : ¬ Obligations.WindowsAndLatchesAnswer := by
  intro h
  obtain ⟨hwrites, -⟩ := h
  obtain ⟨-, hopen⟩ := hwrites fullPairs 0 anyManager true 0 (by decide +kernel) (by decide +kernel)
  obtain ⟨-, -, -, -, hpairs, -⟩ := hopen (by decide +kernel)
  obtain ⟨-, hfull, -⟩ := hpairs 0
  obtain ⟨hgive, -⟩ := hfull (by decide +kernel)
  have hmodel : Gives (.registerWrite 0x0400 0 anyManager true) fullPairs (mpRequest 1 anyManager (.registerWrite 0x0400 0 anyManager true)
      (registerAccess 0x0400 0 anyManager true) fullPairs.blk) := upd_gives rfl
  have horder := fullPairs_write
  rw [gives_unique hmodel hgive] at horder
  revert horder
  decide +kernel

end Sys2Proof.Machine
end


section
/-!
SUPPORT. The operations of a dictionary window, and the window writes of one entry (R414 to R425, R477, R480, R549, R561).
-/

namespace Sys2Proof.Machine

open Sys2Proof

/-! ## Windows -/

@[simp] theorem modWin_win (p : MPort) (f : Window → Window) (b : Block) : (modWin p f b).win p = f (b.win p) := by
  cases p <;> rfl

theorem endWindow_win (p : MPort) (st : Nat) (b : Block) :
    ((endWindow p st b).win p).busy = false ∧ ((endWindow p st b).win p).status = BitVec.ofNat 8 st := by
  rw [endWindow, modWin_win]
  exact ⟨rfl, rfl⟩

/-- An operation that arrived before number `n` waits at a window, or is an item of a command. -/
theorem opsBefore_iff (b : Block) (n : Nat) : opsBefore b n = true ↔ (∃ q : MPort, (b.win q).busy = true ∧ (b.win q).turn < n)
    ∨ ∃ e ∈ b.ym.cmds, e.2.aborted = false ∧ ((e.2.op = 0x0501 ∧ e.2.phase = 2) ∨ (e.2.op = 0x0502 ∧ e.2.phase = 3))
      ∧ ∃ k, e.2.turn = some k ∧ k < n := by
  have hw : (∃ q : MPort, (b.win q).busy = true ∧ (b.win q).turn < n)
      ↔ (b.ym.winA.busy = true ∧ b.ym.winA.turn < n) ∨ b.ym.winB.busy = true ∧ b.ym.winB.turn < n := by
    refine ⟨fun ⟨q, hq⟩ => ?_, fun h => ?_⟩
    · cases q
      · exact .inl hq
      · exact .inr hq
    · obtain h | h := h
      · exact ⟨.a, h⟩
      · exact ⟨.b, h⟩
  rw [hw]
  simp only [opsBefore, itemsWait, Bool.or_eq_true, Bool.and_eq_true, List.any_eq_true, Option.any_eq_true, decide_eq_true_eq,
    Bool.not_eq_true', beq_iff_eq, and_assoc]

section
variable {p : MPort} {how : Burn} {s : State}

theorem runWindow_waits (h : (s.blk.win p).busy = false ∨ s.blk.boot.ready = false ∨ holding s.blk 20 = true
    ∨ opsBefore s.blk (s.blk.win p).turn = true) : runWindow p how s = s := by
  refine if_pos ?_
  simpa [or_assoc] using h

section
variable (hb : (s.blk.win p).busy = true) (hr : s.blk.boot.ready = true) (hh : holding s.blk 20 = false)
  (ho : opsBefore s.blk (s.blk.win p).turn = false)
include hb hr hh ho

theorem runWindow_runs : runWindow p how s = if (s.blk.win p).isWrite then windowWrite p how s else windowRead p s := by
  refine if_neg ?_
  simp [hb, hr, hh, ho]

end

theorem windowWrite_late {t : Nat} (ht : (s.blk.win p).burnSince = some t) (hz : s.blk.boot.vfz = false) :
    windowWrite p how s = { s with blk := endWindow p odNotWritable { s.blk with now := max s.blk.now (t + 50000) } } := by
  rw [windowWrite, ht, hz]

/-- A window write that has not waited in vain: the write of its entry, and the end of the operation or of this part of its burn. -/
theorem windowWrite_writes (h : (s.blk.win p).burnSince = none ∨ s.blk.boot.vfz = true) {r : Option Nat × State}
    (hr : odWriteOp (s.blk.win p).burnSince.isSome how (s.blk.win p).sender (s.blk.win p).index (s.blk.win p).sub
      ((s.blk.win p).data.take (s.blk.win p).len.toNat) s = r) :
    (∀ st, r.1 = some st → windowWrite p how s = { r.2 with blk := endWindow p st r.2.blk })
    ∧ (r.1 = none → windowWrite p how s
        = { r.2 with blk := modWin p (fun z => { z with burnSince := some (z.burnSince.getD s.blk.now) }) r.2.blk }) := by
  have hw : windowWrite p how s = match r.1 with
      | none => { r.2 with blk := modWin p (fun z => { z with burnSince := some (z.burnSince.getD s.blk.now) }) r.2.blk }
      | some st => { r.2 with blk := endWindow p st r.2.blk } := by
    rw [windowWrite, ← hr]
    obtain h | h := h
    · rw [h] <;> rfl
    · rw [h]
      cases (s.blk.win p).burnSince <;> rfl
  rw [hw]
  exact ⟨fun st hst => by rw [hst], fun hn => by rw [hn]⟩

theorem windowRead_ends {r : Nat × Bytes} (hr : odReadOp s (s.blk.win p).sender (s.blk.win p).index (s.blk.win p).sub = r) :
    windowRead p s = { s with blk := endWindow p r.1 (modWin p (fun z =>
      if r.1 = odOk then { z with data := fit 64 r.2, len := BitVec.ofNat 8 r.2.length }
      else if r.1 = odWriteOnly then { z with data := zeros 64 } else z) s.blk) } := by
  simp only [windowRead, hr, beq_iff_eq]

end

/-! ## A window set up for the write of one entry -/

/-- The window of a sender that has started a write of an entry. -/
def openedWindow (x : Sender) (i sub : Nat) (d : Bytes) (b : Block) : Window :=
  { b.win x.port with
    select := BitVec.ofNat 32 (i * 65536 + sub), data := fit 64 d, len := (BitVec.ofNat 32 (d.length * 256 + 2)).extractLsb' 8 8
    busy := true, isWrite := true, sender := x, burnSince := none, turn := b.ym.odNext }

/-- The block once a sender has set its window up and started it. -/
def entered (x : Sender) (i sub : Nat) (d : Bytes) (b : Block) : Block :=
  wakeYm (modWin x.port (fun _ => openedWindow x i sub d (mpWrite x b)) (modYm (fun y => { y with odNext := y.odNext + 1 }) (mpWrite x b)))

section
variable {x : Sender} {i sub : Nat} {d : Bytes} {b : Block}

theorem ctrl_len (h : d.length ≤ 64) : ((BitVec.ofNat 32 (d.length * 256 + 2)).extractLsb' 8 8).toNat = d.length := by
  rw [BitVec.extractLsb'_toNat, BitVec.toNat_ofNat, Nat.shiftRight_eq_div_pow]
  omega

theorem ctrl_read : (BitVec.ofNat 32 (d.length * 256 + 2)).getLsbD 0 = false := by
  simp [BitVec.getLsbD, BitVec.toNat_ofNat]
  omega

theorem ctrl_write : (BitVec.ofNat 32 (d.length * 256 + 2)).getLsbD 1 = true := by
  rw [BitVec.getLsbD, BitVec.toNat_ofNat, Nat.testBit_eq_decide_div_mod_eq]
  simp
  omega

theorem setWindow_starts (hb : (b.win x.port).busy = false) (h0 : 0 < d.length) (h : d.length ≤ 64) : setWindow x i sub d b =
    wakeYm (modWin x.port (fun _ => openedWindow x i sub d b) (modYm (fun y => { y with odNext := y.odNext + 1 }) b)) := by
  have hlen := ctrl_len h
  have hl : ((BitVec.ofNat 32 (d.length * 256 + 2)).extractLsb' 8 8 == 0) = false := by
    rw [beq_eq_false_iff_ne]
    intro e
    rw [e] at hlen
    simp at hlen
    omega
  have hg : decide (64 < ((BitVec.ofNat 32 (d.length * 256 + 2)).extractLsb' 8 8).toNat) = false := by
    rw [hlen, decide_eq_false_iff_not]
    omega
  rw [setWindow, hb]
  simp only [odCtrl, modWin_win, hb, ctrl_read, ctrl_write, hl, hg, Bool.false_eq_true, if_false, Bool.false_and, Bool.or_self, Bool.and_false,
    Bool.not_false, Bool.not_true]
  unfold openedWindow
  cases x.port <;> rfl

end

/-! ## What the writes that set the window up leave as it is -/

section
variable {x : Sender} {i sub : Nat} {d : Bytes} {b : Block}

theorem wake_part {β : Type} {P : Boot → β} (h : ∀ t w a, P { t with wakeDue := w, asleep := a } = P t) : P (wake b).boot = P b.boot := by
  unfold wake
  show P (if _ then _ else _) = _
  split
  · exact h b.boot _ _
  · exact h b.boot _ _

theorem mpWrite_win (p : MPort) : (mpWrite x b).win p = b.win p := by
  rw [mpWrite]
  cases p <;> cases x.port <;> rfl

theorem mpWrite_odNext : (mpWrite x b).ym.odNext = b.ym.odNext := by
  rw [mpWrite]
  cases x.port <;> rfl

theorem entered_boot {β : Type} {P : Boot → β} (h : ∀ t w a, P { t with wakeDue := w, asleep := a } = P t) :
    P (entered x i sub d b).boot = P b.boot := wake_part h

theorem entered_ym {β : Type} {P : Ym → β}
    (h : ∀ y ra rb n g wa wb, P { y with rdataA := ra, rdataB := rb, odNext := n, gated := g, winA := wa, winB := wb } = P y) :
    P (entered x i sub d b).ym = P b.ym := by
  unfold entered mpWrite answer
  cases x.port
  · exact h b.ym _ b.ym.rdataB _ false _ b.ym.winB
  · exact h b.ym b.ym.rdataA _ _ false b.ym.winA _

theorem entered_anyHold : anyHold (entered x i sub d b) = anyHold b := rfl

theorem entered_win : (entered x i sub d b).win x.port = openedWindow x i sub d (mpWrite x b) := by
  unfold entered
  show (modWin x.port _ _).win x.port = _
  rw [modWin_win]

theorem entered_win_ne {q : MPort} (h : q ≠ x.port) : (entered x i sub d b).win q = b.win q := by
  unfold entered mpWrite answer
  cases hx : x.port <;> cases q
  · exact absurd hx.symm h
  · rfl
  · rfl
  · exact absurd hx.symm h

/-- What arrived before the window's own operation had arrived before. -/
theorem entered_opsBefore (h : opsBefore b b.ym.odNext = false) : opsBefore (entered x i sub d b) b.ym.odNext = false := by
  rw [Bool.eq_false_iff, Ne, opsBefore_iff] at h ⊢
  rw [entered_ym (P := Ym.cmds) fun _ _ _ _ _ _ _ => rfl]
  refine fun hq => h (hq.imp_left fun ⟨q, hb, ht⟩ => ?_)
  by_cases hx : q = x.port
  · subst hx
    rw [entered_win] at ht
    have hn : (openedWindow x i sub d (mpWrite x b)).turn = b.ym.odNext := mpWrite_odNext
    omega
  · rw [entered_win_ne hx] at hb ht
    exact ⟨q, hb, ht⟩

theorem entered_burnReady : burnReady (entered x i sub d b) = burnReady b := by
  rw [burnReady, burnReady, entered_anyHold, entered_boot (P := Boot.vfz) fun _ _ _ => rfl]

theorem entered_gatePasses (k : Nat) : gatePasses (entered x i sub d b) x k = gatePasses b x k := by
  unfold gatePasses openSession
  rw [entered_ym (P := Ym.gate) fun _ _ _ _ _ _ _ => rfl]
  rfl

end

/-! ## A window write of one entry, from its registers to its outcome (R422, R561) -/

section
variable {s : State} {x : Sender} {c : Instr} {how : Burn} {i sub : Nat} {d : Bytes}
variable (hready : s.blk.boot.ready = true) (hh : holding s.blk 20 = false) (hstep : 5 ≤ s.blk.boot.step)
  (hops : opsBefore s.blk s.blk.ym.odNext = false) (hbusy : (s.blk.win x.port).busy = false) (hc : mpCredits s.blk x.port ≠ 0)
  (hp : holding s.blk 22 = false) (he : exec c s = writeEntry how x c i sub d s) (h0 : 0 < d.length) (h64 : d.length ≤ 64)
include hready hh hstep hops hbusy hc hp he h0 h64

theorem entry_starts : exec c s = .next (windowWrite x.port how { s with blk := entered x i sub d s.blk }) := by
  have hopen : windowsOpen s.blk = true := decide_eq_true hstep
  have hset : setupAccess x i sub d s.blk = entered x i sub d s.blk := by
    rw [setupAccess, hopen]
    exact setWindow_starts (by rw [mpWrite_win]; exact hbusy) h0 h64
  have hwin : (entered x i sub d s.blk).win x.port = openedWindow x i sub d (mpWrite x s.blk) := entered_win
  have hrun : runWindow x.port how { s with blk := entered x i sub d s.blk } = windowWrite x.port how { s with blk := entered x i sub d s.blk } := by
    refine (runWindow_runs ?_ ?_ ?_ ?_).trans (if_pos ?_)
    · exact congrArg Window.busy hwin
    · exact (entered_boot (P := Boot.ready) fun _ _ _ => rfl).trans hready
    · exact hh
    · rw [show ((entered x i sub d s.blk).win x.port).turn = s.blk.ym.odNext from (congrArg Window.turn hwin).trans mpWrite_odNext]
      exact entered_opsBefore hops
    · exact congrArg Window.isWrite hwin
  rw [he, writeEntry, mpRequest_handled hc hp, hset, hrun, hopen, hbusy, bne_iff_ne.2 hc, hp]
  rfl

/-- The outcome of the write is the window's, or its burn pauses. -/
theorem entry_writes (hi : i < 65536) (hs : sub < 65536) {r : Option Nat × State}
    (hr : odWriteOp false how x i sub d { s with blk := entered x i sub d s.blk } = r) :
    (∀ st, r.1 = some st → exec c s = .next { r.2 with blk := endWindow x.port st r.2.blk })
    ∧ (r.1 = none → exec c s = .next { r.2 with blk := modWin x.port (fun z => { z with burnSince := some (z.burnSince.getD s.blk.now) }) r.2.blk }) := by
  have hwin : (entered x i sub d s.blk).win x.port = openedWindow x i sub d (mpWrite x s.blk) := entered_win
  have hsel : (BitVec.ofNat 32 (i * 65536 + sub)).toNat = i * 65536 + sub := by
    rw [BitVec.toNat_ofNat]
    omega
  have hidx : (openedWindow x i sub d (mpWrite x s.blk)).index = i := by
    show (BitVec.ofNat 32 (i * 65536 + sub)).toNat / 65536 = i
    rw [hsel]
    omega
  have hsub : (openedWindow x i sub d (mpWrite x s.blk)).sub = sub := by
    show (BitVec.ofNat 32 (i * 65536 + sub)).toNat % 65536 = sub
    rw [hsel]
    omega
  have hdata : (openedWindow x i sub d (mpWrite x s.blk)).data.take (openedWindow x i sub d (mpWrite x s.blk)).len.toNat = d := by
    show (fit 64 d).take ((BitVec.ofNat 32 (d.length * 256 + 2)).extractLsb' 8 8).toNat = d
    rw [ctrl_len h64, fit, List.take_take, Nat.min_eq_left h64, List.take_left']
    rfl
  have hw := windowWrite_writes (p := x.port) (how := how) (s := { s with blk := entered x i sub d s.blk }) (r := r)
    (.inl (congrArg Window.burnSince hwin)) (by
      show odWriteOp ((entered x i sub d s.blk).win x.port).burnSince.isSome how ((entered x i sub d s.blk).win x.port).sender
        ((entered x i sub d s.blk).win x.port).index ((entered x i sub d s.blk).win x.port).sub
        (((entered x i sub d s.blk).win x.port).data.take ((entered x i sub d s.blk).win x.port).len.toNat) _ = r
      rw [hwin, hidx, hsub, hdata]
      exact hr)
  rw [entry_starts hready hh hstep hops hbusy hc hp he h0 h64]
  exact ⟨fun st h => congrArg _ (hw.1 st h), fun h => congrArg _ (hw.2 h)⟩

end

/-! ## The entries that burn fuses (R560, R561) -/

/-- Indices of the FZ entries. -/
def fzIndices : List Nat := [0x8020, 0x8021, 0x8022, 0x8023, 0x8024, 0x8025, 0x8026]

theorem fzField_index {i sub : Nat} {f : FuseField} (h : fzField i sub = some f) : i ∈ fzIndices := by
  unfold fzField at h
  split at h
  case h_8 => cases h
  all_goals decide

/-- An FZ entry takes its one write, has from 1 to 64 bytes, and only the tether is a Boolean. -/
theorem fz_entry {i sub : Nat} {f : FuseField} {e : Entry} (hf : fzField i sub = some f) (he : selected i sub = some e) :
    e.acc = 6 ∧ 0 < e.size ∧ e.size ≤ 64 ∧ (e.typ = 1 → i = 0x8024) := by
  have hall : ∀ i ∈ fzIndices, ∃ e, entries.find? (fun e => e.idx == i) = some e
      ∧ e.acc = 6 ∧ 0 < e.size ∧ e.size ≤ 64 ∧ (e.typ = 1 → i = 0x8024) := by decide +kernel
  have hi := fzField_index hf
  have hrange : ∀ i ∈ fzIndices, (decide (0x7040 ≤ i) && decide (i ≤ 0x7046)) = false ∧ (i == 0x6010) = false := by decide
  obtain ⟨g, hg, hprop⟩ := hall i hi
  obtain ⟨h1, h2⟩ := hrange i hi
  rw [selected, entryOf, hg, Option.some_or] at he
  simp only [h1, h2, Bool.false_and, Bool.or_self, Bool.false_eq_true, if_false] at he
  split at he
  · cases he
  · cases he
    exact hprop

section
variable {s : State} {x : Sender} {i sub : Nat} {d : Bytes} {e : Entry} {how : Burn}

theorem odWriteOp_refused {again : Bool} {r : Nat} (he : selected i sub = some e) (hr : refusal again s x e i sub = some r) :
    odWriteOp again how x i sub d s = (some r, s) := by
  rw [odWriteOp, he]
  dsimp only
  rw [hr]

theorem odWriteOp_stores {again : Bool} (he : selected i sub = some e) (hr : refusal again s x e i sub = none) (hd : d.length = e.size) :
    odWriteOp again how x i sub d s = storeEntry again how e i sub d s := by
  rw [odWriteOp, he]
  dsimp only
  rw [hr]
  exact if_neg (by rw [hd, bne_self_eq_false]; decide)

theorem refusal_fz {f : FuseField} (ha : e.acc = 6) (hx : x.priv = true) (hf : fzField i sub = some f) : refusal false s x e i sub =
    if s.blk.lc != 1 || s.blk.boot.warmDue || !unwritten s f then some odNotWritable
    else if !burnReady s.blk then some odSupplyHeld else none := by
  simp [refusal, ha, hx, hf]

theorem refusal_gate (ha : e.acc = 5) : refusal false s x e i sub =
    if x.priv = false then some odNotPrivileged else if gatePasses s.blk x 0 = true then none else some odGateRequired := by
  cases hx : x.priv <;> simp [refusal, ha, hx]

end

/-! ## A burn of a field (R549) -/

section
variable (how : Burn) (f : FuseField) (d : Bytes) (s : State)

theorem burn_spent : (burn how f d s).blk.sensed.spent = f :: s.blk.sensed.spent := by
  cases how
  · cases f <;> rfl
  · show (if _ then _ else _ : Sensed).spent = _
    cases f <;> rfl
  · rfl

end

theorem burnEntry_burns {how : Burn} {f : FuseField} {d : Bytes} {s : State} (h : burnReady s.blk = true) :
    burnEntry how f d s = (burnStatus how, burn how f d s) := if_pos h

/-! ## SRC_RETIRE (R477) -/

theorem leNat_append (l m : Bytes) : leNat (l ++ m) = leNat l + 256 ^ l.length * leNat m := by
  induction l with
  | nil => simp [leNat]
  | cons x l ih =>
    rw [List.cons_append, leNat, leNat, ih, List.length_cons, Nat.pow_succ]
    ring

/-- The cells of a retired source's bit in both copies. -/
theorem burnMask_retire {n : Nat} (h : n < 128) : burnMask .srcRetire (toLe 16 (2 ^ n)) = 2 ^ n + 2 ^ (128 + n) := by
  have hn : 2 ^ n % 256 ^ 16 = 2 ^ n := Nat.mod_eq_of_lt ((Nat.pow_lt_pow_right (by decide) h).trans_eq (by norm_num))
  show dup 16 _ = _
  rw [dup, fit_of_length (length_toLe _ _), leNat_append, length_toLe, leNat_toLe, hn, Nat.pow_add]
  norm_num

theorem retirable_lt {b : Block} {n : Nat} (h : retirable b n = true) : n < 128 := by
  simp only [retirable, Bool.or_eq_true, decide_eq_true_eq, Bool.and_eq_true] at h
  omega

section
variable {how : Burn} {n : Nat} {s : State}

theorem retire1_out (h : retirable s.blk n = false) : retire1 false how n s = (some odOutOfRange, s) := by simp [retire1, h]
theorem retire1_held (h : retirable s.blk n = true) (hb : burnReady s.blk = false) : retire1 false how n s = (some odSupplyHeld, s) := by
  simp [retire1, h, hb]
theorem retire1_good (h : retirable s.blk n = true) (hb : burnReady s.blk = true) {t : State}
    (ht : burn .good .srcRetire (toLe 16 (2 ^ n)) s = t) : retire1 false .good n s = (some odOk, { t with
      blk := raiseWith (respOf t.blk evMonitorRetired n) evMonitorRetired (toLe 1 n) n (modYm (fun y => { y with retireSet := n }) t.blk) }) := by
  simp [retire1, h, hb, burnEntry, burnStatus, ht]

end

/-! ## The outcomes of a window write of one entry -/

/-- The window of `x` takes a write now, and runs it at once (R423, R527, R539). -/
abbrev MayWrite (b : Block) (x : Sender) : Prop :=
  b.boot.ready = true ∧ holding b 20 = false ∧ 5 ≤ b.boot.step ∧ opsBefore b b.ym.odNext = false ∧ (b.win x.port).busy = false
    ∧ mpCredits b x.port ≠ 0 ∧ holding b 22 = false

/-- A window write that ends with a status. -/
theorem entry_ends {s : State} {x : Sender} {c : Instr} {how : Burn} {i sub : Nat} {d : Bytes} (hfree : MayWrite s.blk x)
    (he : exec c s = writeEntry how x c i sub d s) (h0 : 0 < d.length) (h64 : d.length ≤ 64) (hi : i < 65536) (hs : sub < 65536)
    {r : State} {st : Nat} (hr : odWriteOp false how x i sub d { s with blk := entered x i sub d s.blk } = (some st, r)) :
    exec c s = .next { r with blk := endWindow x.port st r.blk } := by
  obtain ⟨h1, h2, h3, h4, h5, h6, h7⟩ := hfree
  exact (entry_writes h1 h2 h3 h4 h5 h6 h7 he h0 h64 hi hs hr).1 st rfl

section
variable {s : State} {x : Sender} {how : Burn} {i sub : BitVec 16} {d : Bytes} {f : FuseField} {e : Entry}
variable (hf : fzField i.toNat sub.toNat = some f) (he : selected i.toNat sub.toNat = some e) (hd : d.length = e.size)
  (hfree : MayWrite s.blk x) (hx : x.priv = true)

/-- The state in which a sender's write of an FZ entry meets its checks. -/
abbrev fzEntered (s : State) (x : Sender) (i sub : BitVec 16) (d : Bytes) : State :=
  { s with blk := entered x i.toNat sub.toNat d s.blk }

include hf in
theorem fzWrite_enters : exec (.fzWrite i sub d x how) s = writeEntry how x (.fzWrite i sub d x how) i.toNat sub.toNat d s := by
  show execFzWrite i sub d x how s = _
  rw [execFzWrite, hf]
  rfl

include hf he hx in
theorem fz_refusal : refusal false (fzEntered s x i sub d) x e i.toNat sub.toNat =
    if s.blk.lc != 1 || s.blk.boot.warmDue || !unwritten s f then some odNotWritable else if !burnReady s.blk then some odSupplyHeld else none := by
  have hwarm : (entered x i.toNat sub.toNat d s.blk).boot.warmDue = s.blk.boot.warmDue := entered_boot fun _ _ _ => rfl
  rw [refusal_fz (fz_entry hf he).1 hx hf, entered_burnReady, hwarm]
  rfl

include hf he hd hfree in
theorem fzWrite_ends {r : State} {st : Nat} (hr : odWriteOp false how x i.toNat sub.toNat d (fzEntered s x i sub d) = (some st, r)) :
    exec (.fzWrite i sub d x how) s = .next { r with blk := endWindow x.port st r.blk } := by
  obtain ⟨-, h0, h64, -⟩ := fz_entry hf he
  exact entry_ends hfree (fzWrite_enters hf) (by omega) (by omega) i.isLt sub.isLt hr

section
variable (hlc : s.blk.lc = 1) (hw : s.blk.boot.warmDue = false) (hu : unwritten s f = true) (hb : burnReady s.blk = true)
include hf he hd hx hlc hw hu hb

theorem fz_stores : odWriteOp false how x i.toNat sub.toNat d (fzEntered s x i sub d) =
    if allZero d || (e.typ == 1 && decide (1 < leNat d)) then (some odOutOfRange, fzEntered s x i sub d)
    else (burnStatus how, burn how f d (fzEntered s x i sub d)) := by
  have hnone : refusal false (fzEntered s x i sub d) x e i.toNat sub.toNat = none := by
    rw [fz_refusal hf he hx, hlc, hw, hu, hb]
    rfl
  have hburn := burnEntry_burns (how := how) (f := f) (d := d) (s := fzEntered s x i sub d) (entered_burnReady.trans hb)
  simp only [odWriteOp_stores he hnone hd, storeEntry, (fz_entry hf he).1, hf, hburn, BEq.rfl, if_true, Bool.not_false, Bool.true_and]

theorem fz_burns (hz : allZero d = false) (h1 : i = 0x8024 → leNat d = 1) :
    odWriteOp false how x i.toNat sub.toNat d (fzEntered s x i sub d) = (burnStatus how, burn how f d (fzEntered s x i sub d)) := by
  refine (fz_stores hf he hd hx hlc hw hu hb).trans (if_neg ?_)
  rw [hz, Bool.false_or, Bool.and_eq_true, beq_iff_eq, decide_eq_true_eq]
  rintro ⟨ht, hn⟩
  have := h1 (BitVec.eq_of_toNat_eq ((fz_entry hf he).2.2.2 ht))
  omega

end

end

/-- A write of SRC_RETIRE's entry, or of a word of the lean-to, which a manager in a session that holds the gate may write. -/
theorem gate_entry {s : State} {x : Sender} {how : Burn} {c : Instr} {i : Nat} {d : Bytes} {e : Entry} (hfree : MayWrite s.blk x)
    (hc : exec c s = writeEntry how x c i 0 d s) (hi : i < 65536) (he : selected i 0 = some e) (ha : e.acc = 5) (hd : d.length = e.size)
    (h0 : 0 < e.size) (h64 : e.size ≤ 64) :
    (x.priv = false → Gives c s (endWindow x.port odNotPrivileged (entered x i 0 d s.blk)))
    ∧ (x.priv = true → gatePasses s.blk x 0 = false → Gives c s (endWindow x.port odGateRequired (entered x i 0 d s.blk)))
    ∧ (x.priv = true → gatePasses s.blk x 0 = true → ∀ (r : State) (st : Nat),
        storeEntry false how e i 0 d { s with blk := entered x i 0 d s.blk } = (some st, r) → exec c s = .next { r with blk := endWindow x.port st r.blk }) := by
  have hpass : gatePasses (entered x i 0 d s.blk) x 0 = gatePasses s.blk x 0 := entered_gatePasses 0
  have hends : ∀ {r : State} {st : Nat}, odWriteOp false how x i 0 d { s with blk := entered x i 0 d s.blk } = (some st, r) →
      exec c s = .next { r with blk := endWindow x.port st r.blk } :=
    entry_ends hfree hc (by omega) (by omega) hi (by decide)
  refine ⟨fun hx => ?_, fun hx hg => ?_, fun hx hg r st hr => hends ?_⟩
  · refine hends (odWriteOp_refused he ((refusal_gate ha).trans ?_))
    rw [hx]
    rfl
  · refine hends (odWriteOp_refused he ((refusal_gate ha).trans ?_))
    rw [hpass, hx, hg]
    rfl
  · refine (odWriteOp_stores he ((refusal_gate ha).trans ?_) hd).trans hr
    rw [hpass, hx, hg]
    rfl

theorem selected_retire : selected 0x6030 0 = some (ent 0x6030 2 5 0) := by decide +kernel
theorem store_ltArm (how : Burn) (d : Bytes) (s : State) :
    storeEntry false how (ent 0x6001 7 5 0) 0x6001 0 d s = (some odOk, { s with blk := ltArm (leNat d) s.blk }) := rfl
theorem store_ltResp (how : Burn) (d : Bytes) (s : State) :
    storeEntry false how (ent 0x6003 7 5 0) 0x6003 0 d s = (some odOk, { s with blk := ltResp (leNat d) s.blk }) := rfl

theorem ltArm_lt (v : BitVec 32) (b : Block) : (ltArm v.toNat b).lt
    = { b.lt with arm := (v &&& 0x7FF) ||| 0x800, fired := b.lt.fired &&& ~~~newlyArmed v b.lt.arm } := by
  rw [ltArm, BitVec.ofNat_toNat, BitVec.setWidth_eq]
  rfl
theorem ltArm_set (v : BitVec 32) (b : Block) : (ltArm v.toNat b).ym.ltArmSet = v &&& 0xFFF := by
  rw [ltArm, BitVec.ofNat_toNat, BitVec.setWidth_eq]
  rfl
theorem ltResp_lt (v : BitVec 32) (b : Block) : (ltResp v.toNat b).lt = { b.lt with respDue := some (v &&& 0xFFFF) } := by
  rw [ltResp, BitVec.ofNat_toNat, BitVec.setWidth_eq]
  rfl
theorem ltResp_set (v : BitVec 32) (b : Block) : (ltResp v.toNat b).ym.ltRespSet = v &&& 0xFFFF := by
  rw [ltResp, BitVec.ofNat_toNat, BitVec.setWidth_eq]
  rfl

theorem endWindow_lt (p : MPort) (st : Nat) (b : Block) : (endWindow p st b).lt = b.lt := rfl
theorem endWindow_ym {β : Type} {P : Ym → β} (h : ∀ y wa wb, P { y with winA := wa, winB := wb } = P y) (p : MPort) (st : Nat) (b : Block) :
    P (endWindow p st b).ym = P b.ym := by
  cases p
  · exact h b.ym _ b.ym.winB
  · exact h b.ym b.ym.winA _

theorem selected_ltArm : selected 0x6001 0 = some (ent 0x6001 7 5 0) := by decide +kernel
theorem selected_ltResp : selected 0x6003 0 = some (ent 0x6003 7 5 0) := by decide +kernel

/-- What opens the event path does not depend on the windows. -/
theorem opening_congr {b t : Block} (hl : t.lt = b.lt) (hr : t.ym.responseMap = b.ym.responseMap) (hb : t.boot.vdd = b.boot.vdd) :
    opening t = opening b := by
  rw [opening, opening, hl, hb, respOf, respOf, hl, hr]

/-! ## The statement -/

/-- Settles O57: the operation of a window by the branches of `runWindow`, a window write of one entry by `entry_writes`. -/
theorem dictionaryOperationsRun : Obligations.DictionaryOperationsRun := by
  intro s how b free ends
  have hend : ∀ (p : MPort) (st : Nat) (t : Block), ((endWindow p st t).win p).busy = false
      ∧ ((endWindow p st t).win p).status = BitVec.ofNat 8 st := endWindow_win
  refine ⟨opsBefore_iff b, ?_, ?_, ?_, ?_⟩
  · intro p w
    refine ⟨fun h => congrArg _ (runWindow_waits h), fun hb hr hh ho => ⟨?_, ?_, fun t hw ht hz => ?_⟩⟩
    · intro hw r
      exact congrArg _ ((runWindow_runs hb hr hh ho).trans ((if_neg (Bool.eq_false_iff.1 hw)).trans (windowRead_ends rfl)))
    · intro hw h r
      have hrun : exec (.dictionaryOperation p how) s = .next (windowWrite p how s) :=
        congrArg _ ((runWindow_runs hb hr hh ho).trans (if_pos hw))
      obtain ⟨hdone, hpause⟩ := windowWrite_writes (r := r) h rfl
      exact ⟨fun st hst => hrun.trans (congrArg _ (hdone st hst)), fun hn => hrun.trans (congrArg _ (hpause hn))⟩
    · exact congrArg _ ((runWindow_runs hb hr hh ho).trans ((if_pos hw).trans (windowWrite_late ht hz)))
  · intro i sub d x
    refine ⟨fun hf => ?_, fun f e hf he hd hfree hx => ⟨fun hl => ?_, fun hl hwd hu hbr => ⟨fun hz => ?_, fun hz h1 => ?_⟩⟩⟩
    · show execFzWrite i sub d x how s = _
      rw [execFzWrite, hf]
      rfl
    · refine ⟨_, fzWrite_ends (r := fzEntered s x i sub d) hf he hd hfree (odWriteOp_refused he ((fz_refusal hf he hx).trans (if_pos ?_))), hend _ _ _⟩
      rw [bne_iff_ne.2 hl]
      rfl
    · refine ⟨_, fzWrite_ends (r := fzEntered s x i sub d) hf he hd hfree ((fz_stores hf he hd hx hl hwd hu hbr).trans (if_pos ?_)), hend _ _ _⟩
      rw [hz]
      rfl
    · have hr : ∀ how', odWriteOp false how' x i.toNat sub.toNat d (fzEntered s x i sub d) = (burnStatus how', burn how' f d (fzEntered s x i sub d)) :=
        fun how' => fz_burns hf he hd hx hl hwd hu hbr hz h1
      have hspent := burn_spent how f d (fzEntered s x i sub d)
      have hle := (burn_keeps how f d (fzEntered s x i sub d)).2.1
      cases how with
      | good => exact ⟨_, fzWrite_ends hf he hd hfree (hr .good), hspent, rfl, rfl, fun _ => ⟨rfl, hend _ _ _⟩, nofun, nofun⟩
      | bad => exact ⟨_, fzWrite_ends hf he hd hfree (hr .bad), hspent, rfl, rfl, nofun, fun _ => ⟨hle, hend _ _ _⟩, nofun⟩
      | vfzLost =>
        obtain ⟨g1, g2, g3, g4, g5, g6, g7⟩ := hfree
        obtain ⟨-, h0, h64, -⟩ := fz_entry hf he
        refine ⟨_, (entry_writes g1 g2 g3 g4 g5 g6 g7 (fzWrite_enters hf) (by omega) (by omega) i.isLt sub.isLt (hr .vfzLost)).2 rfl,
          hspent, rfl, rfl, nofun, nofun, fun _ => ⟨hle, rfl, ?_, ?_⟩⟩
        · rw [modWin_win]
          show ((entered x i.toNat sub.toNat d s.blk).win x.port).busy = true
          rw [entered_win]
          rfl
        · rw [modWin_win]
          show some (((entered x i.toNat sub.toNat d s.blk).win x.port).burnSince.getD s.blk.now) = some s.blk.now
          rw [entered_win]
          rfl
  · intro n x hfree hx hg
    obtain ⟨-, -, hstore⟩ := gate_entry (c := .srcRetireBurn n x how) (how := how) hfree rfl (by decide) selected_retire rfl (d := [n]) rfl (by decide) (by decide)
    have hn : leNat [n] = n.toNat := by simp [leNat]
    have hst : ∀ how', storeEntry false how' (ent 0x6030 2 5 0) 0x6030 0 [n] { s with blk := entered x 0x6030 0 [n] s.blk }
        = retire1 false how' n.toNat { s with blk := entered x 0x6030 0 [n] s.blk } := fun how' => by
      rw [← hn]
      rfl
    refine ⟨fun hno => ?_, fun hyes hbr => ?_, fun hyes hbr hgood => ?_⟩
    · exact ⟨_, hstore hx hg { s with blk := entered x 0x6030 0 [n] s.blk } _ ((hst how).trans (retire1_out hno)), hend _ _ _, rfl⟩
    · exact ⟨_, hstore hx hg { s with blk := entered x 0x6030 0 [n] s.blk } _ ((hst how).trans (retire1_held hyes (entered_burnReady.trans hbr))), hend _ _ _, rfl⟩
    · subst hgood
      have hgood := retire1_good (s := { s with blk := entered x 0x6030 0 [n] s.blk }) hyes (entered_burnReady.trans hbr) rfl
      have hmap : (entered x 0x6030 0 [n] s.blk).ym.responseMap = s.blk.ym.responseMap := entered_ym (P := Ym.responseMap) fun _ _ _ _ _ _ _ => rfl
      have hvdd : (entered x 0x6030 0 [n] s.blk).boot.vdd = s.blk.boot.vdd := entered_boot (P := Boot.vdd) fun _ _ _ => rfl
      have hback : (entered x 0x6030 0 [n] s.blk).boot.backup = s.blk.boot.backup := entered_boot (P := Boot.backup) fun _ _ _ => rfl
      refine ⟨_, hstore hx hg _ _ ((hst .good).trans hgood), ?_, rfl, hend _ _ _,
        respOf (burn .good .srcRetire (toLe 16 (2 ^ n.toNat)) { s with blk := entered x 0x6030 0 [n] s.blk }).blk evMonitorRetired n.toNat, ?_⟩
      · show setCells .srcRetire (burnMask .srcRetire (toLe 16 (2 ^ n.toNat))) s.fuse = _
        rw [burnMask_retire (retirable_lt hyes)]
        rfl
      · have hopen : opening (modYm (fun y => { y with retireSet := n.toNat })
            (burn .good .srcRetire (toLe 16 (2 ^ n.toNat)) { s with blk := entered x 0x6030 0 [n] s.blk }).blk) = opening s.blk :=
          opening_congr rfl hmap hvdd
        rw [← hopen, ← hback]
        rfl
  · intro v x hfree
    have hv : leNat (toLe 4 v.toNat) = v.toNat := by
      rw [leNat_toLe]
      exact Nat.mod_eq_of_lt v.isLt
    obtain ⟨hpriv1, hgate1, hst1⟩ := gate_entry (how := .good) (c := .ltArmSet v x) hfree rfl (by decide) selected_ltArm rfl (length_toLe _ _)
      (by decide) (by decide)
    obtain ⟨hpriv2, hgate2, hst2⟩ := gate_entry (how := .good) (c := .ltRespSet v x) hfree rfl (by decide) selected_ltResp rfl (length_toLe _ _)
      (by decide) (by decide)
    refine ⟨fun hx => ⟨_, _, hpriv1 hx, hend _ _ _, rfl, hpriv2 hx, hend _ _ _, rfl⟩,
      fun hx hg => ⟨_, _, hgate1 hx hg, hend _ _ _, rfl, hgate2 hx hg, hend _ _ _, rfl⟩, fun hx hg => ⟨?_, ?_⟩⟩
    · refine ⟨_, hst1 hx hg { s with blk := ltArm v.toNat (entered x 0x6001 0 (toLe 4 v.toNat) s.blk) } odOk ((store_ltArm _ _ _).trans (by rw [hv])), hend _ _ _, ?_, ?_⟩
      · exact (endWindow_lt _ _ _).trans (ltArm_lt v _)
      · exact (endWindow_ym (P := Ym.ltArmSet) (fun _ _ _ => rfl) _ _ _).trans (ltArm_set v _)
    · refine ⟨_, hst2 hx hg { s with blk := ltResp v.toNat (entered x 0x6003 0 (toLe 4 v.toNat) s.blk) } odOk ((store_ltResp _ _ _).trans (by rw [hv])), hend _ _ _, ?_, ?_⟩
      · exact (endWindow_lt _ _ _).trans (ltResp_lt v _)
      · exact (endWindow_ym (P := Ym.ltRespSet) (fun _ _ _ => rfl) _ _ _).trans (ltResp_set v _)

end Sys2Proof.Machine
end


section
/-!
SUPPORT. The arrival of an event that purges (R482, R491, R501).
-/

namespace Sys2Proof.Machine

open Sys2Proof

/-- A powered block whose only job, an ENCRYPT that halts its ring on an error, waits for its key, and on whose event path a MONITOR_SPLIT
that purges stands alone. -/
def purgingSplit : State :=
  { blk :=
      { boot := { step := 10, ready := true, vdd := true }
        jobs := { dflt := none, ents := [(0, some { desc := { opcode := 0x10, flags := 0x80 }, keyDone := false })] }
        lt := { restarted := false, fifo := [{ code := evMonitorSplit, resp := 3 }] } } }

/-- The codes of the events on their way to the lean-to. -/
def eventCodes (b : Block) : List Nat := b.lt.fifo.map fun e => e.code

/-- The event that the end of the purged job raises has arrived too. -/
theorem purgingSplit_arrives : eventCodes (when (leanToAlive purgingSplit.blk) arrive purgingSplit.blk) = [] := by decide +kernel

/-- The monitors' operands that the arrival does not read. -/
def seenNothing : ClockSeen := { edges := 0 }
def readNothing : Vector Gauges 22 := Vector.replicate 22 { c0 := 100, c1 := 100, c2 := 100, c3 := 100, oscLo := 1000, oscHi := 1000 }

/-- Refutes O58: its clause on the arrival of an event that purges takes in one event where the path holds no other, a MONITOR_SPLIT among
them. The model takes in the event after a MONITOR_SPLIT in the same tick, and the purge itself raises one: the job it ends halts its ring, and
the STALL_HALTED of that arrives at once. -/
theorem not_monitorsRaiseTheirEvents : ¬ Obligations.MonitorsRaiseTheirEvents := by
  intro h
  obtain ⟨halive, -⟩ := h purgingSplit 0 seenNothing 0 0 readNothing
  obtain ⟨-, -, -, -, -, -, -, -, -, -, -, harrive, -⟩ := halive (by decide +kernel)
  obtain ⟨-, hpurge⟩ := harrive _ [] rfl (.inr rfl)
  obtain ⟨hgive, -⟩ := hpurge rfl (by decide +kernel)
  have hmodel : Gives .leanToEventArrival purgingSplit (when (leanToAlive purgingSplit.blk) arrive purgingSplit.blk) := upd_gives rfl
  have hcodes := purgingSplit_arrives
  rw [gives_unique hmodel hgive] at hcodes
  revert hcodes
  decide +kernel

end Sys2Proof.Machine
end


section
/-!
SUPPORT. Zeroed slots, studbook answers, paused burns, power states and the test port (R146, R370, R387, R545, R549 to R551).
-/

namespace Sys2Proof.Machine

open Sys2Proof

/-! ## Zeroed slots (R433, R491, R551) -/

/-- A part of the block that no run of the body spoils, and that the run for a listed `k` puts right. -/
theorem each_reaches {α : Type} {P : Block → Prop} {f : α → Block → Block} {l : List α} {k : α} (hk : k ∈ l) (hset : ∀ b, P (f k b))
    (hkeep : ∀ x b, P b → P (f x b)) (b : Block) : P (each l f b) := by
  have hrest : ∀ (l : List α) (b : Block), P b → P (each l f b) := by
    intro l
    induction l with
    | nil => exact fun b h => h
    | cons x l ih => exact fun b h => ih _ (hkeep x b h)
  obtain ⟨m, n, rfl⟩ := List.append_of_mem hk
  rw [each_append, each_cons]
  exact hrest n _ (hset _)

theorem each_stays {α : Type} {P : Block → Prop} {f : α → Block → Block} (hkeep : ∀ x b, P b → P (f x b)) (l : List α) {b : Block}
    (h : P b) : P (each l f b) := by
  induction l generalizing b with
  | nil => exact h
  | cons x l ih => exact ih (hkeep x b h)

section
variable (b : Block)

theorem clearedSlot_occupied (s : Slot) : (clearedSlot s).occupied = false := by
  simp [clearedSlot, Slot.occupied, Slot.valid, Slot.runPart, has, kValid, kRunPart]

theorem clear_keeps (k x : Nat) {t : Block} (h : (t.slot k).occupied = false) : ((genRose x (modSlot x clearedSlot t)).slot k).occupied = false := by
  rw [genRose_slot]
  by_cases hk : k = x
  · rw [hk, modSlot_slot_self]
    exact clearedSlot_occupied _
  · rw [modSlot_slot_ne hk]
    exact h

theorem zeroWorking_unoccupied {k : Nat} {v : Slot} (h : (k, v) ∈ b.tack.slots.ents) : ((zeroWorking b).slot k).occupied = false := by
  by_cases ho : ∃ w, (k, w) ∈ b.tack.slots.ents ∧ w.occupied = true
  · obtain ⟨w, hw, hocc⟩ := ho
    refine each_reaches (P := fun t => (t.slot k).occupied = false) (k := k) ?_ (fun t => ?_) (fun x t ht => clear_keeps k x ht) b
    · exact List.mem_map.2 ⟨(k, w), List.mem_filter.2 ⟨hw, hocc⟩, rfl⟩
    · rw [genRose_slot, modSlot_slot_self]
      exact clearedSlot_occupied _
  · refine each_stays (P := fun t => (t.slot k).occupied = false) (fun x t ht => clear_keeps k x ht) _ ?_
    have hsome : (b.tack.slots.ents.lookup k).isSome = true := List.lookup_isSome_iff.2 ⟨(k, v), h, beq_iff_eq.2 rfl⟩
    obtain ⟨w, hw⟩ := Option.isSome_iff_exists.1 hsome
    obtain ⟨l1, l2, hl, -⟩ := List.lookup_eq_some_iff.1 hw
    have hmem : (k, w) ∈ b.tack.slots.ents := by
      rw [hl]
      exact List.mem_append_right _ List.mem_cons_self
    have hget : b.slot k = w := by
      show (b.tack.slots.ents.lookup k).getD b.tack.slots.dflt = w
      rw [hw]
      rfl
    rw [hget]
    exact Bool.eq_false_iff.2 fun hocc => ho ⟨w, hmem, hocc⟩

theorem zeroStallKeys_slot (k : Nat) : (zeroStallKeys b).slot k = b.slot k := by
  unfold zeroStallKeys
  refine each_keeps (g := fun t => t.slot k) (fun _ _ => ?_) _ _
  rfl

theorem zeroStallKeys_state {k : Nat} {v : StallKey} (h : (k, v) ∈ b.tack.stallKeys.ents) : ((zeroStallKeys b).sk k).state = 0 := by
  refine each_reaches (P := fun t => (t.sk k).state = 0) (k := k) (List.mem_map.2 ⟨(k, v), h, rfl⟩) (fun t => ?_) (fun x t ht => ?_) b
  · rw [modSk_sk_self]
  · by_cases hk : k = x
    · rw [hk, modSk_sk_self]
    · rw [modSk_sk_ne hk]
      exact ht

theorem zeroWorking_keys : (zeroWorking b).tack.stallKeys = b.tack.stallKeys := by
  unfold zeroWorking
  refine each_keeps (g := fun t => t.tack.stallKeys) (fun _ _ => ?_) _ _
  rfl
theorem zeroWorking_sys : (zeroWorking b).tack.sys = b.tack.sys := by
  unfold zeroWorking
  refine each_keeps (g := fun t => t.tack.sys) (fun _ _ => ?_) _ _
  rfl
theorem zeroStallKeys_sys : (zeroStallKeys b).tack.sys = b.tack.sys := by
  unfold zeroStallKeys
  refine each_keeps (g := fun t => t.tack.sys) (fun _ _ => ?_) _ _
  rfl

/-- Every slot is zeroed. -/
theorem zeroSlots_sys : (zeroSlots b).tack.sys = { dflt := {} } := by
  rw [zeroSlots, zeroStallKeys_sys, zeroWorking_sys]
  rfl

theorem zeroSlots_slot {x : Nat × Slot} (h : x ∈ b.tack.slots.ents) : ((zeroSlots b).slot x.1).occupied = false := by
  rw [zeroSlots, zeroStallKeys_slot]
  exact zeroWorking_unoccupied (modTack (fun t => { t with sys := { dflt := {} } }) b) (v := x.2) h

theorem zeroSlots_sk {x : Nat × StallKey} (h : x ∈ b.tack.stallKeys.ents) : ((zeroSlots b).sk x.1).state = 0 := by
  refine zeroStallKeys_state _ (v := x.2) ?_
  rw [zeroWorking_keys]
  exact h

/-! ## Tie-off pages (R551) -/

/-- A ring's frames are empty. -/
def framesEmpty (g : Ring) : Prop := g.page.hitch = {} ∧ g.page.recovery = {}

/-- A ring with its frames emptied, and a stall with those of its rings. -/
def emptyPage (g : Ring) : Ring := { g with page := { g.page with hitch := {}, recovery := {} } }
def emptyFrames (s : Stall) : Stall := { s with rings := [0, 1, 2, 3].foldl (fun t r => t.mod r emptyPage) s.rings }

theorem emptyFrames_ring {r : Nat} (hr : r < 4) (s : Stall) : framesEmpty ((emptyFrames s).ring r) := by
  have hget : (emptyFrames s).ring r = emptyPage (s.rings.get r) := (get_foldl_mod_range emptyPage 4 s.rings r).trans (if_pos hr)
  rw [hget]
  exact ⟨rfl, rfl⟩

theorem modStall_frames {n r : Nat} (hr : r < 4) (t : Block) : framesEmpty ((modStall n emptyFrames t).ring n r) := by
  rw [Block.ring, modStall_stall_self]
  exact emptyFrames_ring hr _

theorem zeroPages_frames {n r : Nat} {q : Stall} (h : (n, q) ∈ b.stalls.ents) (hr : r < 4) : framesEmpty ((zeroPages b).ring n r) := by
  refine each_reaches (P := fun t => framesEmpty (t.ring n r)) (f := fun n => modStall n emptyFrames) (k := n) (List.mem_map.2 ⟨(n, q), h, rfl⟩)
    (fun t => modStall_frames hr t) (fun x t ht => ?_) _
  by_cases hn : n = x
  · rw [← hn]
    exact modStall_frames hr t
  · rw [Block.ring, modStall_stall_ne hn]
    exact ht

/-! ## Answers of the studbook (R398, R545) -/

theorem sbPump_empty {t : Block} (h : t.sbQueue = []) : sbPump t = t := by
  unfold sbPump
  rw [h]
  cases sbFree t <;> rfl

theorem drained_closed {t : Block} (h : t.portDrain = false) : drained t = t := by
  refine if_neg ?_
  simp [h]

theorem cellRead_queue (q : SbOp) (a : Option Nat) (t : Block) : (cellRead q a t).sbQueue = t.sbQueue := by
  unfold cellRead loseAdvance
  cases a <;> dsimp only
  · split
    · rfl
    · split
      · rfl
      · split <;> rfl
  · split
    · rfl
    · split
      · rfl
      · split <;> rfl

theorem cellRead_value (q : SbOp) (t : Block) (v : Nat) : cellRead q (some v) t =
    if q.cell = 1 then { t with tack := { t.tack with updateCounter := v, counterKnown := true } }
    else if q.cell = 3 then { t with floor := v }
    else if 4 ≤ q.cell then { t with tack := { t.tack with cells := t.tack.cells.mod q.cell fun x => { x with value := v } } } else t := by
  simp only [cellRead, beq_iff_eq]
  rfl

theorem cellRead_lost (q : SbOp) (t : Block) : cellRead q none t =
    if q.op = 0 then t else if q.cell = 1 then { t with tack := { t.tack with counterKnown := false } }
    else if q.cell = 2 then { t with ym := { t.ym with gate := { t.ym.gate with reread := true } } } else t := by
  simp only [cellRead, loseAdvance, beq_iff_eq]
  rfl

/-- An answer to a command, or its absence. -/
def toldCmd (id : Nat) (q : SbOp) (a : Option Nat) (t : Block) : Block :=
  modCmd id (fun c => { c with sb := if a = none then 3 else 2, sbVal := a.getD 0 }) (cellRead q a t)

theorem sbAnswer_cmd {q : SbOp} {id : Nat} (hq : q.user = .cmd id) {t : Block} (h : t.sbQueue = []) (a : Option Nat) :
    sbPump (sbAnswer q a t) = toldCmd id q a t := by
  have he : sbAnswer q a t = toldCmd id q a t := by
    unfold sbAnswer
    rw [hq]
    cases a <;> rfl
  rw [he]
  exact sbPump_empty ((cellRead_queue q a t).trans h)

end

/-! ## Paused burns (R387, R549) -/

/-- Changes that are no items stay as they are. -/
theorem finishItems_others {how : Burn} {s : State} (h : ∀ c ∈ s.blk.ym.changesDue, c.op ≠ 0x0502) : finishItems how s = s := by
  have hfold : ∀ (l : List Cmd) (t : State), (∀ c ∈ l, c.op ≠ 0x0502) →
      l.foldl (fun s c =>
        let keep := fun (c : Cmd) (s : State) => { s with blk := modYm (fun y => { y with changesDue := y.changesDue ++ [c] }) s.blk }
        if c.op == 0x0502 && burnReady s.blk then
          let r := itemsFrom how c 66 c.note true s
          if r.2.2.isNone then keep { c with note := r.2.1 } r.1 else r.1
        else keep c s) t
      = { t with blk := modYm (fun y => { y with changesDue := y.changesDue ++ l }) t.blk } := by
    intro l
    induction l with
    | nil =>
      intro t _
      show t = { t with blk := { t.blk with ym := { t.blk.ym with changesDue := t.blk.ym.changesDue ++ [] } } }
      rw [List.append_nil]
    | cons c l ih =>
      intro t hl
      have hc : (c.op == 0x0502 && burnReady t.blk) = false := by
        rw [beq_eq_false_iff_ne.2 (hl c List.mem_cons_self)]
        rfl
      rw [List.foldl_cons]
      dsimp only
      rw [hc]
      refine (ih _ fun d hd => hl d (List.mem_cons_of_mem _ hd)).trans ?_
      show ({ t with blk := { t.blk with ym := { t.blk.ym with changesDue := t.blk.ym.changesDue ++ [c] ++ l } } } : State)
        = { t with blk := { t.blk with ym := { t.blk.ym with changesDue := t.blk.ym.changesDue ++ c :: l } } }
      rw [List.append_assoc]
      rfl
  exact (hfold s.blk.ym.changesDue { s with blk := modYm (fun y => { y with changesDue := [] }) s.blk } h).trans rfl

/-- The items of one command that was cut off go on. -/
theorem finishItems_one {how : Burn} {s : State} {c : Cmd} (h : s.blk.ym.changesDue = [c]) (hc : c.op = 0x0502) (hb : burnReady s.blk = true)
    {r : State × Nat × Option Bool} (hr : itemsFrom how c 66 c.note true { s with blk := modYm (fun y => { y with changesDue := [] }) s.blk } = r) :
    finishItems how s = if r.2.2 = none
      then { r.1 with blk := { r.1.blk with ym := { r.1.blk.ym with changesDue := r.1.blk.ym.changesDue ++ [{ c with note := r.2.1 }] } } }
      else r.1 := by
  have hbr : burnReady (modYm (fun y => { y with changesDue := [] }) s.blk) = true := hb
  rw [finishItems, h, List.foldl_cons, List.foldl_nil]
  dsimp only
  rw [hc, hbr, BEq.rfl, hr]
  cases r.2.2 <;> rfl

section
variable (b : Block)

/-- Deriving the system keys writes the tack room and takes a draw. -/
theorem deriveSystem_part {β : Type} {g : Block → β} (ht : ∀ t x, g { t with tack := x } = g t) (hd : ∀ t x, g { t with draws := x } = g t) :
    g (deriveSystem b) = g b := by
  unfold deriveSystem
  split
  · rfl
  · refine (each_keeps (g := g) (fun _ _ => ?_) _ _).trans ((hd _ _).trans ((each_keeps (g := g) (fun _ _ => ?_) _ _).trans ?_))
    · exact ht _ _
    · split
      · exact ht _ _
      · rfl
    · exact ht _ _

theorem deriveSystem_boot : (deriveSystem b).boot = b.boot := deriveSystem_part b (g := Block.boot) (fun _ _ => rfl) fun _ _ => rfl
theorem deriveSystem_sensed : (deriveSystem b).sensed = b.sensed := deriveSystem_part b (g := Block.sensed) (fun _ _ => rfl) fun _ _ => rfl

theorem afterBurn_roots : (afterBurn .roots b).boot = b.boot ∧ (afterBurn .roots b).sensed = b.sensed := by
  unfold afterBurn
  dsimp only
  split
  · exact ⟨rfl, rfl⟩
  · exact ⟨deriveSystem_boot b, deriveSystem_sensed b⟩

theorem holding_of_anyHold {b : Block} (h : anyHold b = false) {k : Nat} (hk : k < 24) : holding b k = false :=
  Bool.eq_false_iff.2 fun hh => absurd (List.any_eq_true.2 ⟨k, List.mem_range.2 hk, hh⟩) (Bool.eq_false_iff.1 h)

theorem wake_eq (u : Block) : wake u =
    { u with boot := if holding u 0 = true then { u.boot with wakeDue := true } else { u.boot with asleep := false } } := rfl

end

/-! ## The test port (R550) -/

theorem tapShifted_idle (t : TapState) : tapShifted t = .runTestIdle := by cases t <;> rfl

section
variable {b : Block} {ir : TapIr}

theorem tapSelect_trst : tapSelect .trst b = { b with boot := { b.boot with tapState := .testLogicReset, tapIr := .idcode } } := by
  have h : tapRuns .trst b = .trst := by
    rw [tapRuns]
    split <;> rfl
  unfold tapSelect
  dsimp only
  rw [h]
  rfl

theorem tapSelect_idcode : tapSelect .idcode b
    = { b with boot := { b.boot with tapState := .runTestIdle, tapIr := .idcode, tapOut := 0x4D424F41 } } := by
  have h : tapRuns .idcode b = .idcode := by
    rw [tapRuns]
    split <;> rfl
  unfold tapSelect
  dsimp only
  rw [h, ← tapShifted_idle b.boot.tapState]
  rfl

theorem tapSelect_bypass (h : tapRuns ir b = .bypass) : tapSelect ir b
    = { b with boot := { b.boot with tapState := .runTestIdle, tapIr := .bypass, tapOut := 0 } } := by
  unfold tapSelect
  dsimp only
  rw [h, ← tapShifted_idle b.boot.tapState]
  rfl

theorem tapSelect_other {code : BitVec 8} (h : tapOpen b = true) : tapSelect (.other code) b = { b with
    boot := { b.boot with tapState := .runTestIdle, tapIr := .other code, tapOut := BitVec.ofNat 32 (Config.freeNat b.free) }
    free := b.free + 1 } := by
  have hr : tapRuns (.other code) b = .other code := if_pos h
  unfold tapSelect
  dsimp only
  rw [hr, ← tapShifted_idle b.boot.tapState]
  rfl

theorem tapDeep_iff : tapDeep b = true ↔ tapOpen b = true ∧ ∃ c, b.boot.tapIr = .other c := by
  rw [tapDeep, Bool.and_eq_true]
  cases b.boot.tapIr <;> simp

end

/-! ## The statement -/

theorem finishBurn_roots {how : Burn} {x : Bytes} {s : State} (hb : s.blk.boot.burnLeft = some (.roots, x)) (hr : burnReady s.blk = true) :
    s.fuse.le (finishBurn how s).fuse ∧ (finishBurn how s).blk.sensed.spent = .roots :: s.blk.sensed.spent
    ∧ (how = .good → (finishBurn how s).fuse = { s.fuse with roots := s.fuse.roots ||| BitVec.ofNat 2048 (burnMask .roots x) }
      ∧ (finishBurn how s).blk.boot.burnLeft = none)
    ∧ (how = .bad → (finishBurn how s).blk.boot.burnLeft = none)
    ∧ (how = .vfzLost → (finishBurn how s).blk.boot.vfz = false ∧ (finishBurn how s).blk.boot.burnLeft = some (.roots, x)) := by
  have hle : s.fuse.le (burn how .roots x s).fuse := (burn_keeps how .roots x s).2.1
  have hspent := burn_spent how .roots x s
  unfold finishBurn
  rw [hb]
  dsimp only
  rw [hr]
  cases how with
  | good =>
    obtain ⟨hboot, hsensed⟩ := afterBurn_roots (modBoot (fun t => { t with burnLeft := none }) (burn .good .roots x s).blk)
    exact ⟨hle, (congrArg Sensed.spent hsensed).trans hspent, fun _ => ⟨rfl, congrArg Boot.burnLeft hboot⟩, nofun, nofun⟩
  | bad => exact ⟨hle, hspent, nofun, fun _ => rfl, nofun⟩
  | vfzLost => exact ⟨hle, hspent, nofun, nofun, fun _ => ⟨rfl, hb⟩⟩

/-- The first scan of an open port. -/
theorem scanFirst_eq (b : Block) : scanFirst b
    = withEvent evDebugOpened [] (zeroPages (purgeJobs (zeroSlots { b with boot := { b.boot with scanUsed := true } }))) := raise_withEvent _ _ _

theorem scanAccess_deep {k : ScanKind} {b : Block} (hd : tapDeep b = true) :
    scanAccess k b = when (k == .scan) (modBoot fun t => { t with scan := true }) (when (!b.boot.scanUsed) scanFirst b) := by
  rw [scanAccess, hd, when_true]

/-- An operation that still waits when its time is over is given up. -/
theorem sbTimeout_waiting {b : Block} {q : SbOp} {l : List SbOp} (hn : b.sb = none) (hq : b.sbQueue = q :: l) :
    sbTimeout b = sbPump (sbAnswer q none { b with sbQueue := l, now := max b.now (q.since + 50000) }) := by
  unfold sbTimeout
  split
  · rename_i h
    rw [hn] at h
    cases h
  · rename_i h
    rw [hq] at h
    cases h
    rfl
  · rename_i h
    rw [hq] at h
    cases h

/-- Cell 2 is read, and no lockout runs. -/
theorem gateAnswer_free {again : Bool} {v : Nat} {b : Block} (h : b.boot.readyAt + lockoutUs (v % 256) ≤ b.now) : gateAnswer again (some v) b =
    { b with ym := { b.ym with gate := { b.ym.gate with
      cell := v, fails := v % 256, known := true, retry := false, lockoutEnd := none } } } := by
  unfold gateAnswer
  dsimp only
  rw [if_neg (Nat.not_lt.2 h)]
  rfl

/-- Settles O60: answers by `sbAnswer`, paused burns by `finishBurn` and `finishItems`, the test port by `tapSelect` and `scanAccess`. -/
theorem answersSuppliesAndTestAccess : Obligations.AnswersSuppliesAndTestAccess := by
  intro s how code k b
  refine ⟨fun e v => ⟨rfl, fun hq hd => ?_, fun hn => ?_⟩, ?_, ?_, ?_, fun hn hq => ?_, fun q id hn hq hu => ?_, fun hv => ?_,
    fun hv => ⟨fun hb hc => ?_, ?_, fun x hb ha => ?_⟩, fun hr ha => ⟨?_, ?_⟩, wake_eq, fun hr ha => ⟨?_, fun hi hs => ?_, fun h => ?_⟩,
    fun hr hh => ⟨fun hi hg => ?_, fun h => ?_⟩, ?_, tapDeep_iff, fun hd => ?_, ?_⟩
  · refine upd_gives ?_
    show drained (sbPump { b with sbDrop := b.sbDrop - 1 }) = _
    rw [sbPump_empty (t := { b with sbDrop := b.sbDrop - 1 }) hq]
    exact drained_closed hd
  · refine upd_gives ?_
    show (match b.sb with | none => b | some o => _) = b
    rw [hn]
  · intro q t lost
    have hlost : lost = cellRead q none t := rfl
    rw [cellRead_lost] at hlost
    refine ⟨fun v => cellRead_value q t v, fun h0 => hlost.trans (if_pos h0), fun h0 h1 => hlost.trans ((if_neg h0).trans (if_pos h1)),
      fun h0 h2 => hlost.trans ((if_neg h0).trans ((if_neg (by rw [h2]; decide)).trans (if_pos h2))),
      fun h0 h1 h2 => hlost.trans ((if_neg h0).trans ((if_neg h1).trans (if_neg h2)))⟩
  · intro q id v hb hu hq told
    have hanswer : ∀ (t : Block) (a : Option Nat), t.sbQueue = [] → sbPump (sbAnswer q a { t with sb := none }) = told t a :=
      fun t a ht => sbAnswer_cmd hu (t := { t with sb := none }) ht a
    refine ⟨upd_gives ?_, upd_gives ?_, upd_gives ?_⟩
    · show (match b.sb with | none => b | some o => sbPump (sbAnswer o (some v.toNat) { b with sb := none })) = _
      rw [hb]
      exact hanswer b _ hq
    · show (match b.sb with | none => b | some o => sbPump (sbAnswer o none { b with sb := none })) = _
      rw [hb]
      exact hanswer b _ hq
    · unfold sbTimeout
      rw [hb]
      exact hanswer { b with sbDrop := b.sbDrop + 1, now := max b.now (q.since + 50000) } none hq
  · intro q v hb hu hq hn
    refine upd_gives ?_
    show (match b.sb with | none => b | some o => sbPump (sbAnswer o (some v.toNat) { b with sb := none })) = _
    rw [hb]
    have hans : sbAnswer q (some v.toNat) { b with sb := none } = gateAnswer true (some v.toNat) { b with sb := none } := by
      unfold sbAnswer
      rw [hu]
    dsimp only
    rw [hans, sbPump_empty (show (gateAnswer true (some v.toNat) { b with sb := none }).sbQueue = [] from hq)]
    exact gateAnswer_free (b := { b with sb := none }) hn
  · refine upd_gives ?_
    unfold sbTimeout
    rw [hn, hq]
  · refine upd_gives ((sbTimeout_waiting hn hq).trans ?_)
    exact (sbAnswer_cmd hu (t := { b with sbQueue := [], now := max b.now (q.since + 50000) }) rfl none).trans rfl
  · exact if_neg (by rw [hv]; decide)
  · refine (if_pos hv).trans (congrArg _ ?_)
    dsimp only
    rw [show (modBoot (fun t => { t with vfz := true }) s.blk).boot.burnLeft = none from hb]
    exact finishItems_others hc
  · intro c hb hc hop ha r
    have hrun : exec (.vfzWithinRange how) s = .next (finishItems how { s with blk := modBoot (fun t => { t with vfz := true }) s.blk }) := by
      refine (if_pos hv).trans (congrArg _ ?_)
      dsimp only
      rw [show (modBoot (fun t => { t with vfz := true }) s.blk).boot.burnLeft = none from hb]
      rfl
    have hready : burnReady (modBoot (fun t => { t with vfz := true }) s.blk) = true := by
      show (true && !anyHold s.blk) = true
      rw [ha]
      rfl
    have hitems := finishItems_one (how := how) (s := { s with blk := modBoot (fun t => { t with vfz := true }) s.blk }) (r := r) hc hop hready rfl
    exact ⟨fun h => hrun.trans (congrArg _ (hitems.trans (if_neg h))), fun h => hrun.trans (congrArg _ (hitems.trans (if_pos h)))⟩
  · have hready : burnReady (modBoot (fun t => { t with vfz := true }) s.blk) = true := by
      show (true && !anyHold s.blk) = true
      rw [ha]
      rfl
    have hrun : exec (.vfzWithinRange how) s = .next (finishBurn how { s with blk := modBoot (fun t => { t with vfz := true }) s.blk }) := by
      refine (if_pos hv).trans (congrArg _ ?_)
      dsimp only
      rw [show (modBoot (fun t => { t with vfz := true }) s.blk).boot.burnLeft = some (.roots, x) from hb]
      rfl
    exact ⟨_, hrun, finishBurn_roots (s := { s with blk := modBoot (fun t => { t with vfz := true }) s.blk }) hb hready⟩
  · refine updReady_gives hr ?_
    rw [ha]
    rfl
  · cases hh : holding s.blk 0
    · refine updOn_gives hr hh ?_
      rw [ha, Bool.not_true, Bool.and_false]
      rfl
    · exact updReady_gives hr (by rw [hh]; rfl)
  · refine updReady_gives hr ?_
    rw [ha]
    refine (wake_eq b).trans ?_
    rw [holding_of_anyHold ha (by decide)]
    rfl
  · refine updOn_gives hr (holding_of_anyHold ha (by decide)) ?_
    rw [hi, hs, ha]
    rfl
  · refine updOn_gives hr (holding_of_anyHold ha (by decide)) ?_
    obtain h | h := h
    · rw [h]
      rfl
    · rw [h, Bool.not_true, Bool.and_false]
      rfl
  · refine updOn_gives hr hh ?_
    rw [hi, hg]
    rfl
  · refine updOn_gives hr hh ?_
    obtain h | h := h
    · rw [h]
      rfl
    · rw [h, Bool.not_true, Bool.and_false]
      rfl
  · intro hv runs
    have hgive : ∀ {ir : TapIr} {t : Block}, tapSelect ir b = t → Gives (.tapInstruction ir) s t := fun h => upd_gives (by rw [hv]; exact h)
    exact ⟨hgive tapSelect_trst, hgive tapSelect_idcode, hgive (tapSelect_bypass (by rw [tapRuns]; split <;> rfl)),
      fun ho => hgive (tapSelect_bypass (by rw [tapRuns, ho]; rfl)), fun ho => hgive (tapSelect_other ho)⟩
  · refine upd_gives ?_
    rw [scanAccess, hd]
    rfl
  · intro hd scanned
    have hscan : ∀ t, when (k == .scan) (modBoot fun t => { t with scan := true }) t = scanned t := fun t => by
      cases k <;> rfl
    refine ⟨fun hu => upd_gives ?_, ?_⟩
    · rw [scanAccess_deep hd, hscan, hu]
      rfl
    · intro hu z
      refine ⟨upd_gives ?_, zeroSlots_sys _, fun x hx => zeroSlots_slot _ hx, fun x hx => zeroSlots_sk _ hx,
        fun t n r ⟨q, hq⟩ hr => zeroPages_frames t hq hr⟩
      rw [scanAccess_deep hd, hscan, hu, ← scanFirst_eq]
      rfl

end Sys2Proof.Machine
end


section
/-!
SUPPORT. Resets, start-up and the rise of `ready` (R474, R475, R516 to R525, R548, R552).
-/

namespace Sys2Proof.Machine

open Sys2Proof

/-! ## What a change of the lanes' fences and the wear of an island leave as they are -/

/-- The parts of the block that start-up reads and that no measurement changes. -/
def bootParts (b : Block) := (b.boot, b.sensed, b.holds, b.sb, b.sbQueue, b.sbDrop, b.portDrain, b.now, b.lt.latchKey)

section
variable {β : Type} {g : Block → β}

theorem fence_part (hl : ∀ t x, g { t with lanes := x } = g t) (hs : ∀ t x, g { t with stalls := x } = g t)
    (he : ∀ c d t, g (raise c d t) = g t) (l : Nat) (f : Lane → Lane) (b : Block) : g (fence l f b) = g b := by
  have hrefill : g (refillAll b) = g b := each_keeps (fun n t => hs t _) _ _
  have hunpair : ∀ t, g (unpair l t) = g t := fun t => when_keeps (f := modLane _ _) (fun t => hl t _) _ _
  unfold fence
  dsimp only
  rw [when_keeps (g := g) (he _ _), hunpair]
  exact (hl _ _).trans hrefill

theorem loseEngine_part (hl : ∀ t x, g { t with lanes := x } = g t) (hs : ∀ t x, g { t with stalls := x } = g t)
    (he : ∀ c d t, g (raise c d t) = g t) (hi : ∀ t x, g { t with islands := x } = g t) (hc : ∀ t x, g { t with cores := x } = g t)
    (i : Nat) (b : Block) : g (loseEngine i b) = g b := by
  have hrefill : g (refillAll b) = g b := each_keeps (fun n t => hs t _) _ _
  unfold loseEngine
  split
  · exact fence_part hl hs he _ _ _
  · split
    · exact (hi _ _).trans hrefill
    · split
      · exact (hc _ _).trans hrefill
      · rfl

theorem wearEvents_part (hl : ∀ t x, g { t with lanes := x } = g t) (hs : ∀ t x, g { t with stalls := x } = g t)
    (he : ∀ c d t, g (raise c d t) = g t) (hi : ∀ t x, g { t with islands := x } = g t) (hc : ∀ t x, g { t with cores := x } = g t)
    (hr : ∀ t x, g { t with rerates := x } = g t) (hlow : ∀ i t, g (modWear i (fun w => { w with lifeLowRaised := true }) t) = g t)
    (i old new : Nat) (m : Int) (l : Nat) (b : Block) : g (wearEvents i old new m l b) = g b := by
  have hlife : ∀ l t, g (raiseLife i l t) = g t := fun l t => (he _ _ _).trans (hlow i t)
  have hfirst : ∀ c, g (when c (fun b => raise evRerated (toLe 1 i ++ toLe 1 old ++ toLe 1 new) { b with rerates := satAdd 32 b.rerates 1 }) b) = g b :=
    fun c => when_keeps (f := fun b => raise evRerated (toLe 1 i ++ toLe 1 old ++ toLe 1 new) { b with rerates := satAdd 32 b.rerates 1 })
      (fun t => (he _ _ _).trans (hr t _)) c b
  unfold wearEvents
  dsimp only
  split
  · rw [hlife, loseEngine_part hl hs he hi hc, hfirst]
  · rw [when_keeps (g := g) (hlife l), hfirst]

end

theorem loseEngine_bootParts (i : Nat) (b : Block) : bootParts (loseEngine i b) = bootParts b :=
  loseEngine_part (fun _ _ => rfl) (fun _ _ => rfl) (fun _ _ _ => rfl) (fun _ _ => rfl) (fun _ _ => rfl) i b

theorem wearEvents_bootParts (i old new : Nat) (m : Int) (l : Nat) (b : Block) : bootParts (wearEvents i old new m l b) = bootParts b :=
  wearEvents_part (fun _ _ => rfl) (fun _ _ => rfl) (fun _ _ _ => rfl) (fun _ _ => rfl) (fun _ _ => rfl) (fun _ _ => rfl) (fun _ _ => rfl)
    i old new m l b

theorem modWear_margin (i k : Nat) (b : Block) : ((modWear i (fun w => { w with lifeLowRaised := true }) b).wear.get k).margin = (b.wear.get k).margin := by
  by_cases h : k = i
  · rw [h, modWear, Tab.get_mod_self]
  · rw [modWear, Tab.get_mod_ne _ _ h]

theorem wearEvents_margin (i old new : Nat) (m : Int) (l : Nat) (k : Nat) (b : Block) :
    ((wearEvents i old new m l b).wear.get k).margin = (b.wear.get k).margin :=
  wearEvents_part (g := fun t => (t.wear.get k).margin) (fun _ _ => rfl) (fun _ _ => rfl) (fun _ _ _ => rfl) (fun _ _ => rfl) (fun _ _ => rfl)
    (fun _ _ => rfl) (fun i t => modWear_margin i k t) i old new m l b

/-! ## Measurements (R502, R506) -/

/-- The margin that a measurement finds at a ratio. -/
def foundMargin (r : Nat) (x : Gauges) : Int := (rerateGo 15 (marginOf (tjNow x.oscLo x.oscHi) x) r).1

section
variable (sample : Bool) (s : State) (x : Fin 22 × Gauges)

theorem measureOne_outside : (measureOne sample s x).fuse = s.fuse ∧ (measureOne sample s x).pending = s.pending
    ∧ (measureOne sample s x).clk.ratio = s.clk.ratio ∧ bootParts (measureOne sample s x).blk = bootParts s.blk := by
  unfold measureOne
  dsimp only
  split
  · exact ⟨rfl, rfl, rfl, rfl⟩
  · exact ⟨rfl, rfl, rfl, wearEvents_bootParts _ _ _ _ _ _⟩

theorem measureOne_margin (h : holding s.blk x.1.val = false) (k : Nat) : ((measureOne sample s x).blk.wear.get k).margin =
    if k = x.1.val then foundMargin (s.clk.ratio.get k) x.2 else (s.blk.wear.get k).margin := by
  unfold measureOne
  dsimp only
  rw [if_neg (Bool.eq_false_iff.1 h)]
  dsimp only
  rw [wearEvents_margin]
  by_cases hk : k = x.1.val
  · rw [if_pos hk, hk, modWear, Tab.get_mod_self]
    rfl
  · rw [if_neg hk, modWear, Tab.get_mod_ne _ _ hk]

end

theorem boot_of_parts {b t : Block} (h : bootParts t = bootParts b) : t.boot = b.boot := congrArg (fun p => p.1) h

theorem holding_of_parts {b t : Block} (h : bootParts t = bootParts b) (k : Nat) : holding t k = holding b k := by
  have : t.holds = b.holds := congrArg (fun p => p.2.2.1) h
  rw [holding, holding, this]

/-- Measurements of a list of islands. -/
theorem measure_outside (sample : Bool) (l : List (Fin 22)) (g : Vector Gauges 22) (s : State) :
    (measure sample l g s).fuse = s.fuse ∧ (measure sample l g s).pending = s.pending ∧ (measure sample l g s).clk.ratio = s.clk.ratio
    ∧ bootParts (measure sample l g s).blk = bootParts s.blk := by
  unfold measure
  induction l generalizing s with
  | nil => exact ⟨rfl, rfl, rfl, rfl⟩
  | cons i l ih =>
    obtain ⟨h1, h2, h3, h4⟩ := measureOne_outside sample s (i, g.get i)
    obtain ⟨k1, k2, k3, k4⟩ := ih (measureOne sample s (i, g.get i))
    exact ⟨k1.trans h1, k2.trans h2, k3.trans h3, k4.trans h4⟩

theorem measure_margin (sample : Bool) (l : List (Fin 22)) (g : Vector Gauges 22) (s : State) (hh : ∀ i : Fin 22, holding s.blk i.val = false) (n : Fin 22) :
    ((measure sample l g s).blk.wear.get n.val).margin = if n ∈ l then foundMargin (s.clk.ratio.get n.val) (g.get n) else (s.blk.wear.get n.val).margin := by
  unfold measure
  induction l generalizing s with
  | nil => rfl
  | cons i l ih =>
    obtain ⟨-, -, hratio, hparts⟩ := measureOne_outside sample s (i, g.get i)
    have hone := measureOne_margin sample s (i, g.get i) (hh i) n.val
    have hrest := ih (measureOne sample s (i, g.get i)) fun k => (holding_of_parts hparts k.val).trans (hh k)
    rw [List.map_cons, List.foldl_cons, hrest, hratio, hone]
    by_cases hl : n ∈ l
    · rw [if_pos hl, if_pos (List.mem_cons_of_mem _ hl)]
    · rw [if_neg hl]
      by_cases hi : n = i
      · rw [hi, if_pos rfl, if_pos List.mem_cons_self]
      · rw [if_neg fun h => hi (Fin.ext h), if_neg fun h => (List.mem_cons.1 h).elim hi hl]

/-! ## Start-up up to step 9 (R519, R523) -/

theorem zeroSlots_boot (b : Block) : (zeroSlots b).boot = b.boot := by
  have h1 : (zeroStallKeys (zeroWorking (modTack (fun t => { t with sys := { dflt := {} } }) b))).boot
      = (zeroWorking (modTack (fun t => { t with sys := { dflt := {} } }) b)).boot := by
    unfold zeroStallKeys
    refine each_keeps (g := Block.boot) (fun _ _ => ?_) _ _
    rfl
  have h2 : (zeroWorking (modTack (fun t => { t with sys := { dflt := {} } }) b)).boot = b.boot := by
    unfold zeroWorking
    refine (each_keeps (g := Block.boot) (fun _ _ => ?_) _ _).trans ?_
    · rfl
    · rfl
  exact h1.trans h2

/-- Start-up that has stopped. -/
theorem stopAt_halted (step cause : Nat) (s : State) : (stopAt step cause s).fuse = s.fuse
    ∧ (stopAt step cause s).blk.boot = { s.blk.boot with step := step, cause := cause, stopped := true }
    ∧ (stopAt step cause s).blk.tack.sys = { dflt := {} } :=
  ⟨rfl, zeroSlots_boot _, zeroSlots_sys _⟩

theorem stopAt_stops {s : State} {r : Bool} (step cause : Nat) (h : s.blk.boot.ready = r) : let t := (stopAt step cause s).blk
    t.boot.step = step ∧ t.boot.cause = cause ∧ t.boot.stopped = true ∧ t.boot.ready = r ∧ t.tack.sys = { dflt := {} } := by
  obtain ⟨-, hboot, hsys⟩ := stopAt_halted step cause s
  intro t
  refine ⟨?_, ?_, ?_, ?_, hsys⟩ <;> rw [show t.boot = _ from hboot]
  exact h

theorem loseEngines_ready (l : List (Fin 24)) (b : Block) : (loseEngines l b).boot.ready = b.boot.ready := by
  unfold loseEngines
  dsimp only
  rw [when_keeps (f := modBoot fun t => { t with engineLost := true }) (g := fun t => t.boot.ready) (fun _ => rfl)]
  exact each_keeps (g := fun t => t.boot.ready) (fun i t => congrArg (fun p => p.1.ready) (loseEngine_bootParts i.val t)) _ _

theorem openLeanTo_parts (b : Block) : bootParts (openLeanTo b) = bootParts b := by
  unfold openLeanTo
  refine when_keeps (f := fun b => raise evLtRestarted [] (modLt (fun l => { l with restarted := false }) b)) (g := bootParts) (fun t => ?_) _ _
  rfl

/-- The block at step 3: its fuses are sensed. -/
def sensedBlock (o : StartObs) (s : State) : Block :=
  let b := modBoot (fun t => { t with obs := none, cause := 0, bootTime := if t.obs.isSome then t.bootTime else s.blk.now }) (openLeanTo s.blk)
  { b with sensed := sense s.fuse, now := b.now + o.elapsed }

/-- The block at step 5. -/
def testedBlock (o : StartObs) (s : State) : Block :=
  loseEngines o.sramFails (modBoot (fun t => { t with step := 5 }) (loseEngines o.lockFails (sensedBlock o s)))

section
variable {o : StartObs} {s : State}

theorem startSteps_lock (h : vital o.lockFails = true) : startSteps o s = stopAt 3 2 { s with blk := sensedBlock o s } := if_pos h

theorem startSteps_sram (h : vital o.lockFails = false) (h2 : vital o.sramFails = true) :
    startSteps o s = stopAt 4 3 { s with blk := loseEngines o.lockFails (sensedBlock o s) } :=
  (if_neg (Bool.eq_false_iff.1 h)).trans (if_pos h2)

theorem startSteps_late (h : vital o.lockFails = false) (h2 : vital o.sramFails = false) :
    startSteps o s = startLate o { s with blk := testedBlock o s } :=
  (if_neg (Bool.eq_false_iff.1 h)).trans (if_neg (Bool.eq_false_iff.1 h2))

theorem sensedBlock_boot : (sensedBlock o s).boot = { s.blk.boot with
    obs := none, cause := 0, bootTime := if s.blk.boot.obs.isSome then s.blk.boot.bootTime else s.blk.now } := by
  have h : (openLeanTo s.blk).boot = s.blk.boot := congrArg (fun p => p.1) (openLeanTo_parts s.blk)
  unfold sensedBlock modBoot
  dsimp only
  rw [h]

theorem testedBlock_ready : (testedBlock o s).boot.ready = s.blk.boot.ready := by
  rw [testedBlock, loseEngines_ready]
  show (loseEngines o.lockFails (sensedBlock o s)).boot.ready = _
  rw [loseEngines_ready, sensedBlock_boot]

end

/-! ### Steps 5 to 8 -/

theorem seedLeanTo_part {β : Type} {g : Block → β} (ht : ∀ t x, g { t with lt := x } = g t) (hd : ∀ t x, g { t with draws := x } = g t)
    (b : Block) : g (seedLeanTo b) = g b := by
  unfold seedLeanTo
  dsimp only
  refine (hd _ _).trans ((ht _ _).trans ?_)
  split
  · exact (hd _ _).trans (ht _ _)
  · rfl

theorem seedLeanTo_latchKey (b : Block) : (seedLeanTo b).lt.latchKey ≠ none
    ∧ ∀ key, b.lt.latchKey = some key → (seedLeanTo b).lt.latchKey = some key := by
  have h : (seedLeanTo b).lt.latchKey = (if b.lt.latchKey.isNone then drew (modLt (fun l => { l with latchKey := some (drbgNow b 32) }) b) else b).lt.latchKey := rfl
  rw [h]
  cases hk : b.lt.latchKey with
  | none => exact ⟨nofun, nofun⟩
  | some key =>
    rw [Option.isNone_some, if_neg (by decide), hk]
    exact ⟨nofun, fun _ h => h⟩

theorem seedLeanTo_seeded (b : Block) : ((seedLeanTo b).lt.mesh.get 0).seeded = true ∧ ((seedLeanTo b).lt.mesh.get 1).seeded = true := by
  unfold seedLeanTo
  dsimp only
  generalize (if b.lt.latchKey.isNone then drew (modLt (fun l => { l with latchKey := some (drbgNow b 32) }) b) else b) = c
  constructor
  · show (((c.lt.mesh.mod 0 _).mod 1 _).get 0).seeded = true
    rw [Tab.get_mod_ne _ _ (by decide), Tab.get_mod_self]
  · show (((c.lt.mesh.mod 0 _).mod 1 _).get 1).seeded = true
    rw [Tab.get_mod_self]

theorem barnOf_congr {b t : Block} (hs : t.sensed = b.sensed) (hl : t.lt.latchKey = b.lt.latchKey) : barnOf t = barnOf b := by
  unfold barnOf selectedRoot Block.lc
  rw [hs, hl]

/-- What `each` keeps, when the body keeps it for each of the list. -/
theorem each_keeps_of {α β : Type} {g : Block → β} {f : α → Block → Block} {l : List α} (h : ∀ x ∈ l, ∀ b, g (f x b) = g b) (b : Block) :
    g (each l f b) = g b := by
  induction l generalizing b with
  | nil => rfl
  | cons x l ih => rw [each_cons, ih fun y hy => h y (List.mem_cons_of_mem _ hy), h x List.mem_cons_self]

/-- Deriving the system keys fills the barn key's slot. -/
theorem deriveSystem_barn {b : Block} {key : Bytes} (h : barnOf b = some key) : ((deriveSystem b).tack.sys.get 0).content = key := by
  unfold deriveSystem
  rw [h]
  dsimp only
  rw [each_keeps (g := fun t => t.tack.sys.get 0) (f := skRetag) (fun _ _ => rfl)]
  refine (each_keeps_of (g := fun t => (t.tack.sys.get 0).content) (l := [1, 2, 3, 4]) (fun i hi t => ?_) (setSys 0 key b)).trans (setSys_content 0 key b)
  have hi0 : i ≠ 0 := fun h0 => absurd (h0 ▸ hi) (by decide)
  split
  · exact congrArg SysSlot.content (setSys_ne (Ne.symm hi0) _ t)
  · rfl

theorem startEntropy_fine {o : StartObs} {b : Block} (he : o.entropyOk = true) (hl : o.lockFails = []) (hs : o.sramFails = []) :
    startEntropy o b = b := by
  refine if_pos ?_
  rw [he, hl, hs]
  rfl

theorem startEntropy_ready (o : StartObs) (b : Block) : (startEntropy o b).boot.ready = b.boot.ready := by
  unfold startEntropy
  split
  · rfl
  · rw [raiseSource_boot]
    rfl

theorem startKeys_agree {b : Block} (h : b.boot.entropyStopped = false) : startKeys .agree b
    = modBoot (fun x => { x with noBarnKey := !barnHeld (deriveSystem (seedLeanTo b)) }) (deriveSystem (seedLeanTo b)) := by
  unfold startKeys
  rw [h]
  rfl

theorem startKeys_ready (t : Take) (b : Block) : (startKeys t b).boot.ready = b.boot.ready := by
  have hseed : (seedLeanTo b).boot = b.boot := seedLeanTo_part (g := Block.boot) (fun _ _ => rfl) (fun _ _ => rfl) b
  unfold startKeys
  dsimp only
  show Boot.ready (Block.boot (if _ then _ else _)) = _
  split
  · rfl
  · split
    · rw [raise_boot, hseed]
    · split
      · rw [hseed]
      · rw [deriveSystem_boot, hseed]

/-- The studbook's channel is free, and asks at once. -/
def sbIdle (b : Block) : Prop := b.sb = none ∧ b.sbQueue = [] ∧ b.sbDrop = 0 ∧ b.portDrain = false

theorem sbAsk_issues {b : Block} {x : SbOp} (h : sbIdle b) (ho : x.op = 0 ∨ anyHold b = false) :
    sbAsk x b = { b with sb := some { x with since := b.now }, sbQueue := [] } := by
  obtain ⟨h1, h2, h3, h4⟩ := h
  have hfree : sbFree { b with sbQueue := b.sbQueue ++ [{ x with since := b.now }] } = true := by
    rw [sbFree, h1, h3, h4]
    rfl
  have hmay : (x.op == 0 || !anyHold b) = true := by
    obtain h | h := ho
    · rw [h]
      rfl
    · rw [h, Bool.not_false, Bool.or_true]
  have hfind : ([{ x with since := b.now }] : List SbOp).find? (fun o => o.op == 0 || !anyHold b) = some { x with since := b.now } :=
    List.find?_cons_of_pos hmay
  unfold sbAsk sbPump
  rw [hfree, h2]
  dsimp only [List.nil_append]
  rw [show anyHold { b with sbQueue := [{ x with since := b.now }] } = anyHold b from rfl, if_pos rfl, hfind]
  dsimp only
  rw [List.erase_cons_head]

theorem modTack_bootParts (f : Tack → Tack) (b : Block) : bootParts (modTack f b) = bootParts b := rfl

theorem startWear_outside (o : StartObs) (s : State) : (startWear o s).fuse = s.fuse ∧ (startWear o s).pending = s.pending
    ∧ (startWear o s).clk.ratio = s.clk.ratio ∧ bootParts (startWear o s).blk = bootParts s.blk := by
  obtain ⟨h1, h2, h3, h4⟩ := measure_outside true everyIsland o.gauges s
  unfold startWear
  dsimp only
  exact ⟨h1, h2, h3, (modTack_bootParts _ _).trans ((modTack_bootParts _ _).trans h4)⟩

theorem startWear_margin {o : StartObs} {s : State} (h : ∀ i : Fin 22, holding s.blk i.val = false) (n : Fin 22) :
    ((startWear o s).blk.wear.get n.val).margin = foundMargin (s.clk.ratio.get n.val) (o.gauges.get n) := by
  have hm := (measure_margin true everyIsland o.gauges s h n).trans (if_pos (List.mem_finRange n))
  unfold startWear setGroom
  dsimp only
  rw [modTack_wear, modTack_wear]
  exact hm

theorem startLate_rom {o : StartObs} {s : State} (h : o.romOk = false) : startLate o s = stopAt 8 4
    { startWear o s with blk := startKeys o.lifecycle (startEntropy o (startWear o s).blk) } := by
  unfold startLate
  dsimp only
  rw [h]
  rfl

theorem startLate_asks {o : StartObs} {s : State} (h : o.romOk = true) : startLate o s =
    { startWear o s with blk := askEpoch (startKeys o.lifecycle (startEntropy o (startWear o s).blk)) } := by
  unfold startLate
  dsimp only
  rw [h]
  rfl

/-! ## The rise of `ready` (R519, R524) -/

/-- The block in which `ready` has just risen. -/
def risenBlock (b : Block) : Block :=
  startTimers { b with rerates := 0, wearDue := b.now + 86400000000, tempDue := b.now + 60000000
                       boot := { b.boot with step := 10, ready := true, readyAt := b.now, bootTime := b.now - b.boot.bootTime } }

theorem riseReady_few {b : Block} (h : lanesFenced b < 5) : riseReady b = sbAsk { user := .afterReady 1, cell := 1 } (risenBlock b) := by
  unfold riseReady
  rw [decide_eq_false (Nat.not_le.2 h)]
  rfl

theorem riseReady_many {b : Block} (h : 5 ≤ lanesFenced b) : riseReady b =
    sbAsk { user := .afterReady 1, cell := 1 } (each (withEvent evLanesDegraded [] (risenBlock b)).lt.fifo (fun _ => arrive)
      (withEvent evLanesDegraded [] (risenBlock b))) := by
  unfold riseReady
  rw [decide_eq_true h]
  rfl

theorem startTimers_get (b : Block) {k : Nat} (h : k < 4) : (startTimers b).timers.get k = ((b.timers.get k).1, b.now + (b.timers.get k).1) :=
  (get_foldl_mod_range (fun x : Nat × Nat => (x.1, b.now + x.1)) 4 b.timers k).trans (if_pos h)

/-- What step 9's answer makes of the epoch. -/
def epochOf (a : Option Nat) (t : Boot) : Boot :=
  match a with
  | none => { t with noEpoch := true, nonceState := 1 }
  | some v => if v ≤ 0xFFFFFFFF then { t with epoch := v, nonceState := 0 } else { t with noEpoch := true, nonceState := 2 }

theorem epochAnswer_rises (a : Option Nat) (b : Block) : epochAnswer a b = riseReady (modBoot (epochOf a) b) := rfl

theorem epochOf_value {v : Nat} (h : v < 2 ^ 32) (t : Boot) : epochOf (some v) t = { t with epoch := v, nonceState := 0 } :=
  if_pos (Nat.le_of_lt_succ h)
theorem epochOf_large {v : Nat} (h : 2 ^ 32 ≤ v) (t : Boot) : epochOf (some v) t = { t with noEpoch := true, nonceState := 2 } :=
  if_neg (Nat.not_le.2 h)
theorem epochOf_none (t : Boot) : epochOf none t = { t with noEpoch := true, nonceState := 1 } := rfl

/-- What the rise of `ready` leaves in the block. -/
theorem risenBlock_rises (b : Block) {k : Nat} (h : k < 4) : (risenBlock b).timers.get k = ((b.timers.get k).1, b.now + (b.timers.get k).1) :=
  startTimers_get _ h

/-! ## Resets (R516 to R518, R548) -/

theorem discardPort_tags (p : PortSt) : (discardPort p).out.map Flight.tag = p.out.map Flight.tag := by
  rw [discardPort, List.map_map]
  rfl

theorem discardPort_owner (p : PortSt) : (discardPort p).waiting = [] ∧ ∀ g ∈ (discardPort p).out, g.req.owner = .discard := by
  refine ⟨rfl, fun g hg => ?_⟩
  obtain ⟨f, -, rfl⟩ := List.mem_map.1 hg
  rfl

/-- The parts a reset empties, at step `k`. -/
def Bare (t : Block) (k now : Nat) (stuck : Bool) : Prop :=
  t.boot.step = k ∧ t.boot.ready = false ∧ t.boot.stopped = stuck ∧ t.jobs = { dflt := none }
    ∧ t.stalls = { dflt := {} } ∧ t.lanes = { dflt := {} } ∧ t.tack = {} ∧ t.ym = {} ∧ t.pack = {} ∧ t.curves = { dflt := {} }
    ∧ t.chutes = { dflt := {} } ∧ t.movers = { dflt := {} } ∧ t.holds = { dflt := none } ∧ t.dbFifo = [] ∧ t.rpFifo = [] ∧ t.mpFifo = []
    ∧ t.mpaCredits = 4 ∧ t.mpbCredits = 4 ∧ t.sb = none ∧ t.now = now

theorem bareBlock_bare (k : Nat) (b : Block) : Bare (bareBlock k b) k b.now false :=
  ⟨rfl, rfl, rfl, rfl, rfl, rfl, rfl, rfl, rfl, rfl, rfl, rfl, rfl, rfl, rfl, rfl, rfl, rfl, rfl, rfl⟩

theorem warmBlock_stuck {u : Block} (cause : Nat) (h : u.boot.stopped = true) :
    Bare (warmBlock cause u) u.boot.step u.now true ∧ (warmBlock cause u).boot.cause = u.boot.cause := by
  unfold warmBlock
  dsimp only
  rw [if_pos h]
  exact ⟨⟨rfl, rfl, rfl, rfl, rfl, rfl, rfl, rfl, rfl, rfl, rfl, rfl, rfl, rfl, rfl, rfl, rfl, rfl, rfl, rfl⟩, rfl⟩

theorem warmBlock_fresh {u : Block} (cause : Nat) (h : u.boot.stopped = false) : Bare (warmBlock cause u) 2 u.now false := by
  unfold warmBlock
  dsimp only
  rw [if_neg (Bool.eq_false_iff.1 h)]
  exact ⟨rfl, rfl, rfl, rfl, rfl, rfl, rfl, rfl, rfl, rfl, rfl, rfl, rfl, rfl, rfl, rfl, rfl, rfl, rfl, rfl⟩

theorem warmBlock_vbk (cause : Nat) (u : Block) : (warmBlock cause u).boot.vbk = u.boot.vbk := by
  unfold warmBlock
  dsimp only
  split <;> rfl

/-- The traffic and the records a warm reset leaves. -/
theorem warmBlock_ports (cause : Nat) (u : Block) :
    (warmBlock cause u).lt = { u.lt with resetCount := satAdd 32 u.lt.resetCount 1, lastReset := BitVec.ofNat 16 cause }
    ∧ (∀ p, ((warmBlock cause u).port p).waiting = [] ∧ ∀ g ∈ ((warmBlock cause u).port p).out, g.req.owner = .discard)
    ∧ (warmBlock cause u).dp0.out.map Flight.tag = u.dp0.out.map Flight.tag
    ∧ (warmBlock cause u).dp1.out.map Flight.tag = u.dp1.out.map Flight.tag
    ∧ (warmBlock cause u).rp.out.map Flight.tag = (u.rp.out.filter fun g => !u.rpFifo.any fun a => a.1 == g.tag).map Flight.tag
    ∧ (warmBlock cause u).sbDrop = u.sbDrop + u.sb.isSome.toNat := by
  refine ⟨rfl, fun p => ?_, discardPort_tags _, discardPort_tags _, discardPort_tags _, ?_⟩
  · cases p <;> exact discardPort_owner _
  · show u.sbDrop + (if u.sb.isSome then 1 else 0) = _
    cases u.sb <;> rfl

/-! ### The studbook's answer in start-up -/

theorem sbAsk_waits {b : Block} {x : SbOp} (h : b.sbDrop ≠ 0) (hq : b.sbQueue = []) : sbAsk x b = { b with sbQueue := [{ x with since := b.now }] } := by
  have hfree : sbFree { b with sbQueue := b.sbQueue ++ [{ x with since := b.now }] } = false := by
    rw [sbFree, beq_eq_false_iff_ne.2 h, Bool.and_false, Bool.false_and]
  unfold sbAsk sbPump
  rw [hfree, hq]
  rfl

theorem sbPump_waits {b : Block} (h : b.sbDrop ≠ 0) : sbPump b = b := by
  unfold sbPump
  rw [sbFree, beq_eq_false_iff_ne.2 h, Bool.and_false, Bool.false_and]
  rfl

/-- The block after `ready` has risen with its first question out. -/
theorem riseReady_asks {b : Block} (h : sbIdle b) (hl : lanesFenced b < 5) :
    riseReady b = { risenBlock b with sb := some { user := .afterReady 1, cell := 1, since := b.now }, sbQueue := [] } :=
  (riseReady_few hl).trans (sbAsk_issues (b := risenBlock b) h (.inl rfl))

section
variable {b : Block} {q : SbOp} {a : Option Nat}

theorem sbAnswer_held (hu : q.user = .boot) (hh : holding b 0 = true ∨ holding b 20 = true) :
    sbAnswer q a b = modBoot (fun t => { t with epochDue := some a }) b := by
  have hor : (holding b 0 || holding b 20) = true := Bool.or_eq_true _ _ ▸ hh
  unfold sbAnswer
  rw [hu]
  exact if_pos hor

theorem sbAnswer_boot (hu : q.user = .boot) (h0 : holding b 0 = false) (h20 : holding b 20 = false) :
    sbAnswer q a b = riseReady (modBoot (epochOf a) b) := by
  unfold sbAnswer
  rw [hu]
  exact bootAnswer_unheld h0 h20 a

theorem sbResponse_answered (hq : b.sb = some q) (err : Bool) (v : Nat) :
    sbResponse false err v b = sbPump (sbAnswer q (if err then none else some v) { b with sb := none }) := by
  unfold sbResponse
  rw [hq]
  rfl

theorem sbTimeout_answered (hq : b.sb = some q) :
    sbTimeout b = sbPump (sbAnswer q none { b with sb := none, sbDrop := b.sbDrop + 1, now := max b.now (q.since + 50000) }) := by
  unfold sbTimeout
  rw [hq]

/-- What an answer read after `ready` leaves of the studbook's channel. -/
theorem afterReady_asks {k v : Nat} (h : sbIdle b) (hu : q.user = .afterReady k) (hk : k < 3) :
    ∃ t : Block, sbAnswer q (some v) b = { t with sb := some { user := .afterReady (k + 1), cell := k + 1, since := t.now }, sbQueue := [] } := by
  have hasks : ∀ t : Block, sbIdle t → askAfter (k + 1) t
      = { t with sb := some { user := .afterReady (k + 1), cell := k + 1, since := t.now }, sbQueue := [] } := by
    intro t ht
    unfold askAfter
    rw [decide_eq_true (show k + 1 ≤ 3 from hk), when_true]
    exact sbAsk_issues ht (.inl rfl)
  unfold sbAnswer
  rw [hu]
  dsimp only
  split
  · exact ⟨_, hasks _ h⟩
  · split
    · exact ⟨_, hasks _ h⟩
    · exact ⟨_, hasks _ h⟩

end

/-- What an answer, or its absence, makes of the epoch's three fields. -/
theorem epochOf_fields (a : Option Nat) (t : Boot) : ∃ e why bad, epochOf a t = { t with epoch := e, nonceState := why, noEpoch := bad }
    ∧ ∀ n, a = some n → n < 2 ^ 32 → e = n := by
  cases a with
  | none => exact ⟨t.epoch, 1, true, rfl, nofun⟩
  | some v =>
    by_cases hv : v < 2 ^ 32
    · exact ⟨v, 0, t.noEpoch, epochOf_value hv t, fun n hn _ => Option.some.inj hn⟩
    · exact ⟨t.epoch, 2, true, epochOf_large (Nat.le_of_not_lt hv) t, fun n hn h => absurd (Option.some.inj hn ▸ h) hv⟩

/-- The epoch's three fields. -/
def withEpoch (e why : Nat) (bad : Bool) (b : Block) : Block := { b with boot := { b.boot with epoch := e, nonceState := why, noEpoch := bad } }

section
variable {b : Block} {a : Option Nat} {e why : Nat} {bad : Bool}

theorem modBoot_epochOf (ho : epochOf a b.boot = { b.boot with epoch := e, nonceState := why, noEpoch := bad }) :
    modBoot (epochOf a) b = withEpoch e why bad b := by
  unfold modBoot withEpoch
  rw [ho]

/-- The answer of step 9 raises `ready` (R519, R523). -/
theorem boot_rises {q : SbOp} (hu : q.user = .boot) (h0 : holding b 0 = false) (h20 : holding b 20 = false) (hi : sbIdle b) (hl : lanesFenced b < 5)
    (ho : epochOf a b.boot = { b.boot with epoch := e, nonceState := why, noEpoch := bad }) :
    sbPump (sbAnswer q a b) = { risenBlock (withEpoch e why bad b) with
      sb := some { user := .afterReady 1, cell := 1, since := b.now }, sbQueue := [] } := by
  rw [sbAnswer_boot hu h0 h20, modBoot_epochOf ho, riseReady_asks (b := withEpoch e why bad b) hi hl]
  exact sbPump_empty rfl

/-- With five lanes or more out of service the hold of LANES_DEGRADED comes with `ready` (R524). -/
theorem boot_rises_many {q : SbOp} (hu : q.user = .boot) (h0 : holding b 0 = false) (h20 : holding b 20 = false) (hl : 5 ≤ lanesFenced b)
    (ho : epochOf a b.boot = { b.boot with epoch := e, nonceState := why, noEpoch := bad }) :
    sbPump (sbAnswer q a b) = sbPump (sbAsk { user := .afterReady 1, cell := 1 }
      (each (withEvent evLanesDegraded [] (risenBlock (withEpoch e why bad b))).lt.fifo (fun _ => arrive)
        (withEvent evLanesDegraded [] (risenBlock (withEpoch e why bad b))))) := by
  rw [sbAnswer_boot hu h0 h20, modBoot_epochOf ho, riseReady_many (b := withEpoch e why bad b) hl]

/-- With a given-up operation still out the first question waits (R536, R545). -/
theorem boot_rises_waiting {q : SbOp} (hu : q.user = .boot) (h0 : holding b 0 = false) (h20 : holding b 20 = false) (hd : b.sbDrop ≠ 0)
    (hq : b.sbQueue = []) (hl : lanesFenced b < 5) (ho : epochOf a b.boot = { b.boot with epoch := e, nonceState := why, noEpoch := bad }) :
    sbPump (sbAnswer q a b) = { risenBlock (withEpoch e why bad b) with sbQueue := [{ user := .afterReady 1, cell := 1, since := b.now }] } := by
  rw [sbAnswer_boot hu h0 h20, modBoot_epochOf ho, riseReady_few (b := withEpoch e why bad b) hl,
    sbAsk_waits (b := risenBlock (withEpoch e why bad b)) hd hq]
  exact sbPump_waits hd

/-- An answer in a hold is kept (R531). -/
theorem boot_waits {q : SbOp} (hu : q.user = .boot) (hh : holding b 0 = true ∨ holding b 20 = true) (hq : b.sbQueue = []) :
    sbPump (sbAnswer q a b) = modBoot (fun t => { t with epochDue := some a }) b := by
  rw [sbAnswer_held hu hh]
  exact sbPump_empty hq

theorem riseReady_boot (hl : lanesFenced b < 5) :
    (riseReady b).boot = { b.boot with step := 10, ready := true, readyAt := b.now, bootTime := b.now - b.boot.bootTime } := by
  rw [riseReady_few hl]
  exact sbPump_boot _

end

/-! ### Start-up as a command -/

section
variable {o : StartObs} {s : State}

theorem startUp_runs (hm : mayBoot s.blk = true) (hw : stepOneWaits o s.blk = false) : exec (.startUp o) s = .next (startSteps o s) :=
  (if_neg (by rw [hm]; decide)).trans (if_neg (Bool.eq_false_iff.1 hw))

theorem startUp_waits (hm : mayBoot s.blk = true) (hw : stepOneWaits o s.blk = true) : exec (.startUp o) s = .next { s with
    blk := { s.blk with boot := { s.blk.boot with
      obs := some o, vddOk := o.vddOk, cause := 1, bootTime := if s.blk.boot.obs.isSome then s.blk.boot.bootTime else s.blk.now } } } :=
  (if_neg (by rw [hm]; decide)).trans (if_pos hw)

theorem mayBoot_parts (h : mayBoot s.blk = true) : s.blk.boot.vdd = true ∧ anyHold s.blk = false := by
  simp only [mayBoot, Bool.and_eq_true, Bool.not_eq_true'] at h
  exact ⟨h.1.1.1, h.2⟩

end

theorem startLate_stops {o : StartObs} {s : State} (hr : o.romOk = false) :
    ∃ w : State, startLate o s = stopAt 8 4 w ∧ w.fuse = s.fuse ∧ w.blk.boot.ready = s.blk.boot.ready := by
  obtain ⟨hfuse, -, -, hparts⟩ := startWear_outside o s
  refine ⟨_, startLate_rom hr, ?_, ?_⟩
  · dsimp only
    exact hfuse
  · rw [startKeys_ready, startEntropy_ready, boot_of_parts hparts]

theorem startLate_goes {o : StartObs} {s : State} (hl : o.lockFails = []) (hs : o.sramFails = []) (he : o.entropyOk = true) (hc : o.lifecycle = .agree)
    (hr : o.romOk = true) (hst : (startWear o s).blk.boot.entropyStopped = false) : startLate o s = { startWear o s with
      blk := askEpoch (modBoot (fun x => { x with noBarnKey := !barnHeld (deriveSystem (seedLeanTo (startWear o s).blk)) })
        (deriveSystem (seedLeanTo (startWear o s).blk))) } := by
  rw [startLate_asks hr, startEntropy_fine he hl hs, hc, startKeys_agree hst]

theorem startSteps_rom {o : StartObs} {s : State} (hl : vital o.lockFails = false) (hs : vital o.sramFails = false) (hr : o.romOk = false) :
    ∃ w : State, startSteps o s = stopAt 8 4 w ∧ w.fuse = s.fuse ∧ w.blk.boot.ready = s.blk.boot.ready := by
  obtain ⟨w, h1, h2, h3⟩ := startLate_stops (s := { s with blk := testedBlock o s }) hr
  exact ⟨w, (startSteps_late hl hs).trans h1, h2, h3.trans testedBlock_ready⟩

/-- The state that start-up without faults has reached before step 7. -/
def measured (o : StartObs) (s : State) : State := startWear o { s with blk := modBoot (fun t => { t with step := 5 }) (sensedBlock o s) }

/-- The block of step 7: the system keys are derived. -/
def keyedBlock (o : StartObs) (s : State) : Block := deriveSystem (seedLeanTo (measured o s).blk)

section
variable {o : StartObs} {s : State}

theorem measured_parts : bootParts (measured o s).blk = bootParts (modBoot (fun t => { t with step := 5 }) (sensedBlock o s)) :=
  (startWear_outside o _).2.2.2

/-- Step 7 changes neither the boot's state nor the studbook's channel. -/
theorem keyedBlock_part {β : Type} {g : Block → β} (hl : ∀ t x, g { t with lt := x } = g t) (ht : ∀ t x, g { t with tack := x } = g t)
    (hd : ∀ t x, g { t with draws := x } = g t) : g (keyedBlock o s) = g (measured o s).blk :=
  (deriveSystem_part _ ht hd).trans (seedLeanTo_part hl hd _)

theorem keyedBlock_lt {β : Type} {g : LeanTo → β} : g (keyedBlock o s).lt = g (seedLeanTo (measured o s).blk).lt :=
  deriveSystem_part (g := fun t => g t.lt) _ (fun _ _ => rfl) (fun _ _ => rfl)

theorem sensedBlock_parts : bootParts (sensedBlock o s) = ((sensedBlock o s).boot, sense s.fuse, s.blk.holds, s.blk.sb, s.blk.sbQueue, s.blk.sbDrop,
    s.blk.portDrain, s.blk.now + o.elapsed, s.blk.lt.latchKey) := by
  have h := openLeanTo_parts s.blk
  simp only [bootParts, Prod.mk.injEq] at h
  obtain ⟨-, -, h3, h4, h5, h6, h7, h8, h9⟩ := h
  unfold sensedBlock bootParts modBoot
  dsimp only
  rw [h3, h4, h5, h6, h7, h8, h9]

/-- Start-up without faults. -/
theorem startSteps_good (hl : o.lockFails = []) (hs : o.sramFails = []) (he : o.entropyOk = true) (hc : o.lifecycle = .agree)
    (hr : o.romOk = true) (hst : s.blk.boot.entropyStopped = false) :
    startSteps o s = { measured o s with blk := askEpoch (modBoot (fun x => { x with noBarnKey := !barnHeld (keyedBlock o s) }) (keyedBlock o s)) } := by
  have htested : testedBlock o s = modBoot (fun t => { t with step := 5 }) (sensedBlock o s) := by
    rw [testedBlock, hl, hs]
    rfl
  have hstop : (measured o s).blk.boot.entropyStopped = false := by
    rw [boot_of_parts measured_parts]
    show (sensedBlock o s).boot.entropyStopped = false
    rw [sensedBlock_boot]
    exact hst
  rw [startSteps_late (by rw [hl]; rfl) (by rw [hs]; rfl), htested]
  exact startLate_goes hl hs he hc hr hstop

end

theorem askEpoch_issues {b : Block} (h : sbIdle b) (hh : anyHold b = false) : askEpoch b = { b with
    boot := { b.boot with step := 9, sealClear := true }
    sb := some { user := .boot, op := 1, cell := 0, arg := 1, since := b.now }
    sbQueue := [] } :=
  sbAsk_issues (b := modBoot (fun t => { t with step := 9, sealClear := true }) b) h (.inr hh)

theorem anyHold_of_holds {b t : Block} (h : t.holds = b.holds) : anyHold t = anyHold b := by
  have : holding t = holding b := funext fun k => by rw [holding, holding, h]
  rw [anyHold, anyHold, this]

theorem holding_of_anyHold_false {b : Block} (h : anyHold b = false) (i : Fin 22) : holding b i.val = false := by
  have := List.any_eq_false.1 h i.val (List.mem_range.2 (by omega))
  simpa using this

section
variable {o : StartObs} {s : State}

/-- The boot's state, the fuses' copy and the studbook's channel at step 7. -/
theorem keyedBlock_parts : (keyedBlock o s).boot = { (sensedBlock o s).boot with step := 5 } ∧ (keyedBlock o s).sensed = sense s.fuse
    ∧ (keyedBlock o s).holds = s.blk.holds ∧ (keyedBlock o s).sb = s.blk.sb ∧ (keyedBlock o s).sbQueue = s.blk.sbQueue
    ∧ (keyedBlock o s).sbDrop = s.blk.sbDrop ∧ (keyedBlock o s).portDrain = s.blk.portDrain ∧ (keyedBlock o s).now = s.blk.now + o.elapsed := by
  have hk := keyedBlock_part (o := o) (s := s) (g := fun b => (b.boot, b.sensed, b.holds, b.sb, b.sbQueue, b.sbDrop, b.portDrain, b.now))
    (fun _ _ => rfl) (fun _ _ => rfl) (fun _ _ => rfl)
  have hm := measured_parts (o := o) (s := s)
  have hs := sensedBlock_parts (o := o) (s := s)
  simp only [bootParts, Prod.mk.injEq] at hk hm hs
  obtain ⟨k1, k2, k3, k4, k5, k6, k7, k8⟩ := hk
  obtain ⟨m1, m2, m3, m4, m5, m6, m7, m8, -⟩ := hm
  obtain ⟨-, s2, s3, s4, s5, s6, s7, s8, -⟩ := hs
  exact ⟨k1.trans m1, k2.trans (m2.trans s2), k3.trans (m3.trans s3), k4.trans (m4.trans s4), k5.trans (m5.trans s5), k6.trans (m6.trans s6),
    k7.trans (m7.trans s7), k8.trans (m8.trans s8)⟩

/-- The latch key and the mesh generators after step 7. -/
theorem keyedBlock_seeded : (keyedBlock o s).lt.latchKey ≠ none ∧ ((keyedBlock o s).lt.mesh.get 0).seeded = true
    ∧ ((keyedBlock o s).lt.mesh.get 1).seeded = true ∧ ∀ key, s.blk.lt.latchKey = some key → (keyedBlock o s).lt.latchKey = some key := by
  have hlt : (keyedBlock o s).lt = (seedLeanTo (measured o s).blk).lt := keyedBlock_lt (g := id)
  have hm := measured_parts (o := o) (s := s)
  have hs := sensedBlock_parts (o := o) (s := s)
  simp only [bootParts, Prod.mk.injEq] at hm hs
  obtain ⟨-, -, -, -, -, -, -, -, m9⟩ := hm
  obtain ⟨-, -, -, -, -, -, -, -, s9⟩ := hs
  rw [hlt]
  obtain ⟨h1, h2⟩ := seedLeanTo_latchKey (measured o s).blk
  obtain ⟨h3, h4⟩ := seedLeanTo_seeded (measured o s).blk
  exact ⟨h1, h3, h4, fun key hk => h2 key ((m9.trans s9).trans hk)⟩

/-- The barn key's slot after step 7. -/
theorem keyedBlock_barn {key : Bytes} (h : barnOf (keyedBlock o s) = some key) : ((keyedBlock o s).tack.sys.get 0).content = key :=
  deriveSystem_barn ((barnOf_congr (deriveSystem_sensed _).symm (congrArg LeanTo.latchKey (keyedBlock_lt (g := id)).symm)).trans h)

/-- The margins that step 5 has measured. -/
theorem keyedBlock_margin (h : anyHold s.blk = false) (n : Fin 22) :
    ((keyedBlock o s).wear.get n.val).margin = foundMargin (s.clk.ratio.get n.val) (o.gauges.get n) := by
  have hwear : (keyedBlock o s).wear = (measured o s).blk.wear := keyedBlock_part (fun _ _ => rfl) (fun _ _ => rfl) (fun _ _ => rfl)
  have hs := sensedBlock_parts (o := o) (s := s)
  simp only [bootParts, Prod.mk.injEq] at hs
  obtain ⟨-, -, hholds, -⟩ := hs
  rw [hwear, measured]
  exact startWear_margin (fun i => holding_of_anyHold_false ((anyHold_of_holds (b := s.blk) hholds).trans h) i) n

theorem measured_outside : (measured o s).fuse = s.fuse ∧ (measured o s).pending = s.pending ∧ (measured o s).clk.ratio = s.clk.ratio := by
  obtain ⟨h1, h2, h3, -⟩ := startWear_outside o { s with blk := modBoot (fun t => { t with step := 5 }) (sensedBlock o s) }
  exact ⟨h1, h2, h3⟩

/-- Start-up without faults, up to the question of step 9. -/
theorem startSteps_asks (hl : o.lockFails = []) (hs : o.sramFails = []) (he : o.entropyOk = true) (hc : o.lifecycle = .agree) (hr : o.romOk = true)
    (hst : s.blk.boot.entropyStopped = false) (hi : sbIdle s.blk) (hh : anyHold s.blk = false) :
    startSteps o s = { measured o s with blk := { keyedBlock o s with
      boot := { (keyedBlock o s).boot with noBarnKey := !barnHeld (keyedBlock o s), step := 9, sealClear := true }
      sb := some { user := .boot, op := 1, cell := 0, arg := 1, since := (keyedBlock o s).now }
      sbQueue := [] } } := by
  obtain ⟨-, -, k3, k4, k5, k6, k7, -⟩ := keyedBlock_parts (o := o) (s := s)
  obtain ⟨i1, i2, i3, i4⟩ := hi
  rw [startSteps_good hl hs he hc hr hst]
  generalize keyedBlock o s = K at *
  rw [askEpoch_issues (b := modBoot _ K) ⟨k4.trans i1, k5.trans i2, k6.trans i3, k7.trans i4⟩ ((anyHold_of_holds k3).trans hh)]
  rfl

end

/-! ### CLK_REF_WITHIN_RANGE -/

section
variable {s : State}

/-- The state in which `clk_ref` is within range. -/
def clockedState (s : State) : State := { s with blk := { s.blk with boot := { s.blk.boot with clkRef := s.blk.boot.vdd, vddOk := s.blk.boot.vdd } } }

theorem clkRef_none (h : s.blk.boot.obs = none) : exec .clkRefWithinRange s = .next (clockedState s) := by
  show execClkRefWithinRange s = _
  unfold execClkRefWithinRange
  dsimp only
  rw [h]
  rfl

theorem clkRef_some {o : StartObs} (h : s.blk.boot.obs = some o) :
    exec .clkRefWithinRange s = if mayBoot s.blk then .next (startSteps o (clockedState s)) else .next (clockedState s) := by
  show execClkRefWithinRange s = _
  unfold execClkRefWithinRange
  dsimp only
  rw [h]
  rfl

theorem clkRef_stuck (h : mayBoot s.blk = false) : exec .clkRefWithinRange s = .next (clockedState s) := by
  cases ho : s.blk.boot.obs with
  | none => exact clkRef_none ho
  | some o => exact (clkRef_some ho).trans (if_neg (Bool.eq_false_iff.1 h))

end

/-! ## The statement -/

/-- Settles O59: resets by the block they leave, start-up by its steps, the studbook's answer by the rise of `ready`. -/
theorem resetsAndStartUp : Obligations.ResetsAndStartUp := by
  intro s c o b bare cleared warm halted since
  have hwarm : ∀ (u : Block) (cause : Nat), u.boot.stopped = b.boot.stopped → u.boot.step = b.boot.step → u.boot.cause = b.boot.cause →
      u.now = b.now → u.dp0 = b.dp0 → u.dp1 = b.dp1 → u.rp = b.rp → u.rpFifo = b.rpFifo → u.sb = b.sb → u.sbDrop = b.sbDrop →
      warm (warmBlock cause u) u.lt cause := by
    intro u cause e1 e2 e3 e4 e5 e6 e7 e8 e9 e10
    obtain ⟨p1, p2, p3, p4, p5, p6⟩ := warmBlock_ports cause u
    refine ⟨?_, p1, p2, p3.trans (by rw [e5]), p4.trans (by rw [e6]), p5.trans (by rw [e7, e8]), p6.trans (by rw [e9, e10])⟩
    cases hst : b.boot.stopped
    · rw [if_neg (by decide)]
      have h := warmBlock_fresh cause (e1.trans hst)
      rw [e4] at h
      exact h
    · rw [if_pos rfl]
      have h := warmBlock_stuck cause (e1.trans hst)
      rw [e2, e3, e4] at h
      exact h
  have hgo : (b.boot.clkRef = true ∧ o.vddOk = true) ∨ b.boot.step = 2 → stepOneWaits o b = false := by
    rintro (⟨h1, h2⟩ | h) <;> simp [stepOneWaits, *]
  refine ⟨?_, fun hd hl => ?_, fun h => ?_, fun hs => ?_, fun hs => ?_, fun hv => ?_, fun hv => ?_, ?_, fun hv => ?_, fun hv => ?_, fun hm => ?_,
    fun hm h1 hw => ?_, fun hm hw => ⟨fun hl => ?_, fun hl hs => ?_, fun hl hs hr => ?_, fun hl hs he hc hr hst h1 h2 h3 h4 => ?_⟩, fun ho => ?_, fun hm => ?_,
    fun ho hm hv => ?_, fun q v hq hu h2 h3 h4 hh => ?_, fun u a ha => ⟨fun hh => ?_, fun h0 h20 hl => ?_⟩, fun q v hq hu h2 h3 h4 h0 h20 => ?_,
    fun q v k hq hu hk h2 h3 h4 => ?_⟩
  · cases c
    · exact ⟨_, rfl, ⟨rfl, rfl, rfl⟩, bareBlock_bare 1 b, rfl, (Bool.or_false _).symm, fun _ => rfl, fun p => by cases p <;> rfl⟩
    · exact ⟨_, rfl, ⟨rfl, rfl, rfl⟩, bareBlock_bare 1 b, rfl, (Bool.or_true _).symm, nofun, fun p => by cases p <;> rfl⟩
  · exact ⟨_, if_pos (by rw [show s.blk.boot.warmDue = true from hd, hl]; rfl), ⟨rfl, rfl, rfl⟩,
      hwarm b 0xFF01 rfl rfl rfl rfl rfl rfl rfl rfl rfl rfl⟩
  · refine if_neg ?_
    rw [Bool.and_eq_true]
    rintro ⟨hd, hl⟩
    exact h.elim (fun h => absurd hd (Bool.eq_false_iff.1 h)) fun h => absurd hl (Bool.eq_false_iff.1 h)
  · exact ⟨_, if_pos hs, ⟨rfl, rfl, rfl⟩, hwarm b 0xFF03 rfl rfl rfl rfl rfl rfl rfl rfl rfl rfl⟩
  · exact if_neg (Bool.eq_false_iff.1 hs)
  · refine ⟨_, congrArg Host.Outcome.next (if_pos hv), ⟨rfl, rfl, rfl⟩,
      hwarm { b with lt := {}, boot := { b.boot with vbk := true } } 0xFF02 rfl rfl rfl rfl rfl rfl rfl rfl rfl rfl, warmBlock_vbk _ _⟩
  · exact congrArg Host.Outcome.next (if_neg (Bool.eq_false_iff.1 hv))
  · exact ⟨_, rfl, ⟨rfl, rfl, rfl⟩, bareBlock_bare 1 b, rfl, rfl, rfl⟩
  · exact upd_gives (by rw [hv]; rfl)
  · exact upd_gives (by rw [hv]; rfl)
  · exact if_pos (by rw [hm]; rfl)
  · have hwait : stepOneWaits o b = true := by
      rw [stepOneWaits, h1]
      obtain h | h := hw <;> rw [h] <;> simp
    exact startUp_waits hm hwait
  · exact ⟨_, (startUp_runs hm (hgo hw)).trans (congrArg _ (startSteps_lock hl)), stopAt_stops 3 2 (by rw [sensedBlock_boot])⟩
  · exact ⟨_, (startUp_runs hm (hgo hw)).trans (congrArg _ (startSteps_sram hl hs)),
      stopAt_stops 4 3 ((loseEngines_ready _ _).trans (by rw [sensedBlock_boot]))⟩
  · obtain ⟨w, hw1, hw2, hw3⟩ := startSteps_rom hl hs hr
    refine ⟨_, (startUp_runs hm (hgo hw)).trans (congrArg _ hw1), hw2, stopAt_stops 8 4 hw3⟩
  · obtain ⟨hvdd, hhold⟩ := mayBoot_parts hm
    obtain ⟨k1, k2, -, -, -, -, -, k8⟩ := keyedBlock_parts (o := o) (s := s)
    obtain ⟨n1, n2, n3, n4⟩ := keyedBlock_seeded (o := o) (s := s)
    obtain ⟨o1, o2, o3⟩ := measured_outside (o := o) (s := s)
    have hbarn := fun key => keyedBlock_barn (o := o) (s := s) (key := key)
    have hmargin := keyedBlock_margin (o := o) hhold
    refine ⟨_, (startUp_runs hm (hgo hw)).trans (congrArg _ (startSteps_asks hl hs he hc hr hst ⟨h1, h2, h3, h4⟩ hhold)), ?_⟩
    generalize measured o s = M at *
    generalize keyedBlock o s = K at *
    refine ⟨o1, o2, o3, k2, rfl, rfl, ?_, k8, ?_, n1, n2, n3, n4, fun key hk => hbarn key hk, hmargin⟩
    · show K.boot.bootTime = since
      rw [k1]
      show (sensedBlock o s).boot.bootTime = since
      rw [sensedBlock_boot]
    · dsimp only
      rw [k8]
  · exact clkRef_none ho
  · exact clkRef_stuck hm
  · have hvdd : clockedState s = { s with blk := { b with boot := { b.boot with clkRef := true, vddOk := true } } } := by
      rw [clockedState, (mayBoot_parts hm).1]
    refine ⟨_, (clkRef_some ho).trans (if_pos hm), ?_⟩
    rw [← hvdd]
    refine startUp_runs (s := clockedState s) hm ?_
    have h1 : (clockedState s).blk.boot.clkRef = true := (mayBoot_parts hm).1
    rw [stepOneWaits, h1, hv]
    exact Bool.and_false _
  · exact ⟨upd_gives ((sbResponse_answered hq false v.toNat).trans (boot_waits (b := { b with sb := none }) hu hh h2)),
      upd_gives ((sbResponse_answered hq true v.toNat).trans (boot_waits (b := { b with sb := none }) hu hh h2)),
      upd_gives ((sbTimeout_answered hq).trans ((boot_waits (b := { b with sb := none, sbDrop := b.sbDrop + 1, now := max b.now (q.since + 50000) }) hu hh h2).trans
        (by rw [h3]; rfl)))⟩
  · unfold epochGoesOn
    rw [ha]
    exact if_pos (by rw [← Bool.or_eq_true] at hh; exact hh)
  · have hgoes : epochGoesOn u = epochAnswer a (modBoot (fun t => { t with epochDue := none }) u) := by
      unfold epochGoesOn
      rw [ha]
      exact if_neg (by rw [h0, h20]; decide)
    obtain ⟨e, why, bad, he, hn⟩ := epochOf_fields a { u.boot with epochDue := none }
    rw [hgoes, epochAnswer_rises, modBoot_epochOf (b := modBoot (fun t => { t with epochDue := none }) u) he,
      riseReady_boot (b := withEpoch e why bad (modBoot (fun t => { t with epochDue := none }) u)) hl]
    exact ⟨rfl, rfl, rfl, hn⟩
  · have hlate : ∀ k : Fin 4, ∀ w : Block, (risenBlock w).timers.get k.val = ((w.timers.get k.val).1, w.now + (w.timers.get k.val).1) :=
      fun k w => risenBlock_rises w k.isLt
    have hi : sbIdle { b with sb := none } := ⟨rfl, h2, h3, h4⟩
    intro up risen ask asked
    refine ⟨fun hl hv => ?_, fun hl hv => ?_, fun hl hv => ?_, fun hl => ?_, fun hl => ?_⟩
    · have hr : risenBlock (withEpoch v.toNat 0 b.boot.noEpoch { b with sb := none }) = risen := rfl
      clear_value risen
      rw [← hr]
      exact upd_gives ((sbResponse_answered hq false v.toNat).trans (boot_rises_many (b := { b with sb := none }) hu h0 h20 hl (epochOf_value hv _)))
    · refine ⟨_, upd_gives ((sbResponse_answered hq false v.toNat).trans (boot_rises (b := { b with sb := none }) hu h0 h20 hi hl (epochOf_value hv _))),
        ⟨rfl, rfl, rfl, (Bool.or_false _).symm, rfl, rfl, rfl, rfl, fun k => hlate k _⟩, rfl, rfl, rfl⟩
    · refine ⟨_, upd_gives ((sbResponse_answered hq false v.toNat).trans (boot_rises (b := { b with sb := none }) hu h0 h20 hi hl (epochOf_large hv _))),
        ⟨rfl, rfl, rfl, (Bool.or_true _).symm, rfl, rfl, rfl, rfl, fun k => hlate k _⟩, rfl, rfl, rfl⟩
    · refine ⟨_, upd_gives ((sbResponse_answered hq true v.toNat).trans (boot_rises (b := { b with sb := none }) hu h0 h20 hi hl (epochOf_none _))),
        ⟨rfl, rfl, rfl, (Bool.or_true _).symm, rfl, rfl, rfl, rfl, fun k => hlate k _⟩, rfl, rfl, rfl⟩
    · refine ⟨_, upd_gives ((sbTimeout_answered hq).trans (boot_rises_waiting (b := { b with sb := none, sbDrop := b.sbDrop + 1, now := max b.now (q.since + 50000) })
          hu h0 h20 (Nat.succ_ne_zero _) h2 hl (epochOf_none _))),
        ⟨rfl, rfl, rfl, (Bool.or_true _).symm, rfl, rfl, rfl, rfl, fun k => hlate k _⟩, rfl, ?_, rfl, rfl⟩
      show b.sbDrop + 1 = 1
      rw [h3]
  · obtain ⟨t, ht⟩ := afterReady_asks (b := { b with sb := none }) (q := q) (v := v.toNat) ⟨rfl, h2, h3, h4⟩ hu hk
    refine ⟨_, upd_gives ((sbResponse_answered hq false v.toNat).trans ((congrArg sbPump ht).trans (sbPump_empty rfl))), rfl⟩

end Sys2Proof.Machine
end


section
/-!
SUPPORT. Lane faults, retries, self-tests and reseeds (R127 to R133, R135, R220, R246).
-/

namespace Sys2Proof.Machine

open Sys2Proof

/-! ## What a job's stop leaves of the job and of a lane -/

/-- The fields of a job that no stop of its work changes. -/
def jobCore (j : Job) := (j.desc, j.retried, j.faultLane, j.engine)

/-- The boot's state, what a stop leaves of job `i`, and the fault count and jobs of lane `l`. -/
def faultView (i l : Nat) (b : Block) := (b.boot, (b.job i).map jobCore, (b.lane l).faults, (b.lane l).jobs)

section
variable {i l : Nat}

theorem boot_of_view {b t : Block} (h : faultView i l t = faultView i l b) : t.boot = b.boot := congrArg (fun p => p.1) h

theorem modJob_view {f : Job → Job} (hf : ∀ x, jobCore (f x) = jobCore x) (m : Nat) (b : Block) : faultView i l (modJob m f b) = faultView i l b := by
  have hjob : ((modJob m f b).job i).map jobCore = (b.job i).map jobCore := by
    by_cases h : i = m
    · rw [h, modJob_job_self]
      cases b.job m with
      | none => rfl
      | some x => exact congrArg some (hf x)
    · rw [modJob_job_ne h]
  unfold faultView
  rw [hjob]
  rfl

theorem modLane_view {f : Lane → Lane} (hf : ∀ x, (f x).faults = x.faults ∧ (f x).jobs = x.jobs) (m : Nat) (b : Block) :
    faultView i l (modLane m f b) = faultView i l b := by
  have hlane : ((modLane m f b).lane l).faults = (b.lane l).faults ∧ ((modLane m f b).lane l).jobs = (b.lane l).jobs := by
    by_cases h : l = m
    · rw [h, modLane_lane_self]
      exact hf _
    · rw [modLane_lane_ne h]
      exact ⟨rfl, rfl⟩
  unfold faultView
  rw [hlane.1, hlane.2]
  rfl

theorem useSys_view (k : Nat) (b : Block) : faultView i l (useSys k b) = faultView i l b := by
  obtain ⟨t, r, d, h⟩ := useSys_frame k b
  rw [h]
  rfl

theorem offer_view (p : Port) (rs : List Req) (b : Block) : faultView i l (offer p rs b) = faultView i l b := by
  unfold faultView Block.job Block.lane
  rw [offer_boot, offer_jobs, offer_lanes]

theorem putBack_view (m : Nat) (j : Job) (k : Nat) (b : Block) : faultView i l (putBack m j k b) = faultView i l b := by
  unfold putBack
  split
  · rfl
  · split
    · rfl
    · exact modJob_view (fun _ => by rfl) _ _

theorem sendTap_view (m n : Nat) (st : Bytes) (b : Block) : faultView i l (sendTap m n st b) = faultView i l b := by
  unfold sendTap
  split
  · rfl
  · exact (offer_view _ _ _).trans (modJob_view (fun _ => by rfl) _ _)

theorem saveTap_view (m : Nat) (j : Job) (k : Nat) (b : Block) : faultView i l (saveTap m j k b) = faultView i l b := by
  unfold saveTap
  split
  · split
    · dsimp only
      split
      · exact (modJob_view (fun _ => by rfl) _ _).trans (modLane_view (fun _ => by exact ⟨rfl, rfl⟩) _ _)
      · exact (sendTap_view _ _ _ _).trans (modLane_view (fun _ => by exact ⟨rfl, rfl⟩) _ _)
    · rfl
  · rfl

theorem pushOut_view (m c n : Nat) (b : Block) : faultView i l (pushOut m c n b) = faultView i l b := by
  induction n generalizing b with
  | zero => rfl
  | succ n ih =>
    unfold pushOut
    split
    · rfl
    · split
      · rfl
      · exact (ih _).trans (modJob_view (fun _ => by rfl) _ _)

theorem pushJob_view (m : Nat) (b : Block) : faultView i l (pushJob m b) = faultView i l b := by
  unfold pushJob
  split
  · rfl
  · split
    · rfl
    · dsimp only
      split
      · exact (when_keeps (f := modChute _ letChute) (g := faultView i l) (fun _ => rfl) _ _).trans (pushOut_view _ _ _ _)
      · exact pushOut_view _ _ _ _

theorem releaseOut_view (m : Nat) (j : Job) (out : Bytes) (b : Block) : faultView i l (releaseOut m j out b) = faultView i l b := by
  have hwrite : faultView i l (writeOut m j.dstDone true (out.drop j.dstDone) b) = faultView i l b := by
    unfold writeOut
    split
    · rfl
    · split
      · exact (pushJob_view _ _).trans (modJob_view (fun _ => by rfl) _ _)
      · exact offer_view _ _ _
  unfold releaseOut
  split
  · exact (modJob_view (fun _ => by rfl) _ _).trans hwrite
  · rfl

theorem dropEntry_view (m : Nat) (b : Block) : faultView i l (dropEntry m b) = faultView i l b := by
  unfold dropEntry
  split
  · rfl
  · split
    · exact when_keeps (g := faultView i l) (f := modIsland _ _) (fun _ => rfl) _ _
    · rfl

theorem stopJobAt_view (m k : Nat) (j : Job) (b : Block) : faultView i l (stopJobAt m k j b) = faultView i l b := by
  have hback : ∀ c n t, faultView i l (when c (putBack m j n) t) = faultView i l t := fun c n t => when_keeps (putBack_view m j n) c t
  have hdrop : ∀ c t, faultView i l (when c (dropWaitingWrites m) t) = faultView i l t := fun c t => when_keeps (f := dropWaitingWrites m) (fun _ => rfl) c t
  have hreqs : ∀ q t, faultView i l (dropReqs q t) = faultView i l t := fun _ _ => rfl
  have hfree : ∀ t, faultView i l (freed t) = faultView i l t := fun _ => rfl
  unfold stopJobAt
  dsimp only
  rw [modJob_view (fun _ => by rfl), dropEntry_view, hdrop, hreqs, releaseOut_view, saveTap_view, hback, hfree, hfree, hfree, hfree, useSys_view]

end

/-! ## A lane's fences -/

section
variable {i l : Nat}

theorem fence_view {f : Lane → Lane} (hf : ∀ x, (f x).faults = x.faults ∧ (f x).jobs = x.jobs) (m : Nat) (b : Block) :
    faultView i l (fence m f b) = faultView i l b := by
  have hrefill : faultView i l (refillAll b) = faultView i l b := each_keeps (f := refill) (fun _ _ => rfl) _ _
  have hunpair : ∀ t, faultView i l (unpair m t) = faultView i l t := fun t =>
    when_keeps (f := modLane (m / 2 * 2) fun x => { x with reservedBy := none, givesWay := none }) (fun _ => modLane_view (fun _ => by exact ⟨rfl, rfl⟩) _ _) _ _
  unfold fence
  dsimp only
  rw [when_keeps (f := raise evLanesDegraded []) (g := faultView i l) (fun _ => rfl), hunpair, modLane_view hf, hrefill]

end

/-- A fence changes, of the lanes' marks, those of its own lane, by its function. -/
theorem fence_lane (m : Nat) (f : Lane → Lane) (b : Block) (q : Nat) :
    ∃ r w, (fence m f b).lane q = { (if q = m then f (b.lane q) else b.lane q) with reservedBy := r, givesWay := w } := by
  have hrefill : (refillAll b).lanes = b.lanes := each_keeps (g := Block.lanes) (f := refill) (fun _ _ => rfl) _ _
  have hmod : (modLane m f (refillAll b)).lane q = if q = m then f (b.lane q) else b.lane q := by
    by_cases h : q = m
    · rw [if_pos h, h, modLane_lane_self, Block.lane, hrefill]
      rfl
    · rw [if_neg h, modLane_lane_ne h, Block.lane, hrefill]
      rfl
  have hraise : ∀ c t, (when c (raise evLanesDegraded []) t).lane q = t.lane q := fun c t =>
    when_keeps (f := raise evLanesDegraded []) (g := fun t => t.lane q) (fun _ => rfl) c t
  unfold fence
  dsimp only
  rw [hraise, unpair, ← hmod]
  generalize modLane m f (refillAll b) = t
  cases !(t.lane m).inService
  · exact ⟨_, _, rfl⟩
  · rw [when_true]
    by_cases h : q = m / 2 * 2
    · rw [h, modLane_lane_self]
      exact ⟨_, _, rfl⟩
    · rw [modLane_lane_ne h]
      exact ⟨_, _, rfl⟩

theorem fence_bad (m : Nat) (b : Block) : ((fence m badLane b).lane m).fencedFault = true := by
  obtain ⟨r, w, h⟩ := fence_lane m badLane b m
  rw [h, if_pos rfl]
  rfl

theorem fence_keeps_bad (m : Nat) {q : Nat} {b : Block} (h : (b.lane q).fencedFault = true) : ((fence m badLane b).lane q).fencedFault = true := by
  obtain ⟨r, w, hq⟩ := fence_lane m badLane b q
  rw [hq]
  show (if q = m then badLane (b.lane q) else b.lane q).fencedFault = true
  split
  · rfl
  · exact h

theorem fenceAll_bad (l : List Nat) (b : Block) : ∀ q ∈ l, ((each l (fun m => fence m badLane) b).lane q).fencedFault = true :=
  fun q hq => each_reaches (P := fun t => (t.lane q).fencedFault = true) hq (fun t => fence_bad q t) (fun m _ h => fence_keeps_bad m h) b

/-! ## A job that becomes a retry (R127, R246) -/

section
variable {i l : Nat}

theorem leave_view (m : Nat) (b : Block) : faultView i l (leave m b) = faultView i l b := by
  unfold leave
  split
  · exact fence_view (fun x => by split <;> exact ⟨rfl, rfl⟩) _ _
  · rfl

theorem leave_boot (m : Nat) (b : Block) : (leave m b).boot = b.boot := boot_of_view (leave_view (i := 0) (l := 0) m b)

/-- The lanes without a job, before a leaving one is fenced. -/
theorem erased_lane (b : Block) : ((lanesWithout i b).get l).faults = (b.lane l).faults ∧ ∀ q ∈ ((lanesWithout i b).get l).jobs, q ∈ (b.lane l).jobs := by
  rw [lanesWithout_get]
  split
  · exact ⟨rfl, fun q hq => List.mem_of_mem_erase hq⟩
  · exact ⟨rfl, fun q hq => hq⟩

/-- Of a lane's job list an engine let go takes at most a job away. -/
theorem freeEngine_lanes (b : Block) : ((freeEngine i b).lane l).faults = (b.lane l).faults ∧ ∀ q ∈ ((freeEngine i b).lane l).jobs, q ∈ (b.lane l).jobs := by
  unfold freeEngine
  split
  · exact ⟨rfl, fun _ h => h⟩
  · have hleave : faultView 0 l (each lanes8 leave { b with lanes := lanesWithout i b }) = faultView 0 l { b with lanes := lanesWithout i b } :=
      each_keeps (g := faultView 0 l) (fun m t => leave_view m t) _ _
    simp only [faultView, Prod.mk.injEq] at hleave
    obtain ⟨-, -, hfaults, hjobs⟩ := hleave
    obtain ⟨h1, h2⟩ := erased_lane (i := i) (l := l) b
    exact ⟨hfaults.trans h1, fun q hq => h2 q (hjobs ▸ hq)⟩
  · have hdrop := dropEntry_view (i := i) (l := l) i b
    simp only [faultView, Prod.mk.injEq] at hdrop
    obtain ⟨-, -, hfaults, hjobs⟩ := hdrop
    exact ⟨hfaults, fun q hq => hjobs ▸ hq⟩
  · exact ⟨rfl, fun _ h => h⟩
  · exact ⟨rfl, fun _ h => h⟩
  · exact ⟨rfl, fun _ h => h⟩

theorem freeEngine_boot (b : Block) : (freeEngine i b).boot = b.boot := by
  unfold freeEngine
  split
  · rfl
  · exact each_keeps (g := Block.boot) (fun m t => leave_boot m t) _ _
  · exact boot_of_view (dropEntry_view (i := 0) (l := 0) i b)
  · rfl
  · rfl
  · rfl

/-- A job whose work is stopped keeps what is not of the work, and no key. -/
theorem stopJobAt_job {k : Nat} {j y : Job} {b : Block} (h : b.job i = some y) :
    ∃ z, (stopJobAt i k j b).job i = some z ∧ jobCore z = jobCore y ∧ z.keys = [] := by
  have hview := stopJobAt_view (i := i) (l := 0) i k j b
  simp only [faultView, Prod.mk.injEq] at hview
  obtain ⟨-, hcore, -⟩ := hview
  rw [h] at hcore
  obtain ⟨z, hz, hzc⟩ := Option.map_eq_some_iff.1 hcore
  refine ⟨z, hz, hzc, ?_⟩
  unfold stopJobAt at hz
  dsimp only at hz
  rw [modJob_job_self] at hz
  obtain ⟨w, -, rfl⟩ := Option.map_eq_some_iff.1 hz
  rfl

theorem framesFor_ne (b : Block) (k : Nat) (j : Job) (r : Bool) : framesFor b i k j r ≠ [] := by
  unfold framesFor
  dsimp only
  split <;> exact List.cons_ne_nil _ _

theorem tapStarved_served {b : Block} (h : b.boot.entropyStopped = false) : tapStarved i b = b := by
  unfold tapStarved
  rw [h, Bool.false_and, when_false]

end

/-- A retry: what a first fault leaves of a job. -/
def Retried (l : Nat) (j x : Job) : Prop := x.stage = .retry ∧ x.retried = j.retried ∧ x.faultLane = some l ∧ x.keys = [] ∧ x.desc = j.desc

section
variable {i l k : Nat} {j : Job} {b : Block}

theorem view_stopped (m q : Nat) : faultView m q (stopJobAt i k j (useSys 2 b)) = faultView m q b := (stopJobAt_view _ _ _ _).trans (useSys_view _ _)

/-- What leaving an engine is, outside the page. -/
theorem leaveEngine_eq (hs : b.boot.entropyStopped = false) : ∃ t : Block, t.jobs = (stopJobAt i k j (useSys 2 b)).jobs
    ∧ t.lanes = (stopJobAt i k j (useSys 2 b)).lanes
    ∧ leaveEngine i k j true .retry b = modJob i (fun x => { x with stage := .retry, engine := none }) (freeEngine i t) := by
  have hboot := boot_of_view (view_stopped (i := i) (k := k) (j := j) (b := b) 0 0)
  refine ⟨putFrames i j true (takesHitchFrame (useSys 2 b) i j) (framesFor (useSys 2 b) i k j true) (stopJobAt i k j (useSys 2 b)), rfl, rfl,
    tapStarved_served ?_⟩
  rw [modJob_boot, freeEngine_boot]
  exact (congrArg Boot.entropyStopped hboot).trans hs

theorem leaveEngine_retries {y : Job} (hy : b.job i = some y) (hs : b.boot.entropyStopped = false) :
    ∃ z : Job, (leaveEngine i k j true .retry b).job i = some { z with stage := .retry, engine := none } ∧ jobCore z = jobCore y ∧ z.keys = [] := by
  obtain ⟨z, hz, hc, hk⟩ := stopJobAt_job (k := k) (j := j) ((job_of_jobs (useSys_jobs 2 b) i).trans hy)
  obtain ⟨t, ht, -, heq⟩ := leaveEngine_eq (i := i) (k := k) (j := j) hs
  refine ⟨z, ?_, hc, hk⟩
  rw [heq]
  exact modJob_job ((job_of_jobs ((freeEngine_jobs i t).trans ht) i).trans hz) _

/-- Of a lane a retry takes at most its job, and leaves its count. -/
def LaneKept (q : Nat) (t b : Block) : Prop := (t.lane q).faults = (b.lane q).faults ∧ ∀ m ∈ (t.lane q).jobs, m ∈ (b.lane q).jobs

theorem laneKept_of_view {m q : Nat} {t : Block} (h : faultView m q t = faultView m q b) : LaneKept q t b := by
  simp only [faultView, Prod.mk.injEq] at h
  obtain ⟨-, -, hfaults, hjobs⟩ := h
  exact ⟨hfaults, fun m hm => hjobs ▸ hm⟩

theorem LaneKept.trans {q : Nat} {t u : Block} (h1 : LaneKept q t u) (h2 : LaneKept q u b) : LaneKept q t b :=
  ⟨h1.1.trans h2.1, fun m hm => h2.2 m (h1.2 m hm)⟩

theorem leaveEngine_lanes (hs : b.boot.entropyStopped = false) (q : Nat) : LaneKept q (leaveEngine i k j true .retry b) b := by
  obtain ⟨t, -, ht, heq⟩ := leaveEngine_eq (i := i) (k := k) (j := j) hs
  have hstop : LaneKept q t b := by
    have h := laneKept_of_view (view_stopped (i := i) (k := k) (j := j) (b := b) 0 q)
    rw [LaneKept, Block.lane, ← ht] at h
    exact h
  rw [heq]
  exact LaneKept.trans (u := t) (freeEngine_lanes t) hstop

/-- The block in which the faulted lane is recorded. -/
def markedFault (i l : Nat) (b : Block) : Block := modJob i (fun x => { x with faultLane := some l }) (useSys 2 b)

theorem markedFault_job (hj : b.job i = some j) : (markedFault i l b).job i = some { j with faultLane := some l } :=
  modJob_job ((job_of_jobs (useSys_jobs 2 b) i).trans hj) _

theorem markedFault_boot : (markedFault i l b).boot = b.boot := by
  rw [markedFault, modJob_boot]
  exact boot_of_view (useSys_view (i := 0) (l := 0) 2 b)

theorem markedFault_lanes (q : Nat) : LaneKept q (markedFault i l b) b := laneKept_of_view (m := 0) (t := useSys 2 b) (useSys_view 2 b)

theorem becomeRetry_free (h : recoveryFree b i j = true) : becomeRetry i l k j b = leaveEngine i k j true .retry (markedFault i l b) := if_pos h

theorem becomeRetry_kept (h : recoveryFree b i j = false) (hs : b.boot.entropyStopped = false) : becomeRetry i l k j b =
    modJob i (fun x => { x with stage := .retry, kept := framesFor (markedFault i l b) i k j true }) (stopJobAt i k j (markedFault i l b)) := by
  refine (if_neg (Bool.eq_false_iff.1 h)).trans (tapStarved_served ?_)
  rw [modJob_boot, boot_of_view (stopJobAt_view (i := 0) (l := 0) i k j _)]
  exact (congrArg Boot.entropyStopped markedFault_boot).trans hs

/-- A first fault makes the job a retry (R127). -/
theorem becomeRetry_retries (hj : b.job i = some j) (hs : b.boot.entropyStopped = false) : ∃ x, (becomeRetry i l k j b).job i = some x ∧ Retried l j x
    ∧ (recoveryFree b i j = true → x.engine = none) ∧ (recoveryFree b i j = false → x.engine = j.engine ∧ x.kept ≠ []) := by
  cases hf : recoveryFree b i j
  · obtain ⟨z, hz, hc, hk⟩ := stopJobAt_job (k := k) (j := j) (markedFault_job (l := l) hj)
    simp only [jobCore, Prod.mk.injEq] at hc
    obtain ⟨hd, hr, hl, he⟩ := hc
    rw [becomeRetry_kept hf hs]
    exact ⟨_, modJob_job hz _, ⟨rfl, hr, hl, hk, hd⟩, nofun, fun _ => ⟨he, framesFor_ne _ _ _ _⟩⟩
  · have hstop : (markedFault i l b).boot.entropyStopped = false := (congrArg Boot.entropyStopped markedFault_boot).trans hs
    obtain ⟨z, hz, hc, hk⟩ := leaveEngine_retries (k := k) (j := j) (markedFault_job (l := l) hj) hstop
    simp only [jobCore, Prod.mk.injEq] at hc
    obtain ⟨hd, hr, hl, -⟩ := hc
    rw [becomeRetry_free hf]
    exact ⟨_, hz, ⟨rfl, hr, hl, hk, hd⟩, fun _ => rfl, nofun⟩

theorem becomeRetry_lanes (hs : b.boot.entropyStopped = false) (q : Nat) : LaneKept q (becomeRetry i l k j b) b := by
  cases hf : recoveryFree b i j
  · have hstop : LaneKept q (stopJobAt i k j (markedFault i l b)) (markedFault i l b) := laneKept_of_view (m := 0) (stopJobAt_view _ _ _ _)
    rw [becomeRetry_kept hf hs]
    exact LaneKept.trans (u := markedFault i l b) hstop (markedFault_lanes q)
  · rw [becomeRetry_free hf]
    exact (leaveEngine_lanes ((congrArg Boot.entropyStopped markedFault_boot).trans hs) q).trans (markedFault_lanes q)

end

/-! ## First and second faults -/

section
variable {i l k : Nat} {j x : Job} {b : Block}

/-- A retry on its lane leaves it by no hitch. -/
theorem othersLeave_retry (hjobs : ∀ q ∈ (b.lane l).jobs, q = i) (hx : b.job i = some x) (hs : x.stage = .retry) : othersLeave l b = b := by
  unfold othersLeave
  refine each_kept fun e he => ?_
  have hmem : e.1 = i := by
    obtain ⟨q, hq, hqe⟩ := List.mem_filterMap.1 (List.mem_of_mem_filter he)
    obtain ⟨y, -, rfl⟩ := Option.map_eq_some_iff.1 hqe
    exact hjobs q hq
  have hstay : canLeave b i x = false := by
    unfold canLeave
    rw [hs]
    rfl
  rw [hmem, hx]
  dsimp only
  rw [hstay, Bool.false_and, when_false]

/-- The fences of a first fault: SUSPECT alone, or with other recoveries open the fences of all (R127, R131). -/
def firstFences (l : Nat) (others : List Nat) (b : Block) : Block :=
  if others == [] then fence l (fun x => { x with suspect := true }) b else fence l badLane (each others (fun m => fence m badLane) b)

theorem firstFences_view (m q l : Nat) (others : List Nat) (b : Block) : faultView m q (firstFences l others b) = faultView m q b := by
  have hbad : ∀ n t, faultView m q (fence n badLane t) = faultView m q t := fence_view (f := badLane) fun _ => ⟨rfl, rfl⟩
  unfold firstFences
  split
  · exact fence_view (f := fun x => { x with suspect := true }) (fun _ => ⟨rfl, rfl⟩) l b
  · exact (hbad _ _).trans (each_keeps hbad others b)

theorem firstFences_jobs (l : Nat) (others : List Nat) (b : Block) : (firstFences l others b).jobs = b.jobs := by
  unfold firstFences
  split
  · exact fence_jobs _ _ _
  · exact (fence_jobs _ _ _).trans (each_keeps (g := Block.jobs) (fun _ _ => fence_jobs _ _ _) _ _)

theorem firstFences_suspect : ((firstFences l [] b).lane l).suspect = true := by
  obtain ⟨r, w, h⟩ := fence_lane l (fun x => { x with suspect := true }) b l
  show ((fence l _ b).lane l).suspect = true
  rw [h, if_pos rfl]

theorem fences_bad (l : Nat) (others : List Nat) (b : Block) : let t := fence l badLane (each others (fun m => fence m badLane) b)
    (t.lane l).fencedFault = true ∧ ∀ q ∈ others, (t.lane q).fencedFault = true :=
  ⟨fence_bad _ _, fun q hq => fence_keeps_bad _ (fenceAll_bad others b q hq)⟩

theorem firstFences_bad {others : List Nat} (h : others ≠ []) :
    ((firstFences l others b).lane l).fencedFault = true ∧ ∀ q ∈ others, ((firstFences l others b).lane q).fencedFault = true := by
  have heq : firstFences l others b = fence l badLane (each others (fun m => fence m badLane) b) := if_neg (by simpa using h)
  rw [heq]
  exact fences_bad l others b

/-- A fault seen changes the lane's count and the events alone. -/
theorem faultSeen_lane : (faultSeen l j b).lane l = { b.lane l with faults := satAdd 32 (b.lane l).faults 1 } := by
  show (modLane l _ b).lane l = _
  rw [modLane_lane_self]

theorem laneFault_first (hj : b.job i = some j) (hp : pairFault l j = false) (hf : faultsAt b l i k j = true) (hn : j.faultLane = none) :
    laneFault l i k b = othersLeave l (firstFences l (openRecoveries b i) (becomeRetry i l k j (faultSeen l j b))) := by
  unfold laneFault
  rw [hj]
  dsimp only
  rw [hp, hf, hn]
  rfl

theorem laneFault_second (hj : b.job i = some j) (hp : pairFault l j = false) (hf : faultsAt b l i k j = true) (hn : j.faultLane ≠ none) :
    laneFault l i k b = secondFault l i j (faultSeen l j b) := by
  unfold laneFault
  rw [hj]
  dsimp only
  rw [hp, hf, Option.isSome_iff_ne_none.2 hn]
  rfl

theorem laneFault_none (hj : b.job i = some j) (hp : pairFault l j = false) (hf : faultsAt b l i k j = false) : laneFault l i k b = b := by
  unfold laneFault
  rw [hj]
  dsimp only
  rw [hp, hf]
  rfl

theorem laneFault_pair (hj : b.job i = some j) (hp : pairFault l j = true) : laneFault l i k b = secondFault l i j (faultSeen l j b) := by
  unfold laneFault
  rw [hj]
  dsimp only
  rw [hp]
  rfl

/-- The second fault fences every lane of the job and of the other open recoveries (R130, R131). -/
theorem secondFault_bad : let t := secondFault l i j (faultSeen l j b)
    ((t.lane l).fencedFault = true ∧ ∀ q ∈ openRecoveries b i, (t.lane q).fencedFault = true) ∧ ∀ q, j.faultLane = some q → (t.lane q).fencedFault = true := by
  obtain ⟨h1, h2⟩ := fences_bad l (j.faultLane.toList ++ openRecoveries b i) (runError i .doubleFault (faultSeen l j b))
  refine ⟨⟨h1, fun q hq => h2 q (List.mem_append_right _ hq)⟩, fun q hq => h2 q (List.mem_append_left _ ?_)⟩
  rw [hq]
  exact List.mem_singleton.2 rfl

end

/-! ## Self-tests and retries -/

section
variable {l : Nat} {b : Block}

theorem laneAuto_idle (h : (b.lane l).testing = true) (pass : Bool) : laneAuto l pass b = b := by
  unfold laneAuto
  dsimp only
  rw [h]
  exact if_pos (by simp)

theorem laneAuto_tests (hh : holding b (1 + l) = false) (hs : (b.lane l).suspect = true) (ht : (b.lane l).testing = false) (hjobs : (b.lane l).jobs = [])
    (pass : Bool) : laneAuto l pass b = if !pass then laneFailed l b else
      when (((modLane l (fun x => { x with suspect := false }) (refillAll b)).lane l).inService) (raise evLaneUnfenced [])
        (modLane l (fun x => { x with suspect := false }) (refillAll b)) := by
  unfold laneAuto
  dsimp only
  rw [hh, hs, ht, hjobs]
  rfl

end

/-! ## The statement -/

/-- Settles O53: a first fault by what a stop leaves of the job and its lane, a second by the fences, the other commands by their own definitions. -/
theorem laneFaultsRetryOnce : Obligations.LaneFaultsRetryOnce := by
  intro s l i k j b open' bad both hready hj
  refine ⟨fun hh hp hf => ⟨fun hn hjobs hst => ?first, fun hn => ?second⟩, fun hh hp hf => ?none, fun hh hp => ?pair, fun h0 => ⟨fun hr => ?kept, fun n y e hr he => ?retry⟩,
    fun ht pass => ?testing, fun h20 hh hs ht hjobs => ⟨?failed, ?passed⟩, fun hh hst => ⟨fun hp h21 => ?reseeded, fun hp => ?late⟩⟩
  case first =>
    have hseen : (faultSeen l.val j b).job i.val = some j := hj
    have hone : ∀ q ∈ ((faultSeen l.val j b).lane l.val).jobs, q = i.val := by
      rw [faultSeen_lane]
      show ∀ q ∈ (b.lane l.val).jobs, q = i.val
      rw [hjobs]
      exact fun q hq => List.mem_singleton.1 hq
    obtain ⟨x, hx, ⟨hstage, hret, hfl, hkeys, hdesc⟩, hfree, hkept⟩ := becomeRetry_retries (l := l.val) (k := k) hseen (by exact hst)
    have hlanes := becomeRetry_lanes (i := i.val) (l := l.val) (k := k) (j := j) (b := faultSeen l.val j b) (by exact hst) l.val
    have hfences := firstFences_view 0 l.val l.val open' (becomeRetry i.val l.val k j (faultSeen l.val j b))
    have hjob := (job_of_jobs (firstFences_jobs l.val open' (becomeRetry i.val l.val k j (faultSeen l.val j b))) i.val).trans hx
    obtain ⟨hfaults, hmem⟩ := (laneKept_of_view hfences).trans hlanes
    have hstays := othersLeave_retry (fun q hq => hone q (hmem q hq)) hjob hstage
    refine ⟨_, updOn_gives hready hh ((laneFault_first hj hp hf hn).trans hstays), ?_, fun ho => ?_, fun ho => firstFences_bad ho, x, hjob, hstage, hret, hfl,
      hkeys, hdesc, hfree, hkept⟩
    · rw [hfaults, faultSeen_lane]
    · rw [ho]
      exact firstFences_suspect
  case second => exact ⟨_, updOn_gives hready hh (laneFault_second hj hp hf hn), secondFault_bad⟩
  case none => exact updOn_gives hready hh (laneFault_none hj hp hf)
  case pair => exact ⟨_, updOn_gives hready hh (laneFault_pair hj hp), secondFault_bad⟩
  case kept =>
    refine updOn_gives hready h0 ?_
    unfold laneRetry
    dsimp only
    rw [hr]
  case retry =>
    refine updOn_gives hready h0 ?_
    unfold laneRetry
    dsimp only
    rw [hr]
    dsimp only
    rw [he]
  case testing =>
    cases h20 : holding b 20
    · exact updOn_gives hready h20 (laneAuto_idle ht pass)
    · exact updReady_gives hready (by rw [h20]; rfl)
  case failed =>
    obtain ⟨r, w, hlane⟩ := fence_lane l.val (fun x => { x with suspect := false, fencedFault := true, testing := false }) b l.val
    rw [if_pos rfl] at hlane
    refine ⟨_, updOn_gives hready h20 (laneAuto_tests hh hs ht hjobs false), ?_, ?_⟩
    · exact congrArg Lane.fencedFault hlane
    · exact congrArg Lane.suspect hlane
  case passed =>
    intro t
    refine updOn_gives hready h20 ((laneAuto_tests hh hs ht hjobs true).trans ?_)
    show when ((t.lane l.val).inService) (raise evLaneUnfenced []) t = _
    cases (t.lane l.val).inService <;> rfl
  case reseeded =>
    refine updOn_gives hready hh ?_
    unfold laneReseed
    rw [if_neg (Bool.eq_false_iff.1 hst), if_neg (by decide), show s.blk.boot.entropyPaused = false from hp, show holding s.blk 21 = false from h21]
    rfl
  case late =>
    refine updOn_gives hready hh ?_
    unfold laneReseed
    rw [if_neg (Bool.eq_false_iff.1 hst), if_pos rfl, show (s.blk.lane l.val).paused = false from hp]
    rfl

end Sys2Proof.Machine
end
